-- ==== Sys2Proof/Word.lean ====
section
/-! DEFINITION. The word types of the register hub and of memory (R30, R34). -/

namespace Sys2Proof

/-- A 32-bit register word: the only register access size of R34. -/
abbrev Word := BitVec 32

/-- One byte of memory or of a frame. -/
abbrev Byte := BitVec 8

end Sys2Proof
end

