-- ==== Sys2Proof/Syntax.lean ====
section
/-! DEFINITION. The commands of the block: one constructor of `Instr` per row of the opcode table, and the
types of their operands. Measurements that only the outside can supply are operands. -/

namespace Sys2Proof

/-- The bus masters of R39. A core names its cluster and its number in it. -/
inductive Master where
  | sup
  | dma (c : Fin 4)
  | core (c : Fin 4) (j : Fin 8)
  | fabric
  | host
  | debug
  | srv
  deriving DecidableEq, Repr

/-- Sizes of a bus access. -/
inductive AccSize where
  | byte | half | word | dword
  deriving DecidableEq, Repr

/-- One register write that reaches the hub during a commit copy (R47). -/
structure BusWr where
  master : Master
  addr   : Word
  val    : Word
  deriving DecidableEq, Repr

/-- Capture sources of a reference edge (R87). -/
inductive RefInput where
  | wclk | ref10m | pps
  deriving DecidableEq, Repr

/-- The pulse outputs of R77 and R79. -/
inductive PulseOut where
  | tev (n : Fin 4)
  | pps
  deriving DecidableEq, Repr

/-- The phase slews of R102. -/
inductive SlewKind where
  | ft        -- retirement, slewed PSTEP or BO retirement
  | realign   -- a slewed REALIGN
  deriving DecidableEq, Repr

/-- The raw sense samples of one channel in one cycle: four of V and four of I, A32 (R252). -/
structure SenseIn where
  ch : Fin 32
  v  : List Word
  i  : List Word
  deriving DecidableEq, Repr

/-- What the outside supplies for a cycle boundary. -/
structure BoundaryInput where
  during : List BusWr := []     -- register writes that arrive in step 2 of R16 (R47)
  sense  : List SenseIn := []   -- sense samples of the cycle that ends (R252)
  frac   : List (Fin 12 × BitVec 8) := []  -- received part of the frame in progress, in 1/256: TDM 0-7, AES3 8-11 (R270)
  deriving DecidableEq, Repr
/-- A V register. -/
abbrev VReg := Fin 32
/-- An accumulator, address, modifier, length or base register number. -/
abbrev Reg8 := Fin 8

/-- Product shift modes (R186). -/
inductive MulMode where
  | int | q31 | q30
  deriving DecidableEq, Repr

/-- Comparison conditions of CMP.cc (R191). -/
inductive Cc where
  | eq | ne | lt | le | gt | ge | lo | hs
  deriving DecidableEq, Repr

/-- A shift amount: an immediate or Vs[4:0] (R191). -/
inductive ShAmt where
  | imm (n : Fin 32)
  | reg (v : VReg)
  deriving DecidableEq, Repr

/-- The address-side register files An, Mn, Ln, Bn (R192). -/
inductive AFile where
  | a | m | l | b
  deriving DecidableEq, Repr

/-- Sources of MRD (R191). -/
inductive MrdSrc where
  | file (f : AFile) (n : Reg8)
  | lc (n : Fin 4)
  | flags
  | cyc
  | accLo (n : Reg8)
  | accHi (n : Reg8)
  | accTop (n : Reg8)
  deriving DecidableEq, Repr

/-- Effective addresses (R183). -/
inductive Ea where
  | ind (n : Reg8)                  -- (An)
  | idx (n : Reg8) (j : Reg8)       -- (An+Mj)
  | postImm (n : Reg8) (imm : BitVec 8)
  | postMod (n : Reg8) (j : Reg8)
  | circ (n : Reg8) (j : Reg8)
  | bitrev (n : Reg8) (j : Reg8)
  deriving DecidableEq, Repr

/-- The memory slots (R179). -/
inductive MemSlot where
  | x | y | z
  deriving DecidableEq, Repr

/-- The slots of a packet (R179). -/
inductive Slot where
  | c | m | a | g | x | y | z
  deriving DecidableEq, Repr

/-- A JMP target (R189). -/
inductive JmpTarget where
  | imm (t : BitVec 16)
  | reg (v : VReg)
  deriving DecidableEq, Repr

/-- A REP count (R189). -/
inductive RepCount where
  | imm (n : BitVec 16)
  | reg (v : VReg)
  deriving DecidableEq, Repr

/-- Two-operand A-slot operations. -/
inductive Alu2 where
  | add | sub | adds | subs | and | or | xor | min | max
  deriving DecidableEq, Repr

/-- One-operand A-slot operations. -/
inductive Alu1 where
  | neg | abs | not | clz | mov
  deriving DecidableEq, Repr

/-- Shifts. -/
inductive ShOp where
  | shl | shr | shra
  deriving DecidableEq, Repr

/-- Complex products. -/
inductive CxOp where
  | cmac | cmsub | cmul
  deriving DecidableEq, Repr

/-- Real products. -/
inductive ReOp where
  | mac | msub | mul
  deriving DecidableEq, Repr

/-- MOVS directions (R207). -/
inductive SysMove where
  | read (d : VReg) (n : Nat)
  | write (n : Nat) (a : VReg)
  deriving DecidableEq, Repr

/-- One operation of a packet, in the slot its table gives it (R189 to R193, R206). -/
inductive SlotOp where
  | nop
  | jmp (t : JmpTarget)
  | call (t : BitVec 16)
  | ret
  | rep (n : RepCount) (stop : BitVec 16)
  | brk
  | waitCycle
  | sync
  | iret
  | user
  | wfi
  | trap (n : Fin 16)
  | cx (o : CxOp) (p : Reg8) (x y : VReg) (mode : MulMode) (cj : Bool)
  | re (o : ReOp) (n : Reg8) (a b : VReg) (mode : MulMode)
  | mac2 (p : Reg8) (x y : VReg) (mode : MulMode)
  | aclr (pair : Bool) (n : Reg8)
  | rnd (pair : Bool) (d : VReg) (n : Reg8) (sh : Fin 64)
  | sat (pair : Bool) (d : VReg) (n : Reg8) (sh : Fin 64)
  | alu2 (o : Alu2) (d a b : VReg)
  | alu1 (o : Alu1) (d a : VReg)
  | shift (o : ShOp) (d a : VReg) (n : ShAmt)
  | movi (d : VReg) (imm : BitVec 20)
  | movh (d : VReg) (imm : BitVec 16)
  | cmp (cc : Cc) (p : Fin 4) (a b : VReg)
  | sel (d a b : VReg) (p : Fin 4)
  | mrd (d : VReg) (src : MrdSrc)
  | mwr (a : VReg)
  | movs (mv : SysMove)
  | aaddI (n : Reg8) (imm : BitVec 16)
  | aaddM (n : Reg8) (j : Reg8)
  | amod (n : Reg8) (j : Reg8) (rev : Bool)
  | amov (f : AFile) (n : Reg8) (v : VReg)
  | amovi (f : AFile) (n : Reg8) (imm : BitVec 20)
  | ld (w : Bool) (slot : MemSlot) (d : VReg) (ea : Ea)   -- w: LD.W, else LD.D
  | st (w : Bool) (slot : MemSlot) (v : VReg) (ea : Ea)
  | undef (slot : Slot)                                   -- an undefined operation (R181)
  deriving DecidableEq, Repr

/-- One packet of a core as a command: the core (0-31 the cluster cores, 32 the supervisor), the guard of its C
slot, and the operations of its other slots. -/
structure Issue where
  core   : Fin 33
  guard  : Option (Bool × Fin 4) := none   -- (negated, n) for ?!Pn and ?Pn
  others : List SlotOp := []
  deriving DecidableEq, Repr
/-- The input of a trip (R245): the current comparator's level in 1/256 of full scale, or BFLTn low. -/
inductive TripSrc where
  | current (level : Nat)
  | bflt
  deriving DecidableEq, Repr

/-- What a diagnostic or a retest measured (R242, R243): the failures of steps 1 and 2, |Z| in 10 mΩ, the sign
check, the lead capacitance in pF and the sense offsets. -/
structure DiagIn where
  openSense : Bool := false
  shortGnd  : Bool := false
  shortRail : Bool := false
  shortLoad : Bool := false
  z         : Nat := 0
  swap      : Bool := false
  cap       : Nat := 0
  vofs      : Word := 0
  iofs      : Word := 0
  deriving DecidableEq, Repr
/-- A port with serial frames that lead: TDM ports and AES3 transmitters. -/
inductive SerialOut where
  | tdm (n : Fin 8)
  | aes (t : Fin 4)
  deriving DecidableEq, Repr

/-- A port with an elastic input buffer: TDM followers and AES3 receivers. -/
inductive SerialIn where
  | tdm (n : Fin 8)
  | aes (r : Fin 4)
  deriving DecidableEq, Repr

/-- One subframe of a received AES3 frame (R277). -/
structure AesSub where
  audio : BitVec 24 := 0
  v     : Bool := false
  u     : Bool := false
  c     : Bool := false
  parErr : Bool := false
  deriving DecidableEq, Repr

/-- One received AES3 frame: its coding, its preamble, its two subframes. -/
structure AesFrame where
  codeErr : Bool := false      -- a preamble or biphase error
  zPre    : Bool := false      -- subframe A carries the Z preamble
  a       : AesSub := {}
  b       : AesSub := {}
  deriving DecidableEq, Repr
/-- A reservation message as its receiver reads it (R331). -/
structure RsvMsg where
  flow   : Nat
  reason : Nat := 0
  srcA   : Nat := 0
  dstA   : Nat := 0
  bytes  : Nat := 0
  lat    : Nat := 0
  per    : Nat := 1
  phase  : Nat := 0
  idx    : Nat := 0
  path   : Bool := false
  move   : Bool := false
  l      : Nat := 2
  tag    : Nat := 0
  route  : List (Fin 4) := []
  deriving DecidableEq, Repr
/-- A lease message as its receiver reads it (R347); `svb`: it came over the service bus. -/
structure LeaseMsg where
  cyc : BitVec 48
  uid : BitVec 64
  svb : Bool := false
  deriving DecidableEq, Repr

/-- One entry of a MIRROR payload (R347): `slip` is 0 none, 1 skip, 2 repeat; samples are sample-major. -/
structure MirrorEntry where
  slot    : Fin 512
  conceal : Bool := false
  slip    : Fin 3 := 0
  nch     : Nat
  samples : List Word
  deriving DecidableEq, Repr

/-- One OUT channel of a received block state (R361). -/
structure ChanSnap where
  ch     : Fin 32
  st     : Fin 13
  since  : Nat
  retry  : Fin 16
  diagOk : Bool
  t1     : Int
  t2     : Int
  thGain : BitVec 25
  exGain : BitVec 25
  rh     : List (BitVec 16)     -- TH_RTH1, TH_RTH2, EX_F0, EX_Q
  deriving DecidableEq, Repr

/-- The block state that a received transfer holds (R361); its bytes are not given by the spec. -/
structure BlockSnap where
  chans : List ChanSnap := []
  grps  : List (Fin 32 × Fin 5 × Nat) := []    -- group, state, hold count
  deriving DecidableEq, Repr
/-- A request frame of the host link (R380), without its CMD byte, which the command's name gives; `crc` is the CRC received. -/
structure HostFrame where
  dev  : BitVec 8
  addr : Word := 0
  len  : BitVec 16 := 0
  data : List Byte := []
  crc  : BitVec 16
  deriving DecidableEq, Repr

/-- The flash device as a boot finds it (R417, R418): does it answer, the size SFDP declares, read errors in the two
slots, and the bytes it holds that the model has not seen, as runs from a flash address. -/
structure FlashIn where
  answers : Bool := true
  size    : Option Nat := none
  errA    : Bool := false
  errB    : Bool := false
  cells   : List (Nat × List Byte) := []
  deriving DecidableEq, Repr

/-- A command of the block. -/
inductive Instr where
  /-- CYCLE_BOUNDARY (R16): the next boundary, with what the outside supplies for it. -/
  | cycleBoundary (inp : BoundaryInput)
  /-- COMMIT_REQUEST (R45): a write of SYS.COMMIT by a master. -/
  | commitRequest (m : Master) (mask : Word)
  /-- REGISTER_WRITE (R35): a bus write to a register with no row of its own. -/
  | registerWrite (m : Master) (addr : Word) (size : AccSize) (val : Word)
  /-- HELD_SHADOW_WRITE_LAND (R47): the writes held during the commit copy land. -/
  | heldShadowWriteLand
  /-- TOP_WORD_WRITE (R51): a write to the top word of an RI multi-word value. -/
  | topWordWrite (m : Master) (addr : Word) (val : Word)
  /-- LOW_WORD_READ (R50): a read of the low word of a multi-word value. -/
  | lowWordRead (m : Master) (addr : Word)
  /-- CLEAR_ON_READ (R36): a read of an RC word; `hwSet` are the bits hardware sets in the same clock. -/
  | clearOnRead (m : Master) (addr : Word) (hwSet : Word)
  /-- SCRUBBER_SWEEP (R52): one sweep; `live` and `shadow` are words whose parity has failed since the last one. -/
  | scrubberSweep (live : List Word) (shadow : List Word)
  /-- MEMORY_ECC_ERROR (R466): a bus read by `m` meets an uncorrectable error at `addr`. -/
  | memoryEccError (m : Master) (addr : Word)
  /-- FT_STEP (R104): the boundary instant k1 + F of a step with fade. -/
  | ftStep
  /-- TXF_POP (R63): a read of PRT.TXF_NS. -/
  | txfPop (m : Master) (port : Fin 4)
  /-- TXF_DROP_CLEAR (R63): a write of PRT.TXF_DROPCLR. -/
  | txfDropClear (m : Master) (port : Fin 4)
  /-- TEV_ARM (R76): ARM written. -/
  | tevArm (m : Master) (n : Fin 4)
  /-- TEV_CANCEL (R76): CANCEL written. -/
  | tevCancel (m : Master) (n : Fin 4)
  /-- TEV_EDGE (R77): fabric time reaches the next edge. -/
  | tevEdge (n : Fin 4)
  /-- PPS_EDGE (R79): fabric time reaches the next selected second. -/
  | ppsEdge
  /-- PULSE_END (R77): the width of a pulse has elapsed. -/
  | pulseEnd (o : PulseOut)
  /-- TCAP_EDGE (R81): an edge on a capture input, `quarter` steps of 250 ps after the tick, lasting `lenNs`. -/
  | tcapEdge (n : Fin 4) (rising : Bool) (quarter : Fin 8) (lenNs : Nat)
  /-- TCAP_POP (R81): a read of TCAP[n].TS_NS. -/
  | tcapPop (m : Master) (n : Fin 4)
  /-- START_ARM (R83): ARM written to GRAT.START_ARM. -/
  | startArm (m : Master)
  /-- START_CANCEL (R83): CANCEL written to GRAT.START_ARM. -/
  | startCancel (m : Master)
  /-- SYNC_START_EDGE (R83): a rising edge on SYNC_START_IN. -/
  | syncStartEdge (quarter : Fin 8)
  /-- COMPASS_TICK (R85): one Compass tick. -/
  | compassTick
  /-- LOSS_OF_SIGNAL (R90): two expected periods of a candidate have passed without an arrival. -/
  | lossOfSignal (slot : Fin 8)
  /-- CANDIDATE_QUALIFIED (R91): the conditions have held for QUAL_TIME. -/
  | candidateQualified (slot : Fin 8)
  /-- DRIFT_WARN_TIMEOUT (R93): drift beyond DRIFT_WARN for DRIFT_WARN_TIME. -/
  | driftWarnTimeout (slot : Fin 8)
  /-- WTR_EXPIRY (R97): the wait-to-restore timer of a better candidate expires. -/
  | wtrExpiry (slot : Fin 8)
  /-- LOCKED (R95): ACQUIRING to LOCKED. -/
  | locked
  /-- UNLOCKED (R95): LOCKED to ACQUIRING. -/
  | unlocked
  /-- HOLD_LIMIT_EXPIRY (R95): HOLDOVER to LOST. -/
  | holdLimitExpiry
  /-- HISTORY_RECORD (R105): the mean of RATE over a second joins the history. -/
  | historyRecord
  /-- BUILD_OUT_END (R100): the averaging of a switch ends. -/
  | buildOutEnd
  /-- PHASE_SLEW_DONE (R102): a phase slew completes. -/
  | phaseSlewDone (k : SlewKind)
  /-- PSTEP_GO (R107): GO written to CMP.PSTEP. -/
  | pstepGo (m : Master)
  /-- REALIGN_GO (R108): GO written to CMP.REALIGN. -/
  | realignGo (m : Master)
  /-- BUS_SILENT_SET (R167): a bus has been quiet for HOLD seconds. -/
  | busSilentSet (b : Fin 256)
  /-- SILENCE_SLEEP (R168): a group's hold count reaches its hold length. -/
  | silenceSleep (g : Fin 32)
  /-- CORE_RELEASE (R199): clock RESERVE of the cycle in cluster c. -/
  | coreRelease (c : Fin 4)
  /-- CORE_BUDGET_EXPIRY (R199): CYC of a core that is not waiting reaches B. -/
  | coreBudgetExpiry (k : Fin 32)
  /-- WAIT_CYCLE_DRAIN_END (R199): the drain after WAIT_CYCLE completes. -/
  | waitCycleDrainEnd (k : Fin 32)
  /-- BARRIER_RELEASE (R221): every barrier member has issued SYNC. -/
  | barrierRelease (c : Fin 4)
  /-- BUS_LOAD_RETURN (R193): the data of a bus load returns after `clocks` clocks of stall. -/
  | busLoadReturn (k : Fin 33) (clocks : Nat)
  /-- REPEAT_LEVEL_END (R194): the innermost level, its LC at 0, closes. -/
  | repeatLevelEnd (k : Fin 33)
  /-- INTERRUPT_ENTRY (R209): the supervisor takes the takeable line, `clocks` clocks later (at most 24). -/
  | interruptEntry (clocks : Nat)
  /-- NOP (R189). -/
  | nop (is : Issue)
  /-- JMP (R189). -/
  | jmp (is : Issue) (t : JmpTarget)
  /-- CALL (R189). -/
  | call (is : Issue) (t : BitVec 16)
  /-- RET (R189). -/
  | ret (is : Issue)
  /-- REP (R194). -/
  | rep (is : Issue) (n : RepCount) (stop : BitVec 16)
  /-- BREAK (R196). -/
  | breakC (is : Issue)
  /-- WAIT_CYCLE (R199). -/
  | waitCycle (is : Issue)
  /-- SYNC (R221). -/
  | sync (is : Issue)
  /-- CMAC (R190). -/
  | cmac (is : Issue) (p : Reg8) (x y : VReg) (mode : MulMode) (cj : Bool)
  /-- CMSUB (R190). -/
  | cmsub (is : Issue) (p : Reg8) (x y : VReg) (mode : MulMode) (cj : Bool)
  /-- CMUL (R190). -/
  | cmul (is : Issue) (p : Reg8) (x y : VReg) (mode : MulMode) (cj : Bool)
  /-- MAC (R190). -/
  | mac (is : Issue) (n : Reg8) (a b : VReg) (mode : MulMode)
  /-- MSUB (R190). -/
  | msub (is : Issue) (n : Reg8) (a b : VReg) (mode : MulMode)
  /-- MUL (R190). -/
  | mul (is : Issue) (n : Reg8) (a b : VReg) (mode : MulMode)
  /-- MAC2 (R190). -/
  | mac2 (is : Issue) (p : Reg8) (x y : VReg) (mode : MulMode)
  /-- ACLR (R190). -/
  | aclr (is : Issue) (pair : Bool) (n : Reg8)
  /-- RND (R187). -/
  | rnd (is : Issue) (pair : Bool) (d : VReg) (n : Reg8) (sh : Fin 64)
  /-- SAT (R187). -/
  | satX (is : Issue) (pair : Bool) (d : VReg) (n : Reg8) (sh : Fin 64)
  /-- ADD (R191). -/
  | add (is : Issue) (d a b : VReg)
  /-- SUB (R191). -/
  | sub (is : Issue) (d a b : VReg)
  /-- ADDS (R191). -/
  | adds (is : Issue) (d a b : VReg)
  /-- SUBS (R191). -/
  | subs (is : Issue) (d a b : VReg)
  /-- NEG (R191). -/
  | neg (is : Issue) (d a : VReg)
  /-- ABS (R191). -/
  | abs (is : Issue) (d a : VReg)
  /-- AND (R191). -/
  | andV (is : Issue) (d a b : VReg)
  /-- OR (R191). -/
  | orV (is : Issue) (d a b : VReg)
  /-- XOR (R191). -/
  | xorV (is : Issue) (d a b : VReg)
  /-- NOT (R191). -/
  | notV (is : Issue) (d a : VReg)
  /-- SHL (R191). -/
  | shl (is : Issue) (d a : VReg) (n : ShAmt)
  /-- SHR (R191). -/
  | shr (is : Issue) (d a : VReg) (n : ShAmt)
  /-- SHRA (R191). -/
  | shra (is : Issue) (d a : VReg) (n : ShAmt)
  /-- MIN (R191). -/
  | minV (is : Issue) (d a b : VReg)
  /-- MAX (R191). -/
  | maxV (is : Issue) (d a b : VReg)
  /-- CLZ (R191). -/
  | clz (is : Issue) (d a : VReg)
  /-- MOV (R191). -/
  | mov (is : Issue) (d a : VReg)
  /-- MOVI (R191). -/
  | movi (is : Issue) (d : VReg) (imm : BitVec 20)
  /-- MOVH (R191). -/
  | movh (is : Issue) (d : VReg) (imm : BitVec 16)
  /-- CMP (R191). -/
  | cmp (is : Issue) (cc : Cc) (p : Fin 4) (a b : VReg)
  /-- SEL (R191). -/
  | sel (is : Issue) (d a b : VReg) (p : Fin 4)
  /-- MRD (R191). -/
  | mrd (is : Issue) (d : VReg) (src : MrdSrc)
  /-- MWR (R191). -/
  | mwr (is : Issue) (a : VReg)
  /-- AADD (R192): by an immediate or, with `byM`, by a modifier. -/
  | aadd (is : Issue) (n : Reg8) (byM : Option Reg8) (imm : BitVec 16)
  /-- AMOD (R192). -/
  | amod (is : Issue) (n : Reg8) (j : Reg8) (rev : Bool)
  /-- AMOV (R192). -/
  | amov (is : Issue) (f : AFile) (n : Reg8) (v : VReg)
  /-- AMOVI (R192). -/
  | amovi (is : Issue) (f : AFile) (n : Reg8) (imm : BitVec 20)
  /-- LD_W (R193). -/
  | ldW (is : Issue) (slot : MemSlot) (d : VReg) (ea : Ea)
  /-- LD_D (R193). -/
  | ldD (is : Issue) (slot : MemSlot) (d : VReg) (ea : Ea)
  /-- ST_W (R193). -/
  | stW (is : Issue) (slot : MemSlot) (v : VReg) (ea : Ea)
  /-- ST_D (R193). -/
  | stD (is : Issue) (slot : MemSlot) (v : VReg) (ea : Ea)
  /-- MOVS (R207). -/
  | movs (is : Issue) (mv : SysMove)
  /-- IRET (R209). -/
  | iret (is : Issue)
  /-- USER (R206). -/
  | user (is : Issue)
  /-- WFI (R206). -/
  | wfi (is : Issue)
  /-- TRAP (R206). -/
  | trap (is : Issue) (n : Fin 16)
  /-- SEM_ACQUIRE (R219): a read of CL.SEM[s] of cluster c. -/
  | semAcquire (m : Master) (c : Fin 4) (sem : Fin 32)
  /-- SEM_RELEASE (R219): a write of CL.SEM[s]. -/
  | semRelease (m : Master) (c : Fin 4) (sem : Fin 32) (val : Word)
  /-- MBX_PUSH (R220): a write of MBX[b].DATA. -/
  | mbxPush (m : Master) (c : Fin 4) (b : Fin 9) (val : Word)
  /-- MBX_POP (R220): a read of MBX[b].DATA. -/
  | mbxPop (m : Master) (c : Fin 4) (b : Fin 9)
  /-- PSNAP_DONE (R223): the snapshot engine of cluster c finishes, after `stalls` copy-before-write stall clocks. -/
  | psnapDone (c : Fin 4) (stalls : Nat)
  /-- TRIP (R245): a short or bridge fault on channel n, its pulse `lenNs` long. -/
  | trip (n : Fin 32) (src : TripSrc) (lenNs : Nat)
  /-- DIAG_COMPLETE (R242): 60 ms of diagnostics of channel n end. -/
  | diagComplete (n : Fin 32) (d : DiagIn)
  /-- SHORT_HOLD_EXPIRY (R246): channel n has been held 100 ms. -/
  | shortHoldExpiry (n : Fin 32)
  /-- RETEST_COMPLETE (R243): the 20 ms retest of channel n ends. -/
  | retestComplete (n : Fin 32) (d : DiagIn)
  /-- SOFTSTART_COMPLETE (R240): W cycles of soft start of channel n are over. -/
  | softstartComplete (n : Fin 32)
  /-- RECOVER_COMPLETE (R238): W and 50 ms of RECOVER of channel n are over. -/
  | recoverComplete (n : Fin 32)
  /-- SOFT_STOP_END (R240): the common duty of channel n has reached 0. -/
  | softStopEnd (n : Fin 32)
  /-- STOPPING_COMPLETE (R238): W cycles of STOPPING of channel n are over. -/
  | stoppingComplete (n : Fin 32)
  /-- RETRY_REFILL (R238): channel n has been LIVE for 10 s without a trip. -/
  | retryRefill (n : Fin 32)
  /-- DC_DETECT (R248): the digital or the sensed detector of channel n completes its hold. -/
  | dcDetect (n : Fin 32) (sensed : Bool)
  /-- TH_RVC_MEASURE (R249): the pilot of channel n gives RVC in mΩ. -/
  | thRvcMeasure (n : Fin 32) (rvc : Nat)
  /-- TDM_STOP (R267): the first frame start at least 2 bit clocks after the copy of RUN = 0. -/
  | tdmStop (p : SerialOut)
  /-- MASK_APPLY (R269): a committed slot mask applies at its frame start. -/
  | maskApply (n : Fin 8)
  /-- TDM_FRAME (R263): a leading port runs its next frame; `din` are the slot words received in it. -/
  | tdmFrame (n : Fin 8) (din : List Word)
  /-- TDM_FRAME_RECEIVED (R270): a follower receives a frame of `bits` bit clocks. -/
  | tdmFrameReceived (n : Fin 8) (bits : Nat) (din : List Word)
  /-- TDM_INTERNAL_FRAME (R270): an internal frame start of a follower or receiver. -/
  | tdmInternalFrame (p : SerialIn)
  /-- TDM_CLOCK_LOST (R274). -/
  | tdmClockLost (n : Fin 8)
  /-- TDM_CLOCK_REGAINED (R274). -/
  | tdmClockRegained (n : Fin 8)
  /-- AES_RX_FRAME (R277). -/
  | aesRxFrame (r : Fin 4) (f : AesFrame)
  /-- AES_RATE_MEASURE (R280): `frames` were received in the second, interpolated and rounded. -/
  | aesRateMeasure (r : Fin 4) (frames : Nat)
  /-- AES_TX_FRAME (R281). -/
  | aesTxFrame (t : Fin 4)
  /-- LINK_UP (R286): port p finishes its bring-up, with the measured phases in ps, the polarity found and the partner's
  PAUSE abilities. -/
  | linkUp (p : Fin 4) (phaseTx phaseRx : Int) (rxInv : Bool) (anPause : Fin 4)
  /-- LINK_DOWN (R288). -/
  | linkDown (p : Fin 4)
  /-- RX_FRAME (R295): port p receives a frame, given from the DA to the end of its payload, with a good or bad FCS. -/
  | rxFrame (p : Fin 4) (bytes : List Byte) (fcsOk : Bool)
  /-- DUPLICATE_STATE_TIMEOUT (R301). -/
  | duplicateStateTimeout (flow : BitVec 20)
  /-- TX_FRAME_START (R74): a queued frame of port p starts. -/
  | txFrameStart (p : Fin 4)
  /-- PAUSE_EXPIRY (R302). -/
  | pauseExpiry (p : Fin 4)
  /-- PAUSE_REPEAT (R303). -/
  | pauseRepeat (p : Fin 4)
  /-- PAUSE_WD_TRIP (R304). -/
  | pauseWdTrip (p : Fin 4)
  /-- HOLDOFF_END (R304). -/
  | holdoffEnd (p : Fin 4)
  /-- TX_DESCRIPTOR (R305): port p, or with 4 the service bus, takes its next descriptor. -/
  | txDescriptor (p : Fin 5)
  /-- TX_DESCRIPTOR_COMPLETE (R305). -/
  | txDescriptorComplete (p : Fin 5)
  /-- HELLO_RECEIVED (R320): a hello frame arrives at port p. -/
  | helloReceived (p : Fin 4) (bytes : List Byte)
  /-- ADJACENCY_DEAD (R320). -/
  | adjacencyDead (p : Fin 4)
  /-- FLOOD_ARM (R341): a write of ADJ[p].FLOOD_LEN. -/
  | floodArm (m : Master) (p : Fin 4) (len : Word)
  /-- RECORD_REFRESH (R323). -/
  | recordRefresh
  /-- RECORD_MAXAGE (R323): the record of this type and key reaches MAXAGE. -/
  | recordMaxage (typ : Fin 3) (key : BitVec 64)
  /-- BIND_HOLD_EXPIRY (R326). -/
  | bindHoldExpiry (key : BitVec 64)
  /-- RESERVE (R332): received at port p. -/
  | reserve (p : Fin 4) (m : RsvMsg)
  /-- CONFIRM (R333). -/
  | confirm (p : Fin 4) (m : RsvMsg)
  /-- REFUSE (R333). -/
  | refuse (p : Fin 4) (m : RsvMsg)
  /-- RELEASE (R335). -/
  | release (p : Fin 4) (m : RsvMsg)
  /-- BROKEN (R337). -/
  | broken (p : Fin 4) (m : RsvMsg)
  /-- RSV_HOLD_EXPIRY (R334). -/
  | rsvHoldExpiry (tag : BitVec 32)
  /-- FLOW_IDLE_EXPIRY (R335): entry x has been idle for FLOW_IDLE. -/
  | flowIdleExpiry (x : Fin 4096)
  /-- MOVE_OVERLAP_EXPIRY (R338). -/
  | moveOverlapExpiry (flow : BitVec 20)
  /-- RETRY_EXPIRY (R336). -/
  | retryExpiry (flow : BitVec 20)
  /-- LEASE_RENEW (R353): RENEW is received. -/
  | leaseRenew (m : LeaseMsg)
  /-- LEASE_ACK (R353). -/
  | leaseAck (m : LeaseMsg)
  /-- LEASE_RELINQUISH (R357). -/
  | leaseRelinquish (m : LeaseMsg)
  /-- LEASE_HANDOVER (R364). -/
  | leaseHandover (m : LeaseMsg)
  /-- HANDOVER_ACK (R364). -/
  | handoverAck (m : LeaseMsg)
  /-- LEASE_CLAIMED (R354). -/
  | leaseClaimed (m : LeaseMsg)
  /-- LEASE_EXPIRY (R353): D_w passes. -/
  | leaseExpiry
  /-- CLAIM (R354). -/
  | claim
  /-- FORMING_TIMEOUT (R345). -/
  | formingTimeout
  /-- OVERLAP (R356): LEASE_OWN and PEER_OWN have both been high for longer than SEL_GAP. -/
  | overlap
  /-- PEER_OWN_CHANGE (R354): the level read on PEER_OWN changes. -/
  | peerOwnChange (level : Bool)
  /-- PEER_OWN_STUCK (R359). -/
  | peerOwnStuck
  /-- DIGEST (R350): the partner's digest of egress cycle `cyc`. -/
  | digest (cyc : BitVec 48) (dig : BitVec 64) (nsamp : Word)
  /-- MIRROR (R348): the partner's record of capture cycle `cyc`. -/
  | mirror (cyc : BitVec 48) (entries : List MirrorEntry)
  /-- SENSE (R349): the windward's sense samples of cycle `cyc`. -/
  | sense (cyc : BitVec 48) (rows : List SenseIn)
  /-- TRIP_RECORD (R349): the channels tripped on the windward in cycle `cyc`. -/
  | tripRecord (cyc : BitVec 48) (mask : Word)
  /-- FORM (R344). -/
  | form (tag : BitVec 16) (role : Fin 4) (own side : Bool)
  /-- RESYNC_REQ (R360). -/
  | resyncReq
  /-- RESYNC_GO (R360): the snapshot boundary is `cyc`. -/
  | resyncGo (cyc : BitVec 48)
  /-- RESYNC_DONE (R360): byte count and CRC-64 of the transfer, and the block state it holds. -/
  | resyncDone (count : Word) (crc : BitVec 64) (blk : BlockSnap)
  /-- XFER_SENT (R360). -/
  | xferSent
  /-- RESTORE_COMPLETE (R362). -/
  | restoreComplete
  /-- RESYNC_RETRY (R363). -/
  | resyncRetry
  /-- ALARM_WINDOW_OPEN (R371). -/
  | alarmWindowOpen
  /-- ALARM_WINDOW_CLOSE (R372). -/
  | alarmWindowClose
  /-- SVB_TX_START (R372): the bus is idle. -/
  | svbTxStart
  /-- SVB_COLLISION (R369). -/
  | svbCollision
  /-- SVB_BACKOFF_EXPIRY (R369). -/
  | svbBackoffExpiry
  /-- SVB_RX_FRAME (R375): a frame is received, its pair reversed or not. -/
  | svbRxFrame (bytes : List Byte) (fcsOk reversed : Bool)
  /-- PLCA_TX_OPPORTUNITY (R370). -/
  | plcaTxOpportunity
  /-- BEACON_LOST (R370): four PLCA cycles without a beacon. -/
  | beaconLost
  /-- READ (R387). -/
  | read (f : HostFrame)
  /-- WRITE (R387). -/
  | write (f : HostFrame)
  /-- READ_STATUS (R384). -/
  | readStatus (f : HostFrame)
  /-- ENUMERATE (R388). -/
  | enumerate (f : HostFrame)
  /-- WHO_CALLS (R390). -/
  | whoCalls (f : HostFrame)
  /-- BOOT_STREAM (R391). -/
  | bootStream (f : HostFrame)
  /-- HOST_EXEC_DONE (R385): execution took `us` microseconds of busy. -/
  | hostExecDone (us : Nat)
  /-- TRANSACTION_ABORT (R386). -/
  | transactionAbort
  /-- FORGET (R388): a write of HOST.ENUM.FORGET. -/
  | forget (m : Master)
  /-- ATN_SET_SUP (R389). -/
  | atnSetSup (m : Master)
  /-- MSG_OUT (R389). -/
  | msgOut (m : Master) (val : Word)
  /-- MSG_IN (R394). -/
  | msgIn (m : Master) (val : Word)
  /-- GUST_ADMIT (R404). -/
  | gustAdmit
  /-- DOMAIN_UP (R399): domain d reaches its first clock. -/
  | domainUp (d : Fin 15)
  /-- DOMAIN_DOWN (R402): a lowering of domain d completes. -/
  | domainDown (d : Fin 15)
  /-- DROOP (R406): VSYS is read, in mV. -/
  | droop (vsys : BitVec 16)
  /-- DROOP_RECOVERY (R406): VSYS has been back for 100 µs. -/
  | droopRecovery (vsys : BitVec 16)
  /-- LISTEN (R407): a write of PWR.SLEEP.LISTEN. -/
  | listen (m : Master)
  /-- STANDBY (R407): a write of PWR.SLEEP.STANDBY. -/
  | standby (m : Master)
  /-- WAKE_FRAME (R408). -/
  | wakeFrame (p : Fin 4) (bytes : List Byte) (fcsOk : Bool)
  /-- WAKE_HCS_N (R393, R408). -/
  | wakeHcsN
  /-- WAKE_SYNC_START (R408). -/
  | wakeSyncStart
  /-- SLEEP_ALARM (R409). -/
  | sleepAlarm
  /-- THERMAL_SAMPLE (R411): the highest sensor reads `temp` tenths of a degree. -/
  | thermalSample (temp : BitVec 16)
  /-- THROTTLE_STEP (R411). -/
  | throttleStep
  /-- THERMAL_FATAL (R411). -/
  | thermalFatal
  /-- POWER_ON_RESET (R414): `logLost` when VSYS has been below 1.8 V (R451). -/
  | powerOnReset (logLost : Bool)
  /-- RESET_N_LOW (R414). -/
  | resetNLow
  /-- BROWNOUT (R395). -/
  | brownout
  /-- VCORE_UNDERVOLTAGE (R396). -/
  | vcoreUndervoltage
  /-- WARM_RESET (R414): a write of SYS.RESET.WARM. -/
  | warmReset (m : Master)
  /-- JTAG_WARM_RESET (R414). -/
  | jtagWarmReset
  /-- RESET_RELEASE (R395, R426): VSYS averages `vsys` mV; the boot ROM runs for `us` microseconds over the flash. -/
  | resetRelease (vsys : BitVec 16) (us : Nat) (flash : FlashIn)
  /-- BOOT_DOMAINS_ON (R429). -/
  | bootDomainsOn
  /-- RB_BURN (R438). -/
  | rbBurn (m : Master)
  /-- OTP_PGM_GO (R437). -/
  | otpPgmGo (m : Master)
  /-- FGO_SEND (R440). -/
  | fgoSend (m : Master)
  /-- FGO_READ (R440). -/
  | fgoRead (m : Master)
  /-- RAISE (R449): a write of FLT.RAISE. -/
  | raiseFault (m : Master) (val : Word)
  /-- FLT_ACK (R446). -/
  | fltAck (m : Master)
  /-- WATCHDOG_EXPIRY (R450). -/
  | watchdogExpiry
  /-- WDOG_KICK (R450). -/
  | wdogKick (m : Master)
  /-- FLOG_CLR (R451). -/
  | flogClr (m : Master)
  /-- FUNCTION_RESET (R456): a write of SYS.FRST0 to FRST2. -/
  | functionReset (m : Master) (reg : Fin 3) (val : Word)
  /-- FUNCTION_RESET_DRAIN_END (R457): the drain and step 3 of a function end (R460 numbers the functions here 0-31
  for FRST0, 32-63 for FRST1, 64-74 for FRST2). -/
  | functionResetDrainEnd (fn : Fin 75)
  /-- FREEZE (R477). -/
  | freeze (m : Master)
  /-- THAW (R477). -/
  | thaw (m : Master)
  /-- SNAP (R477). -/
  | snap (m : Master)
  /-- SURVEY_CLEAR (R477). -/
  | surveyClear (m : Master)
  /-- SNAP_COMPLETE (R479). -/
  | snapComplete
  /-- SNAP_COPY_DONE (R479). -/
  | snapCopyDone
  /-- SAMPLE_RECORD (R475): the oldest sampled packet of core k whose last result has landed writes its record. -/
  | sampleRecord (k : Fin 32)
  /-- SMP_CLR (R476). -/
  | smpClr (m : Master) (mask : Word)
  /-- SMP_SEED (R474). -/
  | smpSeed (m : Master) (val : Word)
  /-- REFERENCE_INPUT_EDGE (R87): an edge of an input that candidate `slot` measures. -/
  | referenceInputEdge (slot : Fin 8) (pin : RefInput)
  /-- TRANSACTION_START (R385). -/
  | transactionStart
  /-- TRANSACTION_END (R385). -/
  | transactionEnd
  /-- ENUM_IN_CHANGE (R388). -/
  | enumInChange (level : Bool)
  /-- BEACON_RECEIVED (R370). -/
  | beaconReceived
  /-- FLASH_COMMAND_DONE (R440): the command ends; `data` are the bytes a read returned, `cells` what the device holds
  anew. -/
  | flashCommandDone (data : List Byte) (cells : List (Nat × List Byte))
  /-- POSTED_WRITE_COMPLETE (R193). -/
  | postedWriteComplete (k : Fin 33)
  deriving DecidableEq, Repr

end Sys2Proof
end

