-- ==== Sys2Proof/Config.lean ====
section
/-! DEFINITION. What the spec leaves open: the sites of open values, and the one opaque free value. -/

namespace Sys2Proof

/-- A place of the spec at which a value results that the spec does not state (log entries 8 to 24). -/
inductive Site where
  | rateTie        -- R58: which way an exact half rounds when the rate changes
  | roundTie       -- R85 to R104, R137: roundings of measurements and gains that the spec does not state
  | loopRate       -- R94, R98: the loop correction inside the stated bandwidth
  | halfBand       -- R124: output of a rate-converting half-band filter
  | interp         -- R157: an interpolated sample at an exact half or outside the A32 range
  | edge           -- R233: a gate edge of the modulator's shaper
  | outModel       -- R249 to R251: steps of the thermal, excursion and adaptation models of an output
  | pilot          -- R249: the pilot tone added to a sample
  | romByte        -- R30: contents of the boot ROM
  | backoff        -- R369: the random back-off draw
  | prng           -- R474: a draw of a core's LFSR
  | ringByte       -- R119: bytes of a running alignment ring read over the bus
  | slipFill       -- R131, R348: the sample at the position that a slip vacates
  | emptyFrame     -- R270: what a follower port sends when its buffer is empty
  | forwardSet     -- R310: the ports a best-effort or PTP frame leaves by
  | linkDa         -- R292: the DA of an Eorel frame of kinds 1 to 5
  | upset          -- R52: what a word that fails parity holds
  deriving DecidableEq, Repr

/-- A free value: nothing in Lean evaluates it. `n` is the state's draw counter. -/
opaque Config.freeNat : Site → Nat → Nat

end Sys2Proof
end

