-- ==== Sys2Proof/Machine/Bits.lean ====
section
/-! DEFINITION. Bit fields of a word, two's complement, and saturating counters. -/

namespace Sys2Proof.Machine

/-- Bits `lo` to `lo + n - 1` of a number. -/
def nfld (w lo n : Nat) : Nat := (w >>> lo) % 2 ^ n

/-- Bits `lo` to `lo + n - 1` of a register word. -/
def fld (w : Word) (lo n : Nat) : Nat := nfld w.toNat lo n

/-- Bit `i` of a number. -/
def nbit (w i : Nat) : Bool := (w >>> i) % 2 == 1

/-- Bit `i` of a register word. -/
def bit (w : Word) (i : Nat) : Bool := nbit w.toNat i

/-- A register word of a number, its upper bits dropped. -/
def wd (n : Nat) : Word := BitVec.ofNat 32 n

/-- A flag as a number. -/
def b2n (b : Bool) : Nat := if b then 1 else 0

/-- A flag placed at bit `i`. -/
def bitAt (i : Nat) (b : Bool) : Nat := b2n b <<< i

/-- The n-bit two's-complement value of a number. -/
def sgn (n v : Nat) : Int :=
  let m := v % 2 ^ n
  if m < 2 ^ (n - 1) then (m : Int) else (m : Int) - (2 ^ n : Nat)

/-- The low n bits of an integer. -/
def unsgn (n : Nat) (v : Int) : Nat := (v % ((2 ^ n : Nat) : Int)).toNat

/-- Clamp an integer to `[lo, hi]`. -/
def clampI (lo hi v : Int) : Int := if v < lo then lo else if hi < v then hi else v

/-- Saturate an integer to an n-bit signed range. -/
def satI (n : Nat) (v : Int) : Int := clampI (-(2 ^ (n - 1) : Nat)) ((2 ^ (n - 1) : Nat) - 1) v

/-- Round an integer quotient to nearest, an exact half away toward plus infinity. -/
def roundDiv (a : Int) (d : Nat) : Int := (2 * a + d) / (2 * d)

/-- Is `a / d` an exact half? -/
def isHalf (a : Int) (d : Nat) : Bool := (2 * a) % (2 * (d : Int)) == (d : Int)

/-- The quotient rounded up. -/
def ceilDiv (a d : Nat) : Nat := (a + d - 1) / d

/-- Bits of `m` taken from `b`, the others from `a`. -/
def mergeW (a b m : Word) : Word := (a &&& ~~~m) ||| (b &&& m)

/-- A saturating count (R36). -/
def satInc (top v : Nat) : Nat := if v < top then v + 1 else top

/-- Number of 1 bits among the low `n` bits. -/
def popCount : Nat → Nat → Nat
  | 0, _ => 0
  | n + 1, w => w % 2 + popCount n (w / 2)

/-- The indexes of the 1 bits among the low `n` bits, rising from `i`. -/
def bitList : Nat → Nat → Nat → List Nat
  | 0, _, _ => []
  | n + 1, i, w => if w % 2 == 1 then i :: bitList n (i + 1) (w / 2) else bitList n (i + 1) (w / 2)

/-- The 1 bits of a number below bit `n`. -/
def bitsOf (n w : Nat) : List Nat := bitList n 0 w

/-- A mask of the listed bits. -/
def maskOf (l : List Nat) : Nat := l.foldl (fun a i => a ||| (1 <<< i)) 0

/-- Little-endian number of a byte list. -/
def leNat : List Byte → Nat
  | [] => 0
  | b :: t => b.toNat + 256 * leNat t

/-- Big-endian number of a byte list. -/
def beNat (l : List Byte) : Nat := l.foldl (fun a b => a * 256 + b.toNat) 0

/-- `n` little-endian bytes of a number. -/
def leBytes : Nat → Nat → List Byte
  | 0, _ => []
  | n + 1, v => BitVec.ofNat 8 v :: leBytes n (v / 256)

/-- `n` big-endian bytes of a number. -/
def beBytes (n v : Nat) : List Byte := (leBytes n v).reverse

/-- Replace element `i` of a list. -/
def setAt {α : Type} : List α → Nat → α → List α
  | [], _, _ => []
  | _ :: t, 0, v => v :: t
  | a :: t, n + 1, v => a :: setAt t n v

/-- Element `i` of a list, or a default. -/
def getAt {α : Type} (d : α) : List α → Nat → α
  | [], _ => d
  | a :: _, 0 => a
  | _ :: t, n + 1 => getAt d t n

/-- Add to a list kept without repeats. -/
def addTo {α : Type} [DecidableEq α] (a : α) (l : List α) : List α := if l.contains a then l else l ++ [a]

/-- Remove from a list. -/
def dropFrom {α : Type} [DecidableEq α] (a : α) (l : List α) : List α := l.filter (fun x => decide (x ≠ a))

end Sys2Proof.Machine
end

