-- ==== Sys2Proof/Machine/Maps.lean ====
section
/-! DEFINITION. Sparse tables in one canonical form: keys strictly rising, no entry equal to
what an unlisted key reads as. Memory, register copies and the per-unit tables all use it. -/

namespace Sys2Proof.Machine

/-- A sparse table. -/
abbrev Tab (α : Type) := List (Nat × α)

/-- Read a key; an unlisted key reads as `d k`. -/
def tabGet {α : Type} (d : Nat → α) : Tab α → Nat → α
  | [], k => d k
  | (a, v) :: t, k => if k = a then v else if k < a then d k else tabGet d t k

/-- Write a key, keeping the canonical form. -/
def tabSet {α : Type} [DecidableEq α] (d : Nat → α) : Tab α → Nat → α → Tab α
  | [], k, v => if v = d k then [] else [(k, v)]
  | (a, w) :: t, k, v =>
    if k < a then (if v = d k then (a, w) :: t else (k, v) :: (a, w) :: t)
    else if k = a then (if v = d k then t else (a, v) :: t)
    else (a, w) :: tabSet d t k v

/-- The canonical form above a lower bound of the keys. -/
def tabWfFrom {α : Type} [DecidableEq α] (d : Nat → α) : Nat → Tab α → Bool
  | _, [] => true
  | lo, (a, v) :: t => decide (lo ≤ a) && decide (v ≠ d a) && tabWfFrom d (a + 1) t

/-- The canonical form. -/
def tabWf {α : Type} [DecidableEq α] (d : Nat → α) (m : Tab α) : Bool := tabWfFrom d 0 m

/-- Read a table whose unlisted keys all read the same. -/
def tget {α : Type} (d : α) (m : Tab α) (k : Nat) : α := tabGet (fun _ => d) m k

/-- Write a table whose unlisted keys all read the same. -/
def tset {α : Type} [DecidableEq α] (d : α) (m : Tab α) (k : Nat) (v : α) : Tab α := tabSet (fun _ => d) m k v

/-- Keep the entries whose key passes. -/
def tkeep {α : Type} (p : Nat → Bool) (m : Tab α) : Tab α := m.filter (fun e => p e.1)

end Sys2Proof.Machine
end

