-- ==== Sys2Proof/Machine/Regs.lean ====
section
/-! DEFINITION. The register tables of every window (R30 to R35): for each word that software can write or
clear, its offset, access code, reset value, writable bits, STOP bits and clear-on-read bits.
Words that are only read-only or only strobes need no row: `regView` answers the first, `strobe` takes the second. -/

namespace Sys2Proof.Machine

/-- The access codes that leave something to store (R9, R35). -/
inductive Acc where
  | rw | ri | rc | rk | w1 | rh
  deriving DecidableEq, Repr

/-- One row of a register table. -/
structure RegRow where
  off    : Nat
  acc    : Acc
  reset  : Nat := 0
  wmask  : Nat := 0xFFFFFFFF   -- bits a write reaches (R11)
  stop   : Nat := 0            -- bits of apply class STOP (R10)
  rc     : Nat := 0            -- bits a read clears
  stride : Nat := 4
  count  : Nat := 1
  stride2 : Nat := 4
  count2 : Nat := 1
  deriving DecidableEq, Repr

/-- Does the row hold window offset `o`? -/
def RegRow.covers (r : RegRow) (o : Nat) : Bool :=
  r.off ≤ o &&
    (let d := o - r.off
     if r.count2 = 1 then d % r.stride == 0 && d / r.stride < r.count
     else d / r.stride < r.count && (d % r.stride) % r.stride2 == 0 && (d % r.stride) / r.stride2 < r.count2)

/-- SYS (R43 to R46, R456). -/
def regsSys : List RegRow := [
  { off := 0x18, acc := .ri }, { off := 0x1C, acc := .ri },
  { off := 0x24, acc := .rc, rc := 0xFFFFFFFF }, { off := 0x28, acc := .rc, rc := 0xFFFFFFFF },
  { off := 0x2C, acc := .rc, rc := 0xF },
  { off := 0x40, acc := .rk, wmask := 0x1F, rc := 0x20000000, count := 33 },
  { off := 0x11C, acc := .ri, wmask := 1 } ]

/-- FLT (R443 to R450). -/
def regsFlt : List RegRow := [
  { off := 0x04, acc := .rc, rc := 7 }, { off := 0x08, acc := .ri, wmask := 7 },
  { off := 0x10, acc := .rc, rc := 0xFFFFFFFF },
  { off := 0x30, acc := .ri, wmask := 0xFFFF03FF }, { off := 0x34, acc := .ri },
  { off := 0x40, acc := .w1, wmask := 0xFFFF } ]

/-- TIME (R57, R76 to R81). -/
def regsTime : List RegRow := [
  { off := 0x100, acc := .ri, wmask := 0x133, stride := 0x40, count := 4 },
  { off := 0x104, acc := .ri, stride := 0x40, count := 4 },
  { off := 0x108, acc := .ri, stride := 0x40, count := 4 },
  { off := 0x10C, acc := .ri, stride := 0x40, count := 4 },
  { off := 0x110, acc := .ri, stride := 0x40, count := 4 },
  { off := 0x114, acc := .ri, stride := 0x40, count := 4 },
  { off := 0x118, acc := .rw, stride := 0x40, count := 4 },
  { off := 0x11C, acc := .rc, rc := 0x1E, stride := 0x40, count := 4 },
  { off := 0x200, acc := .ri, reset := 0x100, wmask := 0x10F01 },
  { off := 0x204, acc := .ri, reset := 0x989680 }, { off := 0x208, acc := .rw },
  { off := 0x20C, acc := .rc, rc := 0x12 },
  { off := 0x300, acc := .ri, reset := 2, wmask := 0x17, stride := 0x20, count := 4 },
  { off := 0x314, acc := .rc, rc := 0xFFFF, stride := 0x20, count := 4 } ]

/-- GRAT (R68, R72, R82). -/
def regsGrat : List RegRow := [
  { off := 0x00, acc := .rk, reset := 0x200, wmask := 0x301 },
  { off := 0x20, acc := .rw, reset := 0x100, wmask := 0x3F01 },
  { off := 0x24, acc := .rc, rc := 7 },
  { off := 0x30, acc := .ri }, { off := 0x34, acc := .ri },
  { off := 0x38, acc := .ri, wmask := 0xF0FFF },
  { off := 0x3C, acc := .ri, reset := 0x10400, wmask := 0x3FFF01 },
  { off := 0x44, acc := .rc, rc := 0x1E }, { off := 0x50, acc := .rc, rc := 0xFFFFFFFF } ]

/-- BMX (R463 to R468). -/
def regsBmx : List RegRow := [
  { off := 0x00, acc := .rk, wmask := 3 }, { off := 0x04, acc := .rk, wmask := 0x7FFF },
  { off := 0x10, acc := .ri, reset := 8, wmask := 0xF },
  { off := 0x14, acc := .ri, reset := 12, wmask := 0xF, count := 4 },
  { off := 0x24, acc := .ri, reset := 6, wmask := 0xF, count := 4 },
  { off := 0x34, acc := .ri, reset := 10, wmask := 0xF }, { off := 0x38, acc := .ri, reset := 7, wmask := 0xF },
  { off := 0x3C, acc := .ri, reset := 4, wmask := 0xF }, { off := 0x40, acc := .ri, reset := 2, wmask := 0xF },
  { off := 0x60, acc := .rc, rc := 0x8000FFFF }, { off := 0x70, acc := .rc, rc := 0x8000FFFF },
  { off := 0x80, acc := .rc, rc := 0x8000FFFF } ]

/-- CMP (R112, R113). -/
def regsCmp : List RegRow := [
  { off := 0x00, acc := .rw, reset := 0x11, wmask := 0x37 }, { off := 0x04, acc := .rh, wmask := 0x17 },
  { off := 0x0C, acc := .rc, rc := 0xFF }, { off := 0x10, acc := .ri, wmask := 0xFF },
  { off := 0x20, acc := .rw, reset := 0xA }, { off := 0x24, acc := .rw, reset := 0x4E20 },
  { off := 0x28, acc := .rw, reset := 0x7D0 }, { off := 0x2C, acc := .rw, reset := 0xA },
  { off := 0x30, acc := .rw, reset := 0x2710 }, { off := 0x34, acc := .rw, reset := 0x32 },
  { off := 0x38, acc := .rw, reset := 0x2710 }, { off := 0x3C, acc := .rw, reset := 0x3C },
  { off := 0x40, acc := .rw, reset := 0x64 }, { off := 0x44, acc := .rw, reset := 0x64 },
  { off := 0x48, acc := .rw, reset := 0x3E8 }, { off := 0x4C, acc := .rw, reset := 0x708 },
  { off := 0x50, acc := .rw, reset := 0x15180 }, { off := 0x54, acc := .rw, reset := 0x3C },
  { off := 0x58, acc := .rw, reset := 0x2710 }, { off := 0x5C, acc := .rw, reset := 0x3E8 },
  { off := 0x60, acc := .rw, reset := 0x18 }, { off := 0x64, acc := .rw, reset := 0x3E8 },
  { off := 0x68, acc := .rw, reset := 0x3E8 },
  { off := 0xC0, acc := .rw, wmask := 3 }, { off := 0xC4, acc := .rw, count := 3 },
  { off := 0xD4, acc := .rc, rc := 0x3C }, { off := 0xE0, acc := .rw, wmask := 3 },
  { off := 0xE8, acc := .rc, rc := 6 }, { off := 0xEC, acc := .rw, count := 2 },
  { off := 0xF4, acc := .rw, wmask := 3 }, { off := 0xF8, acc := .rw },
  { off := 0x200, acc := .rw, wmask := 0x37F0F, stop := 0x37F00, stride := 0x40, count := 8 },
  { off := 0x204, acc := .rw, reset := 0xBB80, stop := 0xFFFFFFFF, stride := 0x40, count := 8 },
  { off := 0x208, acc := .rw, wmask := 0x1FFFF, stride := 0x40, count := 8 },
  { off := 0x20C, acc := .rh, stride := 0x40, count := 8, count2 := 5 },
  { off := 0x230, acc := .rc, rc := 0x1F, stride := 0x40, count := 8 },
  { off := 0x234, acc := .rc, rc := 0xFFFF, stride := 0x40, count := 8 } ]

/-- ING (R132, R133). -/
def regsIng : List RegRow := [
  { off := 0x00, acc := .rk, wmask := 0xFFFF001F }, { off := 0x08, acc := .rc, rc := 0x1F },
  { off := 0x0C, acc := .ri, wmask := 0x1F },
  { off := 0x104, acc := .rw, wmask := 3, count := 63 },
  { off := 0x1000, acc := .rw, reset := 0x02000000, wmask := 0xFF3F0737, stop := 0x7F3F0707, stride := 0x20, count := 512 },
  { off := 0x1004, acc := .rw, wmask := 0x8FFF0FFF, stop := 0x8FFF0FFF, stride := 0x20, count := 512 },
  { off := 0x1008, acc := .rw, reset := 0x00010000, wmask := 0xF87F07FF, stop := 0xF87F07FF, stride := 0x20, count := 512 },
  { off := 0x100C, acc := .rw, reset := 0x00020000, wmask := 0x007F3FFF, stop := 0x007F3FFF, stride := 0x20, count := 512 },
  { off := 0x1010, acc := .rw, stop := 0xFFFFFFFF, stride := 0x20, count := 512 },
  { off := 0x1014, acc := .rw, wmask := 0x13, stop := 0x13, stride := 0x20, count := 512 },
  { off := 0x5000, acc := .rc, rc := 0xFFFFFFFF, count := 1024 } ]

/-- MTX (R137 to R146). -/
def regsMtx : List RegRow := [
  { off := 0x04, acc := .rc, rc := 3 }, { off := 0x10, acc := .rw, reset := 0x30 },
  { off := 0x20, acc := .ri, wmask := 0x7FFFF },
  { off := 0x400, acc := .rc, rc := 0xFFFF, count := 256 },
  { off := 0x800, acc := .rw, reset := 0x00300000, wmask := 0xFFFF0001, count := 256 },
  { off := 0x4000, acc := .rw, wmask := 0xE70087FF, count := 2344 } ]

/-- EQS (R155). -/
def regsEqs : List RegRow := [
  { off := 0x04, acc := .rc, rc := 3 }, { off := 0x08, acc := .ri, wmask := 3 },
  { off := 0x10, acc := .ri, wmask := 0x7FFF }, { off := 0x400, acc := .rc, rc := 0xFFFF, count := 256 },
  { off := 0x1000, acc := .rw, wmask := 0x81FF7FFF, stop := 0x01FF7FFF, stride := 0x10, count := 256 },
  { off := 0x1004, acc := .rw, wmask := 0xE70000FF, stop := 0xE70000FF, stride := 0x10, count := 256 } ]

/-- STR (R164). -/
def regsStr : List RegRow := [
  { off := 0x04, acc := .rc, rc := 3 }, { off := 0x08, acc := .rc, rc := 0xFFFF },
  { off := 0x1000, acc := .rw, reset := 48, wmask := 0xC0FFFFFF, stride := 0x10, count := 256 },
  { off := 0x1004, acc := .rw, wmask := 0xE70000FF, stop := 0xE70000FF, stride := 0x10, count := 256 },
  { off := 0x1008, acc := .rw, wmask := 0x7FFF07FF, stop := 0x7FFF07FF, stride := 0x10, count := 256 } ]

/-- SIL (R167, R168). -/
def regsSil : List RegRow := [
  { off := 0x04, acc := .rc, rc := 7 }, { off := 0x08, acc := .ri, wmask := 7 },
  { off := 0x10, acc := .rw, reset := 0x0060003C, wmask := 0x00FF0FFF },
  { off := 0x100, acc := .rw, reset := 0x0060003C, wmask := 0x80FF0FFF, stride := 0x40, count := 32 },
  { off := 0x104, acc := .rw, wmask := 7, stride := 0x40, count := 32 },
  { off := 0x108, acc := .rw, stride := 0x40, count := 32 },
  { off := 0x10C, acc := .rw, wmask := 0xF, stride := 0x40, count := 32 },
  { off := 0x110, acc := .rw, stride := 0x40, count := 32, count2 := 8 },
  { off := 0x134, acc := .rc, rc := 0xFFFF, stride := 0x40, count := 32 },
  { off := 0x138, acc := .rc, rc := 0xFFFF, stride := 0x40, count := 32 } ]

/-- CL0 to CL3 (R204, R227, R228). SEM and MBX words are kept by the cluster itself. -/
def regsCl : List RegRow := [
  { off := 0x00, acc := .rw, wmask := 0x800100FF, stop := 0xFF }, { off := 0x04, acc := .rw, wmask := 0xFF },
  { off := 0x0C, acc := .rc, rc := 0x7F }, { off := 0x10, acc := .ri, wmask := 0x7F },
  { off := 0x18, acc := .rw, reset := 0x1000, wmask := 0xFFFF, stop := 0xFFFF },
  { off := 0x1C, acc := .rw, reset := 0xFF, wmask := 0xFF, stop := 0xFF },
  { off := 0x20, acc := .rc, rc := 0xFFFF }, { off := 0x28, acc := .rc, rc := 0xFFFFFFFF },
  { off := 0x104, acc := .rc, rc := 0x80000000, stride := 0x10, count := 9 },
  { off := 0x200, acc := .rk, wmask := 0xFFFFFF00, stride := 8, count := 8 },
  { off := 0x204, acc := .rk, wmask := 0x3FFF, stride := 8, count := 8 },
  { off := 0x300, acc := .rw, count := 16 },
  { off := 0x800, acc := .rw, wmask := 0x10FFF, stop := 0x10FFF, stride := 0x40, count := 8 },
  { off := 0x808, acc := .rc, rc := 0x7F, stride := 0x40, count := 8 },
  { off := 0x814, acc := .rc, rc := 0xFFFFFFFF, stride := 0x40, count := 8 },
  { off := 0x81C, acc := .rc, rc := 0xFFFF, stride := 0x40, count := 8 },
  { off := 0x820, acc := .rc, rc := 0xFFFF, stride := 0x40, count := 8 },
  { off := 0x2000, acc := .rw, wmask := 0xC730FFFF, stop := 0xC730FFFF, stride := 0x10, count := 256 },
  { off := 0x2004, acc := .rw, wmask := 0x01FF00FF, stop := 0x01FF00FF, stride := 0x10, count := 256 },
  { off := 0x2008, acc := .rw, stop := 0xFFFFFFFF, stride := 0x10, count := 256 } ]

/-- OUT (R257) with its common registers. -/
def regsOut : List RegRow := [
  { off := 0x000, acc := .rw, reset := 0x40010008, wmask := 0xFD131F3F, stop := 0x01131F3F, stride := 0x400, count := 32 },
  { off := 0x004, acc := .rw, reset := 0x00E003F3, wmask := 0x00FF0FFF, stride := 0x400, count := 32 },
  { off := 0x008, acc := .rw, reset := 0x19000064, stop := 0xFFFFFFFF, stride := 0x400, count := 32 },
  { off := 0x00C, acc := .rw, reset := 0x898, wmask := 0xFFFF, stop := 0xFFFF, stride := 0x400, count := 32 },
  { off := 0x010, acc := .rw, reset := 0x32, wmask := 0x3FF, stride := 0x400, count := 32 },
  { off := 0x014, acc := .rk, wmask := 0xFFFF0001, stride := 0x400, count := 32 },
  { off := 0x018, acc := .rw, wmask := 3, stride := 0x400, count := 32 },
  { off := 0x020, acc := .rc, rc := 0x3F, stride := 0x400, count := 32 },
  { off := 0x024, acc := .ri, wmask := 0x3F, stride := 0x400, count := 32 },
  { off := 0x028, acc := .rc, rc := 0xFFFFFFFF, stride := 0x400, count := 32 },
  { off := 0x040, acc := .rw, reset := 0x1770, wmask := 0xFFFF, stride := 0x400, count := 32 },
  { off := 0x044, acc := .rw, reset := 0xF5A, wmask := 0xFFFF, stride := 0x400, count := 32 },
  { off := 0x048, acc := .rw, reset := 0x640, wmask := 0xFFFF, stride := 0x400, count := 32 },
  { off := 0x04C, acc := .rw, reset := 0xFA, wmask := 0xFFFF, stride := 0x400, count := 32 },
  { off := 0x050, acc := .rh, reset := 0x9C4, wmask := 0xFFFF, stride := 0x400, count := 32 },
  { off := 0x054, acc := .rw, reset := 0x1F40, wmask := 0xFFFF, stride := 0x400, count := 32 },
  { off := 0x058, acc := .rh, reset := 0x5DC, wmask := 0xFFFF, stride := 0x400, count := 32 },
  { off := 0x05C, acc := .rw, reset := 0x384, wmask := 0xFFFF, stride := 0x400, count := 32 },
  { off := 0x060, acc := .rw, reset := 0x07D00064, stride := 0x400, count := 32 },
  { off := 0x080, acc := .rh, reset := 0x157C, wmask := 0xFFFF, stride := 0x400, count := 32 },
  { off := 0x084, acc := .rh, reset := 0x2BC, wmask := 0xFFFF, stride := 0x400, count := 32 },
  { off := 0x088, acc := .rw, reset := 0x1F4, wmask := 0xFFFF, stride := 0x400, count := 32 },
  { off := 0x08C, acc := .rw, reset := 0x1F40, wmask := 0xFFFF, stride := 0x400, count := 32 },
  { off := 0x090, acc := .rw, reset := 0xC8, wmask := 0xFFFF, stride := 0x400, count := 32 },
  { off := 0x09C, acc := .rw, reset := 0x00320010, wmask := 0x00FF001F, stride := 0x400, count := 32 },
  { off := 0x0A0, acc := .rc, rc := 0xF, stride := 0x400, count := 32 },
  { off := 0x304, acc := .rc, rc := 1 }, { off := 0x308, acc := .ri, wmask := 1 },
  { off := 0x30C, acc := .rw, wmask := 1 } ]

/-- SNS (R258). -/
def regsSns : List RegRow := [
  { off := 0x000, acc := .rw, stop := 0xFFFFFFFF },
  { off := 0x100, acc := .rk, stride := 0x20, count := 32 } ]

/-- TDM (R284). -/
def regsTdm : List RegRow := [
  { off := 0x000, acc := .rw, wmask := 0x800001FD, stop := 0x17D, stride := 0x1000, count := 8 },
  { off := 0x004, acc := .rw, reset := 0x80082018, wmask := 0xFFFF3F3F, stop := 0xFFFF3F3F, stride := 0x1000, count := 8 },
  { off := 0x008, acc := .rw, stride := 0x1000, count := 8 }, { off := 0x00C, acc := .rw, stride := 0x1000, count := 8 },
  { off := 0x010, acc := .rw, stride := 0x1000, count := 8 },
  { off := 0x018, acc := .rw, reset := 4, wmask := 7, stride := 0x1000, count := 8 },
  { off := 0x020, acc := .rc, rc := 0xF, stride := 0x1000, count := 8 },
  { off := 0x024, acc := .ri, wmask := 0xF, stride := 0x1000, count := 8 },
  { off := 0x028, acc := .rc, rc := 0xFFFFFFFF, stride := 0x1000, count := 8 } ]

/-- AES: receivers, then transmitters. -/
def regsAes : List RegRow := [
  { off := 0x00, acc := .rw, reset := 1, wmask := 0x80000007, stop := 4, stride := 0x100, count := 4 },
  { off := 0x10, acc := .rc, rc := 0xFF, stride := 0x100, count := 4 },
  { off := 0x14, acc := .ri, wmask := 0xFF, stride := 0x100, count := 4 },
  { off := 0x18, acc := .rc, rc := 0xFFFFFFFF, stride := 0x100, count := 4 },
  { off := 0x24, acc := .rw, reset := 4, wmask := 7, stride := 0x100, count := 4 },
  { off := 0x28, acc := .rc, rc := 0xFFFF, stride := 0x100, count := 4 },
  { off := 0x400, acc := .rw, reset := 4, wmask := 0x8000000E, stride := 0x100, count := 4 },
  { off := 0x404, acc := .rw, stride := 0x100, count := 4 },
  { off := 0x410, acc := .rc, rc := 3, stride := 0x100, count := 4 },
  { off := 0x414, acc := .ri, wmask := 3, stride := 0x100, count := 4 },
  { off := 0x418, acc := .rc, rc := 0xFFFF, stride := 0x100, count := 4 },
  { off := 0x440, acc := .rw, stride := 0x100, count := 4, count2 := 24 } ]

/-- PROT (R37, R432). -/
def regsProt : List RegRow := [
  { off := 0x000, acc := .rk, wmask := 0x17 },
  { off := 0x010, acc := .rk }, { off := 0x014, acc := .rk, wmask := 1 }, { off := 0x018, acc := .rk, wmask := 0x1FFF },
  { off := 0x100, acc := .rc, rc := 0x800000FF }, { off := 0x10C, acc := .rk, wmask := 1 },
  { off := 0x200, acc := .rk, wmask := 0xFFFFF001, stride := 0x10, count := 16 },
  { off := 0x204, acc := .rk, wmask := 0xFFFFF000, stride := 0x10, count := 16 },
  { off := 0x208, acc := .rk, wmask := 0x03FFFFFF, stride := 0x10, count := 16 } ]

/-- BOOT (R438, R439). -/
def regsBoot : List RegRow := [
  { off := 0x08, acc := .w1, wmask := 1 },
  { off := 0x20, acc := .ri, wmask := 1 }, { off := 0x24, acc := .ri, wmask := 0x0FFF03FF },
  { off := 0x28, acc := .ri }, { off := 0x2C, acc := .ri } ]

/-- HOST (R394). -/
def regsHost : List RegRow := [
  { off := 0x04, acc := .rk, wmask := 0x8000003F },
  { off := 0x0C, acc := .rc, rc := 0xB }, { off := 0x10, acc := .ri, reset := 4, wmask := 0x30F },
  { off := 0x18, acc := .ri }, { off := 0x1C, acc := .ri },
  { off := 0x20, acc := .rc, rc := 0xF }, { off := 0x24, acc := .ri, wmask := 0xF },
  { off := 0x28, acc := .rc, rc := 0xFFFFFF00 } ]

/-- PAIR (R365, R366). -/
def regsPair : List RegRow := [
  { off := 0x00, acc := .rk, wmask := 0x80FFFF01 }, { off := 0x04, acc := .rk }, { off := 0x08, acc := .rk },
  { off := 0x0C, acc := .rk, wmask := 0x7FFF0FFF }, { off := 0x10, acc := .rk, wmask := 0x7FFF0FFF },
  { off := 0x20, acc := .rw, wmask := 0x80000006 }, { off := 0x24, acc := .rw, reset := 0x00600208, wmask := 0x00FF0FFF },
  { off := 0x28, acc := .rw, reset := 0x04000004, wmask := 0xFFFF00FF },
  { off := 0x2C, acc := .rw, reset := 0xA0, wmask := 0x3FF },
  { off := 0x30, acc := .rw, wmask := 3 }, { off := 0x34, acc := .rw }, { off := 0x38, acc := .rw },
  { off := 0x44, acc := .rc, rc := 0x7FF }, { off := 0x48, acc := .ri, wmask := 0x7FF },
  { off := 0x50, acc := .rc, rc := 0xFFFFFFFF } ]

/-- PWR (R413). -/
def regsPwr : List RegRow := [
  { off := 0x04, acc := .rc, rc := 0x1F }, { off := 0x08, acc := .ri, wmask := 0x1F },
  { off := 0x18, acc := .rc, reset := 0xFFFF }, { off := 0x1C, acc := .rk, wmask := 0xFFFF },
  { off := 0x20, acc := .rk, reset := 250, wmask := 0xFFFF },
  { off := 0x2C, acc := .rw, wmask := 3 }, { off := 0x34, acc := .rw, reset := 0xF, wmask := 0x3F },
  { off := 0x38, acc := .rw }, { off := 0x3C, acc := .rw, wmask := 0x8000FFFF }, { off := 0x40, acc := .rw },
  { off := 0x100, acc := .rw, reset := 3, wmask := 0x33, stride := 0x10, count := 2 },
  { off := 0x120, acc := .rw, wmask := 0x33, stride := 0x10, count := 13 },
  { off := 0x104, acc := .rk, reset := 60, wmask := 0xFFF }, { off := 0x114, acc := .rk, reset := 40, wmask := 0xFFF },
  { off := 0x124, acc := .rk, reset := 120, wmask := 0xFFF },
  { off := 0x134, acc := .rk, reset := 150, wmask := 0xFFF, stride := 0x10, count := 2 },
  { off := 0x154, acc := .rk, reset := 20, wmask := 0xFFF }, { off := 0x164, acc := .rk, reset := 250, wmask := 0xFFF },
  { off := 0x174, acc := .rk, reset := 200, wmask := 0xFFF, stride := 0x10, count := 2 },
  { off := 0x194, acc := .rk, reset := 300, wmask := 0xFFF, stride := 0x10, count := 4 },
  { off := 0x1D4, acc := .rk, reset := 40, wmask := 0xFFF }, { off := 0x1E4, acc := .rk, reset := 180, wmask := 0xFFF },
  { off := 0x10C, acc := .rc, rc := 0xFFFF, stride := 0x10, count := 15 } ]

/-- SRV (R482). -/
def regsSrv : List RegRow := [
  { off := 0x00, acc := .rc, rc := 6 }, { off := 0x04, acc := .rc, rc := 7 }, { off := 0x08, acc := .ri, wmask := 7 },
  { off := 0x10, acc := .ri }, { off := 0x14, acc := .ri }, { off := 0x28, acc := .ri, wmask := 0xFFFFFFC1 },
  { off := 0x30, acc := .rc, rc := 0x800FFFFF }, { off := 0x40, acc := .ri, reset := 0x3E8, wmask := 0xC00FFFFF },
  { off := 0x44, acc := .ri }, { off := 0x48, acc := .ri, reset := 1 },
  { off := 0x60, acc := .rc, rc := 0xFFFF, count := 4 } ]

/-- ZEP (R436, R451). -/
def regsZep : List RegRow := [
  { off := 0x14, acc := .rk, reset := 2, wmask := 3 },
  { off := 0x200, acc := .ri }, { off := 0x204, acc := .ri } ]

/-- PRT0 to PRT3 (R62, R63, R313 to R315). -/
def regsPrt : List RegRow := [
  { off := 0x000, acc := .rw, wmask := 0x80000133, stop := 0x133 },
  { off := 0x008, acc := .rc, rc := 0xFF }, { off := 0x00C, acc := .ri, wmask := 0xFF },
  { off := 0x010, acc := .rw, reset := 0xFFFF0001, wmask := 0xFFFF0003 },
  { off := 0x014, acc := .rw, reset := 0x00600030 }, { off := 0x018, acc := .rw, reset := 0x1F4, wmask := 0x800003FF },
  { off := 0x01C, acc := .rw, reset := 0x64, wmask := 0xFFFF }, { off := 0x030, acc := .rw },
  { off := 0x040, acc := .ri }, { off := 0x044, acc := .ri, wmask := 0x800007FF },
  { off := 0x048, acc := .ri, wmask := 0x3FF },
  { off := 0x050, acc := .ri }, { off := 0x054, acc := .ri, wmask := 0x800007FF },
  { off := 0x058, acc := .ri, wmask := 0x3FF },
  { off := 0x100, acc := .rc, rc := 0xFFFFFFFF, count := 16 },
  { off := 0x400, acc := .rw, reset := 1, wmask := 3 }, { off := 0x404, acc := .rh }, { off := 0x408, acc := .rh },
  { off := 0x40C, acc := .rw } ]

/-- SWX (R292, R313). -/
def regsSwx : List RegRow := [
  { off := 0x00, acc := .rk, reset := 0x88B5, wmask := 0xFFFF }, { off := 0x04, acc := .rk, reset := 0x3E00F0, wmask := 0x0FEFFFFF },
  { off := 0x08, acc := .rk }, { off := 0x0C, acc := .rk, wmask := 0xFFFF },
  { off := 0x10, acc := .rw, reset := 0x20, wmask := 0xFF }, { off := 0x14, acc := .rw, wmask := 3 },
  { off := 0x18, acc := .rc, rc := 7 }, { off := 0x1C, acc := .ri, wmask := 7 },
  { off := 0x20, acc := .ri, wmask := 0xFFF }, { off := 0x40, acc := .rc, rc := 0xFFFFFFFF, count := 4 },
  { off := 0x100, acc := .rw, stride := 8, count := 16 },
  { off := 0x104, acc := .rw, wmask := 0x8000FFFF, stride := 8, count := 16 } ]

/-- GAZ (R340, R341). -/
def regsGaz : List RegRow := [
  { off := 0x00, acc := .rw, reset := 0x38000, wmask := 0x00FFFF01 },
  { off := 0x0C, acc := .rk, wmask := 0xFFFF0000 }, { off := 0x10, acc := .rk },
  { off := 0x14, acc := .ri, wmask := 0x80003FFF }, { off := 0x18, acc := .ri, wmask := 0x7FFF },
  { off := 0x1C, acc := .rc, rc := 0xF }, { off := 0x20, acc := .ri, wmask := 0xF },
  { off := 0x24, acc := .rk, wmask := 0xFFFF001F },
  { off := 0x110, acc := .ri, wmask := 0xFFFFFFE0, stride := 0x20, count := 4 },
  { off := 0x114, acc := .ri, wmask := 0x1F, stride := 0x20, count := 4 },
  { off := 0x118, acc := .rc, rc := 0xFFFFFFFF, stride := 0x20, count := 4 },
  { off := 0x11C, acc := .rc, rc := 0xFFFF, stride := 0x20, count := 4 } ]

/-- SVB (R377). -/
def regsSvb : List RegRow := [
  { off := 0x00, acc := .rw, reset := 0x200, wmask := 0x80000203, stop := 3 }, { off := 0x04, acc := .rk, wmask := 1 },
  { off := 0x08, acc := .rw, reset := 4, wmask := 0x7F }, { off := 0x0C, acc := .rw, reset := 0x20080000, stop := 0xFFFFFFFF },
  { off := 0x14, acc := .rc, rc := 0x3F }, { off := 0x18, acc := .ri, wmask := 0x3F },
  { off := 0x40, acc := .ri }, { off := 0x44, acc := .ri, wmask := 0x800007FF }, { off := 0x48, acc := .ri, wmask := 0x3FF },
  { off := 0x50, acc := .ri }, { off := 0x54, acc := .ri, wmask := 0x800007FF }, { off := 0x58, acc := .ri, wmask := 0x3FF },
  { off := 0x100, acc := .rc, rc := 0xFFFFFFFF, count := 8 } ]

/-- The rows of each window (R31). -/
def regRows (b : Nat) : List RegRow :=
  if b = 0 then regsSys
  else if b = 1 then regsFlt
  else if b = 2 then regsProt
  else if b = 3 then regsBoot
  else if b = 4 then regsHost
  else if b = 5 then regsCmp
  else if b = 6 then regsTime
  else if b = 7 then regsGrat
  else if b = 16 then regsIng
  else if b = 17 then regsMtx
  else if b = 18 then regsEqs
  else if b = 19 then regsStr
  else if b = 20 then regsSil
  else if 21 ≤ b && b ≤ 24 then regsCl
  else if b = 25 then regsTdm
  else if b = 26 then regsAes
  else if b = 27 then regsOut
  else if b = 28 then regsSns
  else if 8 ≤ b && b ≤ 11 then regsPrt
  else if b = 12 then regsSwx
  else if b = 13 then regsGaz
  else if b = 14 then regsSvb
  else if b = 15 then regsPair
  else if b = 29 then regsPwr
  else if b = 30 then regsSrv
  else if b = 31 then regsBmx
  else if b = 32 then regsZep
  else []

end Sys2Proof.Machine
end

