-- ==== Sys2Proof/Machine/State.lean ====
section
/-! DEFINITION. The state of the block as plain data: the register copies, the engines, the queue of commands. -/

namespace Sys2Proof.Machine

/-- No command of this model faults: every rule of the spec that stops something states the effect,
and the model has it. The one constructor is raised by nobody; safe. -/
inductive Fault where
  /-- Raised by no meaning. Safe. -/
  | none
  deriving DecidableEq, Repr

/-- Refusals. -/
inductive Refusal where
  /-- A command whose meaning is not written; raised by `exec`'s refused arms. Safe. -/
  | notModelled (mnemonic : String)
  deriving DecidableEq, Repr

/-- A holding register for RI multi-word writes (R51). -/
structure HoldReg where
  tag   : Nat := 0           -- address of the value's low word; 0 = empty
  words : List (Nat × Word) := []
  deriving DecidableEq, Repr

/-- The register hub (R30 to R55). Live and shadow copies list only words that differ from reset. -/
structure Hub where
  live      : Tab Word := []
  shadow    : Tab Word := []
  dirty     : List Nat := []           -- shadow words with their dirty bit set (R52)
  pend      : Tab (Option Word) := []  -- STOP fields held pending (R41)
  liveBad   : List Nat := []           -- live words that fail parity
  shadowBad : List Nat := []           -- shadow words that fail parity
  badFound  : List Nat := []           -- shadow words found failing (R54)
  w1Done    : List Nat := []           -- W1 words already written
  latch     : Tab (List Word) := []    -- read latches (R50)
  hold      : Tab HoldReg := []        -- holding registers (R51)
  held      : List BusWr := []         -- shadow writes held during the copy (R47)
  commits   : Tab (Option Nat) := []   -- pending commit target of each group
  lastCommit : Nat := 0
  arr       : Tab Word := []           -- live copies of parameter-array words
  arrDirty  : List Nat := []           -- array words written since the last commit
  safeUnits : List Nat := []           -- units in their safe action (R55): window × 256 + unit
  deriving DecidableEq, Repr

/-- A fault record (R442). -/
structure FaultRec where
  code  : Nat
  rep   : Nat := 0
  cls   : Nat
  inst  : Nat := 255
  arg   : Word := 0
  cycle : Nat := 0
  ns    : Nat := 0
  seq   : Nat := 0                     -- order of arrival, the queue's own
  deriving DecidableEq, Repr

/-- The fault manager and the Zephyr log (R443 to R451). -/
structure Flt where
  slots   : Tab (Option FaultRec) := []
  queue   : List FaultRec := []        -- in service order
  fresh   : List FaultRec := []        -- detected in the present clock, not yet placed (R447)
  safe    : Bool := false
  arrivals : Nat := 0
  wdogAt  : Nat := 0                   -- LC of the last kick
  wdogOn  : Bool := false              -- counting
  zlog    : Tab (Option FaultRec) := []
  zNext   : Nat := 0
  zCount  : Nat := 0
  zValid  : Bool := false
  deriving DecidableEq, Repr

/-- The parameters a TEV output took at its ARM (R76). -/
structure TevSched where
  periodic : Bool := false
  base     : Nat := 0
  activeLow : Bool := false
  start    : Nat := 0     -- 2^-16 ns
  period   : Nat := 0
  width    : Nat := 0
  deriving DecidableEq, Repr

/-- One timed-event output. -/
structure Tev where
  armed   : Bool := false
  waiting : Bool := false              -- armed, but held for a common start (R82)
  sched   : TevSched := {}
  nextJ   : Nat := 0
  active  : Bool := false              -- a pulse is in progress
  endLc   : Option Nat := none         -- when it ends, in local time; none = a level
  next    : Option TevSched := none    -- armed again while a pulse runs
  deriving DecidableEq, Repr

/-- A queued transmit timestamp (R63). -/
structure TxStamp where
  seqId  : Nat
  domain : Nat
  mtype  : Nat
  ts     : Nat
  deriving DecidableEq, Repr

/-- A capture FIFO entry (R81). -/
structure CapEntry where
  rising : Bool
  ts     : Nat
  deriving DecidableEq, Repr

/-- The timebase (R56 to R63, R76 to R81). -/
structure TimeSt where
  lc      : Nat := 0
  offset  : Nat := 0
  rate    : Int := 0      -- 2^-48 units
  stepCnt : Nat := 0
  tev     : Tab Tev := []
  ppsNext : Nat := 0      -- first second not yet passed by PPS_OUT
  ppsOn   : Bool := false -- a pulse is in progress
  ppsEnd  : Nat := 0
  outOfs  : Tab Int := [] -- applied output offsets, ps: 0-3 TEV, 4 PPS, 5 WCLK, 8-15 TDM, 16-19 AES
  tcap    : Tab (List CapEntry) := []
  txf     : Tab (List TxStamp) := []
  txDrop  : Tab Nat := []
  deriving DecidableEq, Repr

/-- The Graticule (R66 to R84). -/
structure GratSt where
  cycle     : Nat := 0
  nextCycle : Nat := 1
  armed     : Bool := false
  src       : Bool := false            -- the armed start waits for, or came from, an edge
  startCyc  : Option Nat := none
  shownCyc  : Nat := 0                 -- START_CYC
  eccClosed : List Nat := []           -- schedule entries closed by an ECC error (R75)
  deriving DecidableEq, Repr

/-- What Compass knows of one reference source. -/
structure Meas where
  seen  : Bool := false
  last  : Nat := 0        -- LC of the last arrival
  since : Nat := 0        -- LC at which the present run of arrivals began
  y     : Int := 0        -- 2^-48
  phase : Int := 0        -- FT minus the source's phase, 2^-16 ns
  aux   : Int := 0
  deriving DecidableEq, Repr

/-- One candidate slot. -/
structure Cand where
  signal  : Bool := false
  qual    : Bool := false
  disq    : Bool := false
  warn    : Bool := false
  nocons  : Bool := false
  y       : Int := 0
  drift   : Int := 0
  qualT   : Nat := 0       -- ticks the conditions have held
  warnT   : Nat := 0
  warned  : Bool := false
  wtrRun  : Bool := false
  wtrT    : Nat := 0
  wtrDue  : Bool := false
  built   : Int := 0       -- built-out offset, 2^-16 ns
  grade   : Nat := 0
  deriving DecidableEq, Repr

/-- A switch in progress (R100). -/
structure Switch where
  target : Nat
  tick   : Nat := 0
  sum    : Int := 0
  moving : Bool := false   -- step 4
  deriving DecidableEq, Repr

/-- A slew of FT with the profile of R102. -/
structure FtSlew where
  kind  : Nat              -- 0 retirement, 1 slewed PSTEP, 2 BO retirement
  delta : Int              -- 2^-16 ns to move
  p     : Nat              -- ns/s
  a     : Nat              -- ns/s per s
  tick  : Nat := 0
  deriving DecidableEq, Repr

/-- A step of FT with fade (R104). -/
structure FtStepSt where
  abs    : Bool := false
  amount : Int := 0        -- 2^-16 ns, or the new FT
  pstep  : Bool := false
  k1     : Option Nat := none
  done   : Bool := false   -- FT has stepped
  k2     : Option Nat := none
  deriving DecidableEq, Repr

/-- A queued or running phase step (R106). -/
structure PstepVal where
  abs  : Bool := false
  slew : Bool := false
  val  : Int := 0
  deriving DecidableEq, Repr

/-- A realignment (R108). -/
structure RealignSt where
  slew   : Bool := false
  bo     : Bool := false
  at_    : Nat := 0                     -- 0 = next boundary
  begun  : Option Nat := none           -- boundary at which it began
  jumped : Option Nat := none
  moves  : List (Nat × Int × Int) := [] -- output, from, to (ps)
  tick   : Nat := 0
  deriving DecidableEq, Repr

/-- Compass (R85 to R114). -/
structure CmpSt where
  st       : Nat := 0                  -- R95 encoding
  cur      : Option Nat := none
  sw       : Option Switch := none
  nextSel  : Option Nat := none        -- SEL committed during a switch
  cand     : Tab Cand := []
  meas     : Tab Meas := []            -- by source
  base     : Int := 0                  -- RATE without the slew's added offset
  drifting : Bool := false
  everLock : Bool := false
  lockT    : Nat := 0
  unlockT  : Nat := 0
  phaseErr : Int := 0                  -- 2^-16 ns
  hist     : List (Nat × Int) := []    -- newest first: tick, mean of RATE
  histSum  : Int := 0
  histCnt  : Nat := 0
  holdRate : Int := 0
  holdT    : Nat := 0
  bo       : Int := 0                  -- BO_ACCUM × 2^48
  slew     : Option FtSlew := none
  step     : Option FtStepSt := none
  pstepQ   : Option PstepVal := none
  realign  : Option RealignSt := none
  ticks    : Nat := 0
  deriving DecidableEq, Repr
/-- A ramp of an exact factor: from n0/d0 to n1 over `len` samples from sample 0 of cycle `start` (R510). -/
structure Ramp where
  n0    : Nat := 1
  d0    : Nat := 1
  n1    : Nat := 1
  start : Nat := 0
  len   : Nat := 0
  deriving DecidableEq, Repr

/-- One ingress slot's engine state (R120 to R131). Rings are kept by presentation sample position. -/
structure SlotSt where
  ring     : Tab (Option (List Int)) := []
  flags    : Tab (Nat × Nat) := []       -- by presentation cycle: CH_MUTE and CH_CONCEAL masks received
  waiting  : Bool := false
  running  : Bool := false
  v        : List Int := []              -- last presented sample of each channel
  missRun  : Nat := 0                    -- concealed cycles in a row
  presented : Bool := false
  concealing : Bool := false
  muted    : Bool := false
  margin   : Option Nat := none          -- smallest p − k since the last read of SCNT.CONCEAL
  slip     : Int := 0                    -- sum of slips: repeats minus skips
  ch       : Nat := 0                    -- CH in force while it runs (R41)
  deriving DecidableEq, Repr

/-- One crosspoint's live gain (R137). -/
structure Xp where
  g0    : Int := 0
  g1    : Int := 0
  start : Nat := 0
  len   : Nat := 0      -- cycles
  deriving DecidableEq, Repr

/-- One egress destination (R143, R144). -/
structure EgrSt where
  cur   : Nat := 0      -- source word in force, or coming in
  old   : Nat := 0      -- source word going out
  fade  : Option (Nat × Nat) := none   -- first cycle and length in cycles
  held  : Bool := false
  deriving DecidableEq, Repr

/-- A sample row of one cycle with its channel flags. -/
structure Chan where
  x    : List Int := []
  mute : Bool := false
  conc : Bool := false
  deriving DecidableEq, Repr

/-- Ingress and the matrix (R115 to R146). -/
structure MixSt where
  slot    : Tab SlotSt := []
  inputs  : Tab Chan := []      -- matrix inputs of the present cycle
  xp      : Tab Xp := []
  buses   : Tab (List Int) := []
  busPrev : Tab (List Int) := []
  busPrev2 : Tab (List Int) := []
  clOut   : Tab (List Int) := []  -- program results moved at this boundary: cluster × 256 + egress channel
  clMute  : List Nat := []        -- clusters whose results are zero with MUTE (R28, R216)
  busMuted : Bool := false      -- the MUTE flag of the buses during an MTX reset (R460)
  outMute : Tab Ramp := []
  egr     : Tab EgrSt := []
  egress  : Tab Chan := []      -- egress samples of the present cycle
  egPrev  : Tab Chan := []      -- of the previous cycle
  slipDue : Tab Int := []       -- slips due by ingress source: 0-7 TDM, 8-11 AES3; +1 skip, -1 repeat
  deriving DecidableEq, Repr

/-- The histories of one section, A48 words (R148). -/
structure SecHist where
  x1 : Int := 0
  x2 : Int := 0
  y1 : Int := 0
  y2 : Int := 0
  deriving DecidableEq, Repr

/-- One EQ chain (R149 to R155). -/
structure ChainSt where
  running  : Bool := false
  cfg      : Nat := 0        -- CFG and SRC in force while it runs (R41)
  src      : Nat := 0
  fading   : Bool := false   -- the present cycle fades in
  deferred : Bool := false
  xf       : Bool := false   -- crossed over in the last cycle
  deriving DecidableEq, Repr

/-- The EQ engine. -/
structure EqsSt where
  chain : Tab ChainSt := []
  hist  : Tab SecHist := []
  hPrev : Tab SecHist := []                -- histories after the previous cycle, as the array shows them
  due   : Tab (Option (List Word)) := []   -- due coefficients of a deferred or crossing section
  oldBank : Tab (Option (List Word)) := [] -- the outgoing bank during a crossover
  out   : Tab (List Int) := []
  deriving DecidableEq, Repr

/-- One delay line (R156 to R164). Delays are in 2^-20 sample. -/
structure LineSt where
  running : Bool := false
  src     : Nat := 0         -- SRC and BUF in force while it runs (R41)
  buf     : Nat := 0
  cur     : Nat := 0
  target  : Nat := 0
  mute    : Ramp := {}       -- RUN and MUTE fades
  stopping : Bool := false   -- RUN = 0 was committed and its fade is not over
  deriving DecidableEq, Repr

/-- The steering unit. -/
structure StrSt where
  line    : Tab LineSt := []
  out     : Tab (List Int) := []
  deriving DecidableEq, Repr

/-- One silence group (R168). -/
structure SilGrp where
  st   : Nat := 0
  hold : Nat := 0
  deriving DecidableEq, Repr

/-- The Doldrums. -/
structure SilSt where
  grp     : Tab SilGrp := []
  loudAt  : Tab Nat := []      -- first cycle after the last one with a non-quiet sample, by bus
  flags   : List Nat := []     -- buses with BUS_SILENT set
  gated   : List Nat := []     -- clusters clock-gated (R171)

  deriving DecidableEq, Repr
/-- A result in flight to a V register pair's half, or to FLAGS.SAT (R182, R188). -/
structure Flight where
  land : Nat
  reg  : Nat          -- 0-31; 32 = FLAGS.SAT
  val  : Word
  deriving DecidableEq, Repr

/-- An open repeat level (R194). -/
structure RepLevel where
  start : Nat
  stop  : Nat
  lc    : Nat
  dep   : Nat := 0       -- return-stack depth at the REP
  hit   : Bool := false  -- the loop cache held the body at the REP
  first : Bool := true   -- in its first iteration
  deriving DecidableEq, Repr

/-- A posted store (R193). -/
structure Posted where
  addr : Word
  size : AccSize
  val  : Nat
  deriving DecidableEq, Repr

/-- A bus load whose data has not returned. -/
structure BusLoad where
  addr : Word
  d    : Nat
  dbl  : Bool
  deriving DecidableEq, Repr

/-- One Narix core (R177, R204). -/
structure NCore where
  st     : Nat := 4                 -- 0 STOPPED 1 WAITING 2 RUNNING 3 HALTED 4 RESET 5 GATED
  v      : Tab Word := []
  acc    : Tab Int := []            -- 72-bit values
  a      : Tab Word := []
  m      : Tab Word := []
  l      : Tab Word := []
  b      : Tab Word := []
  flags  : Word := 0
  cyc    : Nat := 0
  pc     : Nat := 0
  flight : List Flight := []
  accVis : Tab Nat := []            -- CYC from which RND, SAT and MRD see an accumulator
  levels : List RepLevel := []      -- innermost first
  rstk   : Tab (Nat × Nat) := []    -- return stack: PC and open levels at the CALL
  rdep   : Nat := 0
  cache  : Option Nat := none       -- start of the body in the loop cache
  posted : List Posted := []
  load   : Option BusLoad := none
  heldP  : Option (Option (Bool × Fin 4) × List SlotOp) := none  -- a packet waiting for the write buffer
  drain  : Bool := false            -- after WAIT_CYCLE
  sync   : Bool := false            -- waiting at the barrier
  wfi    : Bool := false
  restart : Bool := false           -- starts at ENTRY at its next release
  startAt : Option Nat := none      -- cycle of its start
  ovr    : Bool := false
  excPc  : Nat := 0
  cycLast : Nat := 0
  gap    : Tab Nat := []            -- clocks since the last issue by stall reason (R473)
  deriving DecidableEq, Repr

/-- One cluster (R211 to R228). -/
structure ClusterSt where
  running : Bool := false
  startK  : Nat := 0                -- boundary of the last start
  safeRst : Bool := false           -- held in reset by the safe action
  budget  : Nat := 41667
  inRes   : Bool := false           -- in the stream DMA reserve
  reserve : Nat := 256
  sem     : Tab Nat := []           -- owner + 1: 0 free, 1-8 core, 9 SUP, 11 HOST
  mbx     : Tab (List Word) := []
  psnap   : Option Nat := none      -- granules of the snapshot being copied
  deriving DecidableEq, Repr

/-- The supervisor's privileged extension (R205 to R210). -/
structure SupSt where
  sstat  : Word := 0
  vbase  : Word := 0
  ssp    : Word := 0x000BFFC0
  epc    : Word := 0
  ecause : Word := 0
  eaddr  : Word := 0
  ien    : Nat := 0
  ipri   : Tab Word := []
  grd    : Tab Word := []           -- 2g BASE, 2g + 1 LIM
  strobe : Bool := false            -- line 37 pending
  tick   : Bool := false            -- line 38 pending
  deriving DecidableEq, Repr

/-- One switched domain (R398 to R405). -/
structure Dom where
  st     : Nat := 0                 -- 0 OFF 1 RET 2 CG 3 ON 4 QUEUED 5 RAMPING 6 LOWERING
  held   : Nat := 0                 -- the state it is in, or left, while st is 4 to 6
  goal   : Nat := 0                 -- where a transition in progress ends
  next   : Option Nat := none       -- a TARGET committed during a transition (R402)
  cold   : Bool := false
  reqLc  : Nat := 0
  endLc  : Nat := 0
  ramp   : Nat := 0                 -- ramp current held while in progress, mA
  deriving DecidableEq, Repr

/-- Supply, domains, sleep and temperature (R395 to R413). -/
structure PwrSt where
  step     : Nat := 0               -- clock step in force (R411)
  nextStep : Nat := 0               -- takes effect at the next boundary
  stepLc   : Nat := 0               -- LC of the last step down or up
  throttled : Bool := false         -- the WARN of the first step has been raised
  dom      : Tab Dom := []
  queue    : List Nat := []         -- domains waiting, in service order (R405)
  budgetLow : Bool := false
  paused   : Bool := false
  okSince  : Option Nat := none     -- LC since which VSYS has been back at the level (R406)
  vsysBoot : Nat := 0
  vsys     : Nat := 0
  temp     : Int := 0               -- 0.1 °C
  hotSince : Option Nat := none     -- LC since which TEMP has been at 155 °C or above
  hot150   : Bool := false
  sleep    : Nat := 0               -- 0 awake, 1 LISTEN, 2 STANDBY
  sleepReq : Nat := 0               -- a state entered at the next boundary
  sleepLc  : Nat := 0
  wakeSrc  : Nat := 0
  wakeCfg  : Nat := 0               -- WAKE_CFG as it stood at entry into sleep
  alarm    : Nat := 0               -- ALARM as it stood at entry into sleep
  deriving DecidableEq, Repr
/-- One modulator channel (R229 to R258). -/
structure OutCh where
  st      : Nat := 0                -- R238 encoding
  since   : Nat := 0                -- cycle of entry
  retry   : Nat := 0
  diagOk  : Bool := false
  result  : Nat := 0
  fallback : Bool := false
  latch   : Bool := false           -- the gate latch of R245
  dcPend  : Nat := 0                -- a DC detection before its boundary: 9 digital, 10 sensed
  dcSince : Nat := 0                -- cycle at which the detectors were cleared
  down    : Bool := false           -- a soft stop has ended
  c       : Ramp := { n0 := 0, n1 := 0 }   -- common duty over one half
  g       : Ramp := { n0 := 0, n1 := 0 }   -- input gain
  stopLen : Nat := 0                -- cycle at which the soft stop began
  duty    : List Int := []          -- d of the present cycle after stage 6
  z       : Nat := 0
  cap     : Nat := 0
  vofs    : Int := 0
  iofs    : Int := 0
  vLast   : Int := 0
  iLast   : Int := 0
  t1      : Int := 0                -- 2^-32 K
  t2      : Int := 0
  tMeas   : Option Int := none      -- 0.1 °C
  rvc     : Nat := 0
  rvcAt   : Nat := 0                -- cycle of the last measurement
  loud    : Bool := false           -- |d| has passed 0.01 since then
  thGain  : Nat := 16777216         -- 2^-24
  exGain  : Nat := 16777216
  tUse    : Int := 0                -- 0.1 °C
  xPk     : Nat := 0
  base    : List Nat := [2500, 1500, 5500, 700]  -- committed RTH1, RTH2, F0, Q
  atLim   : Nat := 0                -- adapted values held at a limit
  deriving DecidableEq, Repr

/-- One channel's sense samples of a cycle. -/
structure SenseRow where
  ch : Nat
  v  : List Int
  i  : List Int
  deriving DecidableEq, Repr

/-- The output stage. -/
structure OutSt where
  ch      : Tab OutCh := []
  squall  : Bool := false           -- OUT.GSTAT.SQUALL
  squallDue : Bool := false         -- a squall before its boundary
  trips   : List (Nat × Nat) := []  -- LC and channel of the last trips
  tripLoc : Tab Nat := []           -- local trips by cycle: channel masks
  tripStr : Tab Nat := []           -- trips carried by received TRIP records, by cycle
  senseLoc : Tab (List SenseRow) := []
  senseStr : Tab (List SenseRow) := []
  senseMiss : Bool := false         -- in a run of missing records
  deriving DecidableEq, Repr

/-- What the leeward logs of one cycle (R362). -/
structure LogCyc where
  k     : Nat
  buses : Tab (List Int) := []
  trips : Nat := 0
  sense : List SenseRow := []
  deriving DecidableEq, Repr

/-- The pair controller (R342 to R366). -/
structure PairSt where
  role  : Nat := 0                  -- 0 SINGLE or not yet enabled, 1 WINDWARD, 2 LEEWARD, 3 FORMING
  link  : Bool := false             -- pair link verified
  formOk : Bool := false            -- a good FORM since the adjacency came up
  mism  : Bool := false             -- PAIR_MISMATCH raised for this adjacency
  adjUp : Bool := false             -- port 3's adjacency as last looked at
  own   : Bool := false             -- level driven on LEASE_OWN
  peer  : Bool := false             -- level read on PEER_OWN
  peerAt : Nat := 0                 -- LC of its last change
  peerRose : Bool := false          -- it has been high since EN, or since the release
  claimDue : Bool := false          -- claims at the next boundary
  formAt : Nat := 0                 -- cycle of the commit of EN
  step  : Nat := 0                  -- R351 encoding
  matchN : Nat := 0
  mis   : Nat := 0                  -- consecutive mismatches
  acked : Bool := false
  bar   : Bool := false
  dw    : Option Nat := none        -- deadlines, LC
  dwSvb : Option Nat := none
  barAt : Nat := 0                  -- LC from which a barred node may claim
  dl    : Option Nat := none
  relinq : Bool := false            -- RELINQUISH received
  handW : Option Nat := none        -- switch-back cycle acknowledged by this leeward
  swb   : Option Nat := none        -- switch-back cycle armed by this windward
  swbAck : Bool := false
  svbPath : Bool := false
  peerRole : Nat := 0               -- what the partner last reported
  stuckAt : Option Nat := none      -- cycle since which PEER_OWN contradicts the partner's reports
  stuckErr : Bool := false
  bothAt : Option Nat := none       -- LC since which both leases are high
  overlapped : Bool := false
  mine  : Tab (Nat × Nat) := []     -- digests by egress cycle, each + 1, with NSAMP
  theirs : Tab (Nat × Nat) := []
  digRec : Option (Nat × Nat × Nat) := none
  rphase : Nat := 0                 -- RESYNC_STAT.PHASE
  snapS : Nat := 0
  ready : Option BlockSnap := none  -- a checked transfer waits for its boundary
  log   : List LogCyc := []
  logBytes : Nat := 0
  caught : Tab Nat := []            -- by cluster: logged cycles already run
  xferLen : Nat := 0                -- bytes captured at s
  retryAt : Option Nat := none
  deriving DecidableEq, Repr
/-- One TDM port (R259 to R276). Rows hold A32 values by slot. -/
structure TdmPort where
  running : Bool := false
  wait    : Bool := false
  j       : Nat := 0                -- next frame
  first   : Bool := false           -- the next frame is the first one
  stepSeen : Nat := 0
  stopDue : Option Nat := none      -- FT from which a frame start stops the port
  maskDue : Option Nat := none      -- FT from which a frame start applies the masks
  txM     : Nat := 0                -- masks in force
  rxM     : Nat := 0
  newTx   : Nat := 0                -- transmit slots enabled for the next frame's start
  inb     : List (List Int) := []   -- complete received frames, oldest first
  frac    : Nat := 0                -- fraction of the frame in progress, 1/256
  outb    : List (List Int) := []
  lastIn  : List Int := []
  lastOut : List Int := []
  oslip   : Int := 0                -- output slip owed: +1 repeats, −1 drops
  lost    : Bool := false
  refill  : Bool := false
  fsync   : Nat := 0                -- LC of the last FSYNC edge
  dout    : List (Option Int) := [] -- words of the frame on DOUT; none = high impedance
  deriving DecidableEq, Repr

/-- One AES3 receiver (R277 to R280). -/
structure AesRx where
  running : Bool := false
  lock    : Bool := false
  good    : Nat := 0
  bad     : Nat := 0
  audio   : Bool := false
  refill  : Bool := false
  j       : Nat := 0
  stepSeen : Nat := 0
  inb     : List (List Int) := []
  frac    : Nat := 0
  lastIn  : List Int := []
  prev    : List Int := [0, 0]
  blockOk : Bool := false           -- the block in progress began under lock
  bits    : List (Bool × Bool × Bool × Bool) := []  -- C of A, C of B, U of A, U of B, oldest first
  cs      : List Word := []         -- CS_A, CS_B, U_A, U_B: 24 words
  seq     : Nat := 0
  rate    : Nat := 0
  meas    : Nat := 0
  past    : List Nat := []          -- latest measurements, newest first
  held    : Bool := false           -- locked since the last measurement
  second  : Nat := 0                -- last measured second
  deriving DecidableEq, Repr

/-- One AES3 transmitter (R281 to R283). -/
structure AesTx where
  running : Bool := false
  wait    : Bool := false
  j       : Nat := 0
  first   : Bool := false
  stepSeen : Nat := 0
  stopDue : Option Nat := none
  inBlock : Bool := false           -- a block has begun
  cs      : List Word := []         -- the words of the block in progress
  sent    : List Int := []          -- audio words of the last frame
  deriving DecidableEq, Repr

/-- The serial audio ports (R259 to R284). -/
structure SerSt where
  tdm : Tab TdmPort := []
  rx  : Tab AesRx := []
  tx  : Tab AesTx := []
  deriving DecidableEq, Repr
/-- A frame waiting to be sent, without FCS (R289, R296). -/
structure TxFrame where
  bytes  : List Byte
  src    : Option Nat := none       -- port that received it
  due    : Nat := 0                 -- FT before which it does not start (R330)
  pcyc   : Option Nat := none       -- scheduled audio: PCYC
  stomp  : Bool := false            -- ends with the inverted FCS (R300)
  ptp    : Nat := 0                 -- 0 none 1 one-step Sync 2 one-step Pdelay_Resp 3 timestamp queued 4 residence
  ts     : Nat := 0                 -- REQ_TS or ts_rx, 2^-16 ns
  desc   : Bool := false            -- of the transmit ring
  pause  : Bool := false
  deriving DecidableEq, Repr

/-- One fabric port (R285 to R315). -/
structure PortSt where
  up      : Bool := false
  upDue   : Bool := false           -- LINK_UP at the next boundary
  rxInv   : Bool := false
  anDone  : Bool := false
  anPause : Nat := 0
  phaseTx : Int := 0
  phaseRx : Int := 0
  q       : List (List TxFrame) := [[], [], []]  -- scheduled, reserved, best effort
  wait    : List (Nat × TxFrame) := []  -- frames waiting for room, with their class
  cur     : Option (Nat × TxFrame) := none  -- the frame in progress and the LC of its end
  wire    : List Byte := []         -- the last frame sent
  wireBad : Bool := false
  gateWarn : Bool := false          -- the WARN of this bank commit has been raised
  paused  : Bool := false
  pauseAt : Nat := 0                -- LC at which the stop began
  pauseEnd : Nat := 0
  stops   : List (Nat × Nat) := []  -- past stops of the watchdog's window
  holdoff : Option Nat := none
  xoff    : Bool := false
  xoffAt  : Nat := 0
  txHead  : Nat := 0
  rxHead  : Nat := 0
  txDesc  : Option (Nat × Nat) := none   -- descriptor in progress: RESULT and segments left
  deriving DecidableEq, Repr

/-- Duplicate-discard state of one FLOW_ID (R301). -/
structure DupSt where
  h    : Nat
  hist : Nat := 0                   -- bit d − 1: SEQ H − d accepted
  last : Nat := 0                   -- cycle of the last accepted frame
  deriving DecidableEq, Repr

/-- What the switch core keeps of one flow-table entry. -/
structure FlowSt where
  last : Option Nat := none         -- cycle of the last match
  born : Nat := 0                   -- cycle of the commit that made the entry
  accA : Nat := 0
  accB : Nat := 0
  dup  : Nat := 0
  sat  : Nat := 0
  tag  : Nat := 0
  rtp  : List (List (List Int)) := []  -- AES67 source: past cycles, oldest first, each by channel
  deriving DecidableEq, Repr

/-- The switch core (R289 to R315, R327 to R330). -/
structure SwxSt where
  port : Tab PortSt := []
  dup  : Tab (Option DupSt) := []
  flow : Tab FlowSt := []
  deriving DecidableEq, Repr

/-- One adjacency (R320). -/
structure AdjSt where
  st    : Nat := 0                  -- 0 DOWN 1 INIT 2 UP 3 MISMATCH
  nuid  : Nat := 0
  nport : Nat := 0
  npair : Bool := false
  naddr : Nat := 0
  navalid : Bool := false
  nkey  : Nat := 0
  heard : Nat := 0                  -- cycle of the last hello
  deriving DecidableEq, Repr

/-- A link-state database record (R322). -/
structure DbRec where
  typ   : Nat                       -- 0 node, 1 zone, 2 binding
  key   : Nat
  seq   : Nat := 0
  valid : Bool := false
  addr  : Nat := 0
  flags : Nat := 0                  -- byte 14, low six bits
  prio  : Nat := 0
  links : List Nat := []            -- four 16-bit words
  modes : Nat := 0
  nport : Nat := 0
  zkey  : Nat := 0
  born  : Nat := 0                  -- cycle at which AGE was 0
  slot  : Nat := 0                  -- slot of the region, filled on storing
  gone  : Option Nat := none        -- binding: cycle at which its node record was removed
  stale : Bool := false             -- binding: no longer refreshed
  deriving DecidableEq, Repr

/-- What a hop keeps of a reservation (R332 to R338). -/
structure RsvHop where
  tag   : Nat
  flow  : Nat
  arr   : Option Nat := none        -- arrival port; none at the source
  q     : Nat := 0                  -- egress port
  run   : Nat := 0                  -- first window index of the run
  nwin  : Nat := 1
  d     : Nat := 0
  lat   : Nat := 0
  bytes : Nat := 0
  per   : Nat := 1
  phase : Nat := 0
  path  : Bool := false
  move  : Bool := false
  l     : Nat := 2
  srcA  : Nat := 0
  dstA  : Nat := 0
  held  : Bool := true              -- capacity held, not yet confirmed
  fwdC  : Option Nat := none        -- CONFIRM to forward after this cycle's commit
  since : Nat := 0                  -- cycle of RESERVE
  idx   : Nat := 0                  -- this hop's route byte
  sink  : Bool := false
  route : List Nat := []
  deriving DecidableEq, Repr

/-- A flow this node originates, as policy firmware keeps it (R334 to R338). -/
structure SrcFlow where
  flow  : Nat
  tag   : Nat := 0                  -- reservation of the path in force
  pend  : Option Nat := none        -- tag of a reservation in progress
  path  : Bool := false
  oldTag : Option Nat := none       -- route to be dropped after a move
  moveAt : Nat := 0                 -- cycle at which both copies began
  degraded : Bool := false
  retryAt : Nat := 0
  msg   : Option RsvMsg := none     -- what the flow asks for
  deriving DecidableEq, Repr

/-- The Gazetteer and its policy firmware (R316 to R341). -/
structure GazSt where
  adj   : Tab AdjSt := []
  db    : List DbRec := []
  flood : Tab (List DbRec) := []    -- records queued to each port
  rsv   : List RsvHop := []
  srcs  : List SrcFlow := []
  nextTag : Nat := 1
  par   : Tab Nat := []             -- policy parameters of the image, by ID (R339, R421)
  errs  : List Nat := []            -- errors of R325 and R326 in force, so that each is raised once
  deriving DecidableEq, Repr
/-- A frame of the service bus waiting to be sent. -/
structure SvbFrame where
  bytes : List Byte
  priv  : Bool := false
  desc  : Bool := false             -- of the transmit ring
  deriving DecidableEq, Repr

/-- The service bus (R367 to R377). -/
structure SvbSt where
  lfsr    : Nat := 1
  polSeen : Bool := false           -- a frame has been received since EN
  polRev  : Bool := false
  txHead  : Nat := 0
  rxHead  : Nat := 0
  desc    : Option Nat := none      -- RESULT of the descriptor in progress, its frame gone
  frame   : Option SvbFrame := none -- the descriptor's frame while it waits
  relinq  : Bool := false           -- a RELINQUISH for the next window
  ackCyc  : Option Nat := none      -- a renewal to acknowledge in the next window
  lease   : Option SvbFrame := none -- the lease message of this window
  cur     : Option (SvbFrame × Nat) := none  -- the frame in progress and the LC of its end
  tries   : Nat := 0                -- collisions of the head frame
  backoff : Option Nat := none
  win     : Bool := false
  winNext : Nat := 0                -- millisecond of FT not yet opened
  winFt   : Nat := 0
  guard   : Nat := 4
  plca    : Bool := false           -- beacons arrive
  fallback : Bool := false
  burst   : Nat := 0                -- frames left in a PLCA opportunity
  deriving DecidableEq, Repr
/-- The image that booted, or is being applied: what R429 still needs of it. -/
structure BootPlan where
  regs   : List (Nat × Nat) := []   -- REG entries left to write
  groups : Nat := 0
  entry  : Nat := 0
  policy : List (Nat × Nat) := []   -- POLICY entries in image order
  id     : Nat := 0
  rollback : Nat := 0
  length : Nat := 0
  deriving DecidableEq, Repr

/-- A flash command in progress (R440). -/
structure FlashCmd where
  opcode : Nat
  addr   : Nat
  len    : Nat
  buf    : Nat
  read   : Bool
  deriving DecidableEq, Repr

/-- Boot (R414 to R441). -/
structure BootSt where
  phase   : Nat := 0                -- 0 in reset 1 offering BOOT_STREAM 2 domains rising 3 commit of step 5 due 4 handed off
  warm    : Bool := false
  wait    : Bool := false           -- BOOT_WAIT
  source  : Nat := 0
  stream  : List Byte := []         -- bytes of the streamed image
  plan    : BootPlan := {}
  relLc   : Nat := 0                -- LC at the end of reset
  flash   : Option FlashCmd := none -- BUSY
  otp     : Tab Word := []          -- OTP itself, by the bus address of its shadow word
  deriving DecidableEq, Repr

/-- The host link (R378 to R394). -/
structure HostSt where
  low     : Bool := false           -- HCS_N is low
  deaf    : Bool := false           -- the transaction began asleep: nothing is driven
  phase   : Nat := 0                -- 0 request 1 busy 2 response 3 over
  form    : Nat := 0                -- the response: 0 none 1 STATUS 2 READ 3 READ_STATUS 4 ENUMERATE 5 a WHO_CALLS bit
  err     : Nat := 0                -- CRC_ERR or CMD_ERR in its STATUS
  todo    : List (Nat × Option Word) := []  -- accesses of the request not yet made, writes with their data
  data    : List Word := []         -- words that a READ has returned
  resp    : List Byte := []         -- response bytes to be driven
  who     : Option (Nat × Bool) := none  -- the bit driven in a WHO_CALLS mask
  enumIn  : Bool := false
  enumOut : Bool := false
  rise    : Bool := false           -- ENUM_OUT rises at the next rise of HCS_N
  deriving DecidableEq, Repr

/-- A register access that waits for the end of a per-function reset. -/
structure HeldAcc where
  master : Master
  addr   : Nat
  wr     : Option Word := none      -- none for a read
  deriving DecidableEq, Repr

/-- A per-function reset in progress; functions are numbered FRST0 0-31, FRST1 32-63, FRST2 64-74. -/
structure FrstJob where
  fn       : Nat
  defaults : Bool := false
  start    : Nat := 0               -- cycle of step 1
  deriving DecidableEq, Repr

/-- Per-function resets (R456 to R460). -/
structure FrstSt where
  jobs : List FrstJob := []
  done : List Nat := []             -- functions that resume at the next boundary
  held : List HeldAcc := []
  deriving DecidableEq, Repr

/-- A sampled packet (R475). -/
structure SmpRec where
  core   : Nat
  reason : Nat
  held   : Nat
  pc     : Nat
  cyc    : Nat
  lat    : Nat
  cycle  : Nat
  deriving DecidableEq, Repr

/-- The Survey (R469 to R482). -/
structure SrvSt where
  ctr     : Tab Nat := []           -- b × 8 + i
  core    : Tab Nat := []           -- k × 8 + i
  snapCtr : Tab Nat := []
  snapCore : Tab Nat := []
  latCtr  : Tab Nat := []           -- latched, not yet in the snapshot arrays
  latCore : Tab Nat := []
  frozen  : Bool := false
  busy    : Bool := false
  copy    : Bool := false
  acts    : Tab (Option Nat) := []  -- pending: 0 FREEZE 1 THAW 2 SNAP 3 CLEAR; their targets
  seq     : Nat := 0
  snapCyc : Nat := 0
  lfsr    : Tab Nat := []
  count   : Tab Nat := []           -- countdown of each core, 0 = no interval drawn yet
  wait    : List SmpRec := []       -- sampled packets whose last result has not landed
  smp     : Tab (Option SmpRec) := []   -- c × 256 + e
  next    : Tab Nat := []
  fill    : Tab Nat := []
  full    : List Nat := []          -- buffers that have refused a record
  held    : List HeldAcc := []      -- reads of the snapshot arrays held while busy
  deriving DecidableEq, Repr

/-- The machine. -/
structure State where
  hub     : Hub := {}
  flt     : Flt := {}
  time    : TimeSt := {}
  grat    : GratSt := {}
  cmp     : CmpSt := {}
  /-- Bytes of every memory of R30, by bus address. -/
  mem     : List Host.Cell := []
  /-- Words with an uncorrectable ECC error, by word address (R466). -/
  eccBad  : List Nat := []
  /-- Data returned by the last bus read a command made (the model's own field). -/
  rdata   : List Word := []
  /-- Draw counter of the free values (the model's own field). -/
  free    : Nat := 0
  mix     : MixSt := {}
  eqs     : EqsSt := {}
  str     : StrSt := {}
  sil     : SilSt := {}
  core    : Tab NCore := []
  cl      : Tab ClusterSt := []
  sup     : SupSt := {}
  pwr     : PwrSt := {}
  out     : OutSt := {}
  pair    : PairSt := {}
  ser     : SerSt := {}
  swx     : SwxSt := {}
  gaz     : GazSt := {}
  svb     : SvbSt := {}
  boot    : BootSt := {}
  host    : HostSt := {}
  frst    : FrstSt := {}
  srv     : SrvSt := {}
  /-- The commands waiting, first in, first out. -/
  pending : List Instr := []
  deriving DecidableEq, Repr



/-- The block right after a cold reset, before RESET_RELEASE. -/
def State.reset : State :=
  { hub := { live := [(0x4003001C, 1#32)] }, pwr := { dom := [(0, { st := 3 }), (1, { st := 3 })] } }

end Sys2Proof.Machine
end

