-- ==== Sys2Proof/Machine/Ops.lean ====
section
/-! DEFINITION. Operations every block uses: register words and their fields, fabric time, fault detection,
memory, free values. -/

namespace Sys2Proof.Machine

/-- Base of register window `b` (R31). -/
def winBase (b : Nat) : Nat := 0x40000000 + b * 0x10000

/-- Is the address in a register window? -/
def isReg (a : Nat) : Bool := 0x40000000 ≤ a && a < 0x40210000

/-- Window index of a register address. -/
def winOf (a : Nat) : Nat := a / 0x10000 % 0x4000

/-- The lower-half address of the same word (R32). -/
def lowHalf (a : Nat) : Nat := a / 0x10000 * 0x10000 + a % 0x8000

/-- Offset of an address in its window. -/
def offOf (a : Nat) : Nat := a % 0x10000

/-- The row of a register address, at its lower-half offset (R32). -/
def rowOf (a : Nat) : Option RegRow :=
  if isReg a then (regRows (winOf a)).find? (fun r => r.covers (offOf a)) else none

/-- The reset value of a register word; 0 where no row holds it.
[DESIGN CHOICE, unsafe: log entry 5] -/
def resetOf (a : Nat) : Word :=
  match rowOf a with
  | some r => wd r.reset
  | none => 0

/-- The live copy of a register word. -/
def lv (s : State) (a : Nat) : Word := tabGet resetOf s.hub.live a

/-- The live copy as a number. -/
def lvn (s : State) (a : Nat) : Nat := (lv s a).toNat

/-- A field of the live copy. -/
def lf (s : State) (a lo n : Nat) : Nat := fld (lv s a) lo n

/-- A bit of the live copy. -/
def lb (s : State) (a i : Nat) : Bool := bit (lv s a) i

/-- Write the live copy. -/
def setLv (a : Nat) (v : Word) (s : State) : State :=
  { s with hub.live := tabSet resetOf s.hub.live a v }

/-- Set bits of a live word: a hardware event (R35). -/
def evOr (a m : Nat) (s : State) : State := setLv a (lv s a ||| wd m) s

/-- Clear bits of a live word. -/
def lvClr (a m : Nat) (s : State) : State := setLv a (lv s a &&& ~~~(wd m)) s

/-- Count up an n-bit field of a live word, saturating (R36). -/
def ctrUp (a lo n : Nat) (s : State) : State :=
  let w := lvn s a
  if nfld w lo n < 2 ^ n - 1 then setLv a (wd (w + 2 ^ lo)) s else s

/-- The shadow copy of a register word. -/
def shv (s : State) (a : Nat) : Word := tabGet resetOf s.hub.shadow a

/-- A signed field of a live word. -/
def lsgn (s : State) (a lo n : Nat) : Int := sgn n (lf s a lo n)

/-- A draw of a free value: the state's counter and a key name it.
[DESIGN CHOICE, safe: log entry 3] -/
def draw (site : Site) (key : Nat) (s : State) : Nat := Config.freeNat site (s.free * 2 ^ 64 + key)

/-- A quotient whose rounding the spec does not state: exact where it is exact, else one of its two neighbours.
[DESIGN CHOICE, safe: log entry 9] -/
def looseDiv (site : Site) (key : Nat) (s : State) (a : Int) (d : Nat) : Int :=
  if a % (d : Int) = 0 then a / (d : Int) else a / (d : Int) + ((draw site key s % 2 : Nat) : Int)

/-- Round to nearest; which way an exact half goes is free.
[DESIGN CHOICE, safe: log entry 9] -/
def nearDiv (site : Site) (key : Nat) (s : State) (a : Int) (d : Nat) : Int :=
  if isHalf a d then a / (d : Int) + ((draw site key s % 2 : Nat) : Int) else roundDiv a d

/-! ### Fabric time (R56 to R67) -/

/-- Cycles per second of the rate family (R66). -/
def famF (s : State) : Nat := if lb s 0x40070000 0 then 22050 else 24000

/-- Samples per cycle (R68). -/
def spc (s : State) : Nat :=
  match lf s 0x40070000 8 2 with
  | 1 => 2
  | 3 => 8
  | _ => 4

/-- Units of 2^-16 ns in one second. -/
def secU : Nat := 65536 * 1000000000

/-- FT at an LC value with `q` eighths of a tick (R57). -/
def ftOf (offset : Nat) (rate : Int) (lc q : Nat) : Nat :=
  unsgn 96 (((offset : Int) * 2 ^ 51 + (lc * 8 + q : Nat) * 131072 * (2 ^ 48 + rate)) / 2 ^ 51)

/-- Fabric time now. -/
def ftNow (s : State) : Nat := ftOf s.time.offset s.time.rate s.time.lc 0

/-- The first LC tick at which FT reaches a value. -/
def lcForFt (s : State) (target : Nat) : Nat :=
  if target ≤ s.time.offset then 0
  else ceilDiv ((target - s.time.offset) * 2 ^ 48) (131072 * (2 ^ 48 + s.time.rate).toNat)

/-- Local time has reached at least `lc` (events carry the time they occur at).
[DESIGN CHOICE, unsafe: log entry 2] -/
def atLc (lc : Nat) (s : State) : State := { s with time.lc := max s.time.lc lc }

/-- Fabric time has reached at least `ft`.
[DESIGN CHOICE, unsafe: log entry 2] -/
def atFt (ft : Nat) (s : State) : State := atLc (lcForFt s ft) s

/-- FT of the boundary of cycle k (R14, R66). -/
def cycleFt (s : State) (k : Nat) : Nat := ceilDiv (k * secU) (famF s)

/-- The cycle a fabric time lies in. -/
def cycleOfFt (s : State) (ft : Nat) : Nat := ft * famF s / secU

/-- Whole nanoseconds since the boundary of the present cycle (GRAT.POS). -/
def nsInCycle (s : State) : Nat :=
  (ftNow s * famF s - s.grat.cycle * secU) / (famF s * 65536)

/-- The present gate window (R67). -/
def windowNow (s : State) : Nat :=
  min 63 ((ftNow s * famF s - s.grat.cycle * secU) * 64 / secU)

/-- PTP form of FT: NS, SECLO and SECHI words (R59). -/
def ftWords (ft : Nat) : List Word :=
  let ns := ft / 65536
  let sec := ns / 1000000000
  [wd (ns % 1000000000), wd ((sec % 65536) * 65536 + ft % 65536), wd (sec / 65536)]

/-- FT from the PTP words. -/
def ftOfWords (ns seclo sechi : Nat) : Nat :=
  ((sechi * 65536 + seclo / 65536) * 1000000000 + ns) * 65536 + seclo % 65536

/-- Picoseconds to 2^-16 ns, rounded to nearest (R60). 65.536 is 8192/125, so no half arises. -/
def psToU (ps : Int) : Int := roundDiv (ps * 8192) 125

/-! ### Faults -/

/-- Detect a fault: it is stamped now and placed when the clock's faults are (R442, R447). -/
def raise (code cls : Nat) (inst : Nat) (arg : Nat) (s : State) : State :=
  { s with flt.fresh := s.flt.fresh ++
      [{ code := code, cls := cls, inst := inst, arg := wd arg, cycle := s.grat.cycle, ns := nsInCycle s }] }

/-- The boot ROM has sealed the node (R430). -/
def isSealed (s : State) : Bool := lb s 0x40030008 0

/-- A protection violation is recorded (R37, R38). -/
def violation (m a : Nat) (s : State) : State :=
  let w := lvn s 0x40020100
  let s1 := if nbit w 31 then s
    else setLv 0x40020104 (wd a) (setLv 0x40020108 (wd m) s)
  let s2 := evOr 0x40020100 0x80000000 (ctrUp 0x40020100 0 8 s1)
  if lb s 0x4002010C 0 then raise 0x0210 1 m a s2 else s2

/-- A capture of the bus matrix: FLAG and COUNT, and the first access (R464 to R466). -/
def busCapture (base : Nat) (code cls : Nat) (m a : Nat) (info : Nat) (s : State) : State :=
  let w := lvn s base
  let s1 := if nbit w 31 then s
    else raise code cls m a (setLv (base + 4) (wd a) (setLv (base + 8) (wd info) s))
  evOr base 0x80000000 (ctrUp base 0 16 s1)

/-- Survey counter i of block b counts n events (R469, R470); nothing counts while frozen (R478).
[DEDUCED, unsafe: log entry 106] -/
def srvUp (b i n : Nat) (s : State) : State :=
  if n = 0 || s.srv.frozen then s
  else { s with srv.ctr := tset 0 s.srv.ctr (b * 8 + i) ((tget 0 s.srv.ctr (b * 8 + i) + n) % 2 ^ 48) }

/-- A decode error (R464). -/
def decodeErr (m a : Nat) (wr : Bool) (s : State) : State :=
  srvUp 31 2 1 (busCapture 0x401F0060 0x1F10 1 m a (m + bitAt 8 wr) s)

/-- Counter i of core k's clock account (R471). -/
def srvCore (k i n : Nat) (s : State) : State :=
  if n = 0 || s.srv.frozen then s
  else { s with srv.core := tset 0 s.srv.core (k * 8 + i) ((tget 0 s.srv.core (k * 8 + i) + n) % 2 ^ 48) }

/-! ### Memory -/

/-- What a byte of memory that nothing has written reads as: the reset contents the spec gives for the SOS array,
the delay-line table and the gate schedules (R75, R149, R160), else 0.
[DESIGN CHOICE, unsafe: log entry 4] -/
def memReset (a : Nat) : Byte :=
  if 0x30700000 ≤ a && a < 0x30740000 then
    if a % 0x10000 < 0x600 then
      match a % 32 / 8 with
      | 1 => if a % 8 = 0 then 1 else 0
      | 2 => if a % 8 = 0 then 0xFE else 0xFF
      | _ => 0
    else 0
  else if 0x30400000 ≤ a && a < 0x30500000 then (if a % 32 = 3 then 0x40 else 0)
  else if 0x30500000 ≤ a && a < 0x30501000 then (if a % 16 = 5 then 1 else 0)
  else 0

/-- The reset word of an array address. -/
def arrReset (a : Nat) : Word :=
  wd (leNat [memReset a, memReset (a + 1), memReset (a + 2), memReset (a + 3)])

/-- The live copy of a parameter-array word. -/
def arrLv (s : State) (a : Nat) : Word := tabGet arrReset s.hub.arr a

/-- Write the live copy of a parameter-array word. -/
def setArr (a : Nat) (v : Word) (s : State) : State := { s with hub.arr := tabSet arrReset s.hub.arr a v }

/-- The canonical form of memory: addresses strictly rising, and no entry equal to what an unlisted address reads as. -/
def Memory.wf (m : List Host.Cell) : Bool := tabWf memReset m

/-- One byte of memory. -/
def mByte (s : State) (a : Nat) : Byte := tabGet memReset s.mem a

/-- Store one byte. -/
def mStore (a : Nat) (v : Byte) (s : State) : State := { s with mem := tabSet memReset s.mem a v }

/-- `n` bytes from `a`. -/
def mBytes (s : State) (a : Nat) : Nat → List Byte
  | 0 => []
  | n + 1 => mByte s a :: mBytes s (a + 1) n

/-- Store bytes from `a` up. -/
def mStores (a : Nat) : List Byte → State → State
  | [], s => s
  | b :: t, s => mStores (a + 1) t (mStore a b s)

/-- A little-endian 32-bit word of memory. -/
def mWord (s : State) (a : Nat) : Nat := leNat (mBytes s a 4)

/-- Store a little-endian 32-bit word. -/
def mStoreW (a v : Nat) (s : State) : State := mStores a (leBytes 4 v) s

/-- Store words from `a` up. -/
def mStoreWs (a : Nat) : List Nat → State → State
  | [], s => s
  | v :: t, s => mStoreWs (a + 4) t (mStoreW a v s)

/-- Every effect of a list in turn. -/
def foldS {α : Type} (l : List α) (f : α → State → State) (s : State) : State := l.foldl (fun t a => f a t) s

/-- An effect under a condition. -/
def whenS (c : Bool) (f : State → State) (s : State) : State := if c then f s else s

end Sys2Proof.Machine
end

