-- ==== Sys2Proof/Machine/Operands.lean ====
section
/-! DEFINITION. Narix operand forms: registers, effective addresses and post-modification, slots, sources and
destinations of a packet, landing of results (R172 to R188). -/

namespace Sys2Proof.Machine

def coreGet (s : State) (k : Nat) : NCore := tget {} s.core k
def corePut (k : Nat) (c : NCore) (s : State) : State := { s with core := tset {} s.core k c }

def vGet (c : NCore) (n : Nat) : Word := tget 0 c.v n
def accGet (c : NCore) (n : Nat) : Int := tget 0 c.acc n

/-- Read an address-side register. -/
def fileGet (c : NCore) (f : AFile) (n : Nat) : Word :=
  match f with
  | .a => tget 0 c.a n
  | .m => tget 0 c.m n
  | .l => tget 0 c.l n
  | .b => tget 0 c.b n

/-- Write an address-side register; a G-slot result is visible to the next packet (R188). -/
def fileSet (f : AFile) (n : Nat) (v : Word) (c : NCore) : NCore :=
  match f with
  | .a => { c with a := tset 0 c.a n v }
  | .m => { c with m := tset 0 c.m n v }
  | .l => { c with l := tset 0 c.l n v }
  | .b => { c with b := tset 0 c.b n v }

/-- The slot of an operation (R179). -/
def slotOfOp : SlotOp → Slot
  | .nop | .jmp _ | .call _ | .ret | .rep _ _ | .brk | .waitCycle | .sync | .iret | .user | .wfi | .trap _ => .c
  | .cx _ _ _ _ _ _ | .re _ _ _ _ _ | .mac2 _ _ _ _ | .aclr _ _ | .rnd _ _ _ _ | .sat _ _ _ _ => .m
  | .alu2 _ _ _ _ | .alu1 _ _ _ | .shift _ _ _ _ | .movi _ _ | .movh _ _ | .cmp _ _ _ _ | .sel _ _ _ _
  | .mrd _ _ | .mwr _ | .movs _ => .a
  | .aaddI _ _ | .aaddM _ _ | .amod _ _ _ | .amov _ _ _ | .amovi _ _ _ => .g
  | .ld _ slot _ _ | .st _ slot _ _ =>
    match slot with
    | .x => .x
    | .y => .y
    | .z => .z
  | .undef slot => slot

/-! ### Effective addresses (R183, R184) -/

/-- Sign-extend an immediate to a word. -/
def sextW {n : Nat} (v : BitVec n) : Word := v.signExtend 32

/-- Reverse the low n bits of a number. -/
def revBits : Nat → Nat → Nat
  | 0, _ => 0
  | n + 1, v => (v % 2) * 2 ^ n + revBits n (v / 2)

/-- log2 of a power of two from 8 to 65,536, else none. -/
def log2Len (l : Nat) : Option Nat := (List.range 17).find? (fun k => 3 ≤ k && 2 ^ k == l)

/-- An after a circular post-modify (R183). -/
def circNext (a m l b : Word) : Word :=
  if l = 0 then a + m
  else
    let o : Int := (a - b).toNat
    let r := (o + m.toInt) % (l.toNat : Int)
    b + BitVec.ofNat 32 r.toNat

/-- An after a bit-reversed post-modify, for Ln = 2^k: the carry runs from bit k − 1 toward bit 0 (R184). -/
def bitrevNext (k : Nat) (a m b : Word) : Word :=
  let o := (a - b).toNat % 2 ^ k
  let sum := (revBits k o + revBits k (m.toNat % 2 ^ k)) % 2 ^ k
  b + BitVec.ofNat 32 (revBits k sum)

/-- The address register an effective address names. -/
def eaReg : Ea → Nat
  | .ind n | .idx n _ | .postImm n _ | .postMod n _ | .circ n _ | .bitrev n _ => n.val

/-- Does the form post-modify An? -/
def eaModifies : Ea → Bool
  | .ind _ | .idx _ _ => false
  | _ => true

/-- The address used. -/
def eaAddr (c : NCore) : Ea → Word
  | .idx n j => tget 0 c.a n + tget 0 c.m j
  | e => tget 0 c.a (eaReg e)

/-- Does the form raise MISALIGN by its buffer length (R184)?
[DEDUCED, unsafe: log entry 59] -/
def eaBadLen (c : NCore) : Ea → Bool
  | .bitrev n _ => (log2Len (tget 0 c.l n).toNat).isNone
  | _ => false

/-- An after the access (R183). -/
def eaNext (c : NCore) : Ea → Word
  | .ind n => tget 0 c.a n
  | .idx n _ => tget 0 c.a n
  | .postImm n imm => tget 0 c.a n + sextW imm
  | .postMod n j => tget 0 c.a n + tget 0 c.m j
  | .circ n j => circNext (tget 0 c.a n) (tget 0 c.m j) (tget 0 c.l n) (tget 0 c.b n)
  | .bitrev n j =>
    bitrevNext ((log2Len (tget 0 c.l n).toNat).getD 0) (tget 0 c.a n) (tget 0 c.m j) (tget 0 c.b n)

/-! ### Where an address leads (R172, R205) -/

/-- Is a cluster core's address in its own X, Y or Z memory? -/
def ownLocal (a : Nat) : Bool := decide (a < 0x30000)

/-- Is a supervisor address in supervisor RAM? -/
def inSupRam (a : Nat) : Bool := decide (0x40000 ≤ a) && decide (a < 0xC0000)

/-- Does the access reach local memory directly? -/
def isLocal (k a : Nat) : Bool := if k = 32 then inSupRam a else ownLocal a

/-- The byte address in `mem` of a local access. -/
def localAddr (k a : Nat) : Nat := if k = 32 then a else 0x20000000 + k * 0x40000 + a

/-- MISALIGN of an access: alignment, or an address barred from the slot (R172, R185, R205). -/
def accessBad (k : Nat) (slot : MemSlot) (dbl : Bool) (a : Nat) : Bool :=
  a % (if dbl then 8 else 4) != 0 ||
    (if k = 32 then !inSupRam a && slot != .z
     else (decide (0x30000 ≤ a) && decide (a < 0x40000)) || (decide (0x40000 ≤ a) && slot != .z))

/-- The bank an access uses: memory and bank number (R174, R205). -/
def bankOf (k a : Nat) : Nat := if k = 32 then a / 8 % 8 else a / 0x10000 * 4 + a / 8 % 4

/-- Extra clocks of the packet: each further access to a bank already used (R174). -/
def bankStalls : List Nat → Nat
  | [] => 0
  | b :: t => b2n (t.contains b) + bankStalls t

/-! ### Sources and destinations -/

def shSrc : ShAmt → List Nat
  | .imm _ => []
  | .reg v => [v.val]

/-- V registers an operation reads. -/
def opVSrc : SlotOp → List Nat
  | .jmp (.reg v) => [v.val]
  | .rep (.reg v) _ => [v.val]
  | .cx _ _ x y _ _ => [x.val, x.val + 1, y.val, y.val + 1]
  | .re _ _ a b _ => [a.val, b.val]
  | .mac2 _ x y _ => [x.val, x.val + 1, y.val, y.val + 1]
  | .alu2 _ _ a b => [a.val, b.val]
  | .alu1 _ _ a => [a.val]
  | .shift _ _ a n => a.val :: shSrc n
  | .movh d _ => [d.val]
  | .cmp _ _ a b => [a.val, b.val]
  | .sel _ a b _ => [a.val, b.val]
  | .mwr a => [a.val]
  | .movs (.write _ a) => [a.val]
  | .mrd _ .flags => [32]
  | .amov _ _ v => [v.val]
  | .st w _ v _ => if w then [v.val] else [v.val, v.val + 1]
  | _ => []

/-- Accumulators an operation reads with latency 3 (R188). -/
def opAccSrc : SlotOp → List Nat
  | .rnd p _ n _ | .sat p _ n _ => if p then [n.val, n.val + 1] else [n.val]
  | .mrd _ (.accLo n) | .mrd _ (.accHi n) | .mrd _ (.accTop n) => [n.val]
  | _ => []

/-- V registers an operation writes. -/
def opVDst : SlotOp → List Nat
  | .rnd p d _ _ | .sat p d _ _ => if p then [d.val, d.val + 1] else [d.val]
  | .alu2 _ d _ _ | .alu1 _ d _ | .shift _ d _ _ | .movi d _ | .movh d _ | .sel d _ _ _ | .mrd d _ => [d.val]
  | .movs (.read d _) => [d.val]
  | .ld w _ d _ => if w then [d.val] else [d.val, d.val + 1]
  | _ => []

/-- Accumulators an operation writes. -/
def opAccDst : SlotOp → List Nat
  | .cx _ p _ _ _ _ | .mac2 p _ _ _ => [p.val, p.val + 1]
  | .re _ n _ _ _ => [n.val]
  | .aclr p n => if p then [n.val, n.val + 1] else [n.val]
  | _ => []

/-- The effective address of a memory operation. -/
def opEa : SlotOp → Option Ea
  | .ld _ _ _ ea | .st _ _ _ ea => some ea
  | _ => none

/-- Address-side registers the G slot writes: file and number. -/
def opGDst : SlotOp → List (AFile × Nat)
  | .aaddI n _ | .aaddM n _ | .amod n _ _ => [(.a, n.val)]
  | .amov f n _ | .amovi f n _ => [(f, n.val)]
  | _ => []

/-- Pairs an operation names: each must start even (R181). -/
def opPairsOk : SlotOp → Bool
  | .cx _ p x y _ _ => p.val % 2 == 0 && x.val % 2 == 0 && y.val % 2 == 0
  | .mac2 p x y _ => p.val % 2 == 0 && x.val % 2 == 0 && y.val % 2 == 0
  | .aclr p n => !p || n.val % 2 == 0
  | .rnd p d n _ | .sat p d n _ => !p || (d.val % 2 == 0 && n.val % 2 == 0)
  | .ld w _ d _ => w || d.val % 2 == 0
  | .st w _ v _ => w || v.val % 2 == 0
  | _ => true

/-- Is the operation privileged (R206)? -/
def opPriv : SlotOp → Bool
  | .movs _ | .iret | .user | .wfi => true
  | _ => false

/-- Does the operation stand in a slot that does not accept it, or is it undefined? TRAP is the supervisor's. -/
def opBadSlot (k : Nat) : SlotOp → Bool
  | .undef _ => true
  | .st _ slot _ _ => slot != .z
  | .trap _ => k != 32
  | _ => false

/-- No value twice in a list. -/
def noRepeat {α : Type} [DecidableEq α] : List α → Bool
  | [] => true
  | a :: t => !t.contains a && noRepeat t

/-- The check at issue (R181): ILLEGAL, with no slot executed. `user` is USER mode of the supervisor.
[DEDUCED, unsafe: log entry 54] -/
def packetIllegal (k : Nat) (user : Bool) (ops : List SlotOp) : Bool :=
  let eas := ops.filterMap opEa
  let gd := ops.flatMap opGDst
  let mods := (eas.filter eaModifies).map eaReg
  ops.any (opBadSlot k) || !noRepeat (ops.map slotOfOp)
    || !noRepeat (ops.flatMap opVDst) || !noRepeat (ops.flatMap opAccDst)
    || !noRepeat mods
    || gd.any (fun g => eas.any (fun e => eaReg e == g.2))
    || ops.any (fun o => opPriv o && (k != 32 || user))
    || !ops.all opPairsOk

/-! ### Landing (R182, R188) -/

/-- Insert a result by landing clock, after every earlier-issued one of that clock. -/
def flightAdd (f : Flight) : List Flight → List Flight
  | [] => [f]
  | g :: t => if f.land < g.land then f :: g :: t else g :: flightAdd f t

/-- Apply one landed result. -/
def landOne (c : NCore) (f : Flight) : NCore :=
  if f.reg = 32 then { c with flags := c.flags ||| 0x100#32 } else { c with v := tset 0 c.v f.reg f.val }

/-- Apply every result that has landed by clock t. -/
def landTo (t : Nat) (c : NCore) : NCore :=
  let r := c.flight.foldl (fun c f => if f.land ≤ t then landOne c f else c) c
  { r with flight := c.flight.filter (fun f => decide (t < f.land)) }

/-- Apply every result in flight. -/
def landAll (c : NCore) : NCore := { c.flight.foldl landOne c with flight := [] }

/-- The clock at which a packet can issue: when every source is visible (R188). -/
def readyAt (c : NCore) (ops : List SlotOp) : Nat :=
  let vs := ops.flatMap opVSrc
  let as := ops.flatMap opAccSrc
  let t1 := c.flight.foldl (fun t f => if vs.contains f.reg then max t f.land else t) c.cyc
  as.foldl (fun t n => max t (tget 0 c.accVis n)) t1

end Sys2Proof.Machine
end

