-- ==== Sys2Proof/Machine/Flags.lean ====
section
/-! DEFINITION. Narix arithmetic and flags: A-slot results with Z, N, C, V and SAT, M-slot products and extraction
(R178, R186, R187, R190, R191). -/

namespace Sys2Proof.Machine

/-- FLAGS with Z and N of a result (R178). -/
def flagsZN (f r : Word) : Word :=
  (f &&& 0xFFFFFFFC#32) ||| wd (bitAt 0 (r == 0) + bitAt 1 (bit r 31))

/-- FLAGS with C and V. -/
def flagsCV (f : Word) (c v : Bool) : Word := (f &&& 0xFFFFFFF3#32) ||| wd (bitAt 2 c + bitAt 3 v)

/-- FLAGS with SAT set when `b`. -/
def flagsSat (f : Word) (b : Bool) : Word := if b then f ||| 0x100#32 else f

/-- Signed range test of an exact sum. -/
def overI32 (v : Int) : Bool := satI 32 v != v

/-- Two-operand A-slot operations: result and FLAGS (R191). C of SUB is NOT borrow. -/
def alu2Fx (o : Alu2) (a b f : Word) : Word × Word :=
  match o with
  | .add =>
    let r := a + b
    (r, flagsCV (flagsZN f r) (decide (2 ^ 32 ≤ a.toNat + b.toNat)) (overI32 (a.toInt + b.toInt)))
  | .sub =>
    let r := a - b
    (r, flagsCV (flagsZN f r) (decide (b.toNat ≤ a.toNat)) (overI32 (a.toInt - b.toInt)))
  | .adds =>
    let e := a.toInt + b.toInt
    let r := wd (unsgn 32 (satI 32 e))
    (r, flagsSat (flagsZN f r) (overI32 e))
  | .subs =>
    let e := a.toInt - b.toInt
    let r := wd (unsgn 32 (satI 32 e))
    (r, flagsSat (flagsZN f r) (overI32 e))
  | .and => let r := a &&& b; (r, flagsZN f r)
  | .or => let r := a ||| b; (r, flagsZN f r)
  | .xor => let r := a ^^^ b; (r, flagsZN f r)
  | .min => let r := if a.toInt ≤ b.toInt then a else b; (r, f)
  | .max => let r := if a.toInt ≤ b.toInt then b else a; (r, f)

/-- Count of leading zeros of the low n bits. -/
def clzN : Nat → Nat → Nat
  | 0, _ => 0
  | n + 1, v => if nbit v n then 0 else 1 + clzN n v

/-- One-operand A-slot operations. NEG and ABS set the flags of the subtraction from 0 that they are (R191);
ABS of a value that is not negative is that value with C = V = 0. -/
def alu1Fx (o : Alu1) (a f : Word) : Word × Word :=
  match o with
  | .neg => alu2Fx .sub 0 a f
  | .abs =>
    if bit a 31 then alu2Fx .sub 0 a f
    else (a, flagsCV (flagsZN f a) false false)
  | .not => let r := ~~~a; (r, flagsZN f r)
  | .clz => (wd (clzN 32 a.toNat), f)
  | .mov => (a, f)

/-- Shifts by 0 to 31 (R191). -/
def shiftFx (o : ShOp) (a : Word) (n : Nat) (f : Word) : Word × Word :=
  let r := match o with
    | .shl => a <<< n
    | .shr => a >>> n
    | .shra => a.sshiftRight n
  (r, flagsZN f r)

/-- A comparison (R191). -/
def ccHolds (cc : Cc) (a b : Word) : Bool :=
  match cc with
  | .eq => a == b
  | .ne => a != b
  | .lt => decide (a.toInt < b.toInt)
  | .le => decide (a.toInt ≤ b.toInt)
  | .gt => decide (b.toInt < a.toInt)
  | .ge => decide (b.toInt ≤ a.toInt)
  | .lo => decide (a.toNat < b.toNat)
  | .hs => decide (b.toNat ≤ a.toNat)

/-- FLAGS with predicate p set to a value: P3–P0 are bits 7–4. -/
def flagsP (f : Word) (p : Nat) (b : Bool) : Word :=
  (f &&& ~~~(wd (2 ^ (4 + p)))) ||| wd (bitAt (4 + p) b)

/-- The shift of a product (R186). -/
def mulShift : MulMode → Nat
  | .int => 0
  | .q31 => 1
  | .q30 => 2

/-- A shifted product of two signed words. -/
def prod (mode : MulMode) (a b : Word) : Int := a.toInt * b.toInt * (2 ^ mulShift mode : Nat)

/-- Wrap to 72 bits (R187). -/
def wrap72 (v : Int) : Int := sgn 72 (unsgn 72 v)

/-- Extraction of an accumulator: shift, round or truncate, clamp; and whether it clamped (R187). -/
def extract (rounding : Bool) (sh : Nat) (v : Int) : Word × Bool :=
  let w := if rounding && 0 < sh then v + (2 ^ (sh - 1) : Nat) else v
  let r := w / (2 ^ sh : Nat)
  (wd (unsgn 32 (satI 32 r)), overI32 r)

/-- The complex product sums of R190: real and imaginary parts, with y conjugated by CJ. -/
def cxProd (mode : MulMode) (cj : Bool) (xr xi yr yi : Word) : Int × Int :=
  let im : Int := if cj then -yi.toInt else yi.toInt
  let k : Int := (2 ^ mulShift mode : Nat)
  ((xr.toInt * yr.toInt - xi.toInt * im) * k, (xr.toInt * im + xi.toInt * yr.toInt) * k)

end Sys2Proof.Machine
end

