-- ==== Sys2Proof/Machine/Hub.lean ====
section
/-! DEFINITION. STOP fields held pending, and where they apply (R41). -/

namespace Sys2Proof.Machine

/-- The STOP bits of a register word (R10). -/
def stopMask (a : Nat) : Word :=
  match rowOf a with
  | some r => wd r.stop
  | none => 0

/-- The pending STOP fields of word `a` within `m` take effect (R41). -/
def pendApplyMask (a : Nat) (m : Word) (s : State) : State :=
  match tget none s.hub.pend a with
  | none => s
  | some v =>
    let s1 := setLv a (mergeW (lv s a) v (stopMask a &&& m)) s
    if lv s1 a &&& stopMask a = v &&& stopMask a then { s1 with hub.pend := tset none s1.hub.pend a none } else s1

/-- All pending STOP fields of word `a` take effect. -/
def pendApply (a : Nat) (s : State) : State := pendApplyMask a 0xFFFFFFFF s

/-- Is a STOP field of word `a` pending? -/
def pendAt (s : State) (a : Nat) : Bool := (tget none s.hub.pend a).isSome

/-- The node is a sealed pair member (R342). -/
def paired (s : State) : Bool := isSealed s && lb s 0x400F0000 31

/-- The update group of window b (R43). -/
def grpOf (s : State) (b : Nat) : Nat := lf s (0x40000040 + 4 * b) 0 5

/-- A commit request of group g for a target cycle, 0 = the next boundary (R45, R46). -/
def commitReq (g at_ : Nat) (s : State) : State :=
  whenS (tget none s.hub.commits g).isSome (evOr 0x4000002C 2)
    { s with hub.commits := tset none s.hub.commits g (some at_) }

/-- The OUT unit of channel n, or another unit, is in its safe action (R55). -/
def unitSafe (s : State) (b u : Nat) : Bool := s.hub.safeUnits.contains (b * 256 + u)

/-- Block b is in its safe action as a whole. -/
def blockSafe (s : State) (b : Nat) : Bool := unitSafe s b 255

end Sys2Proof.Machine
end

