-- ==== Sys2Proof/Machine/Guard.lean ====
section
/-! DEFINITION. Who may reach what on the bus: master IDs, power domains, the populated address map, the firewall
(R30, R39, R399, R401, R433). -/

namespace Sys2Proof.Machine

/-- Master IDs (R39). -/
def masterId : Master → Nat
  | .sup => 0
  | .dma c => 1 + c.val
  | .core c _ => 5 + c.val
  | .fabric => 9
  | .host => 10
  | .debug => 11
  | .srv => 12

def domGet (s : State) (d : Nat) : Dom := tget {} s.pwr.dom d
def domPut (d : Nat) (x : Dom) (s : State) : State := { s with pwr.dom := tset {} s.pwr.dom d x }

/-- A domain works only while it is ON; CG is below ON. -/
def domOn (s : State) (d : Nat) : Bool := (domGet s d).st == 3

/-- The domain of a register window (R399); none for ZEP. -/
def winDom (b : Nat) : Option Nat :=
  if b ≤ 4 || b = 29 || b = 30 || b = 31 then some 0
  else if 5 ≤ b && b ≤ 7 then some 1
  else if b = 12 || b = 13 || b = 15 then some 2
  else if b = 8 || b = 9 then some 3
  else if b = 10 || b = 11 then some 4
  else if b = 14 then some 5
  else if b = 16 || b = 17 || b = 20 then some 6
  else if b = 18 || b = 19 then some 7
  else if 21 ≤ b && b ≤ 24 then some (9 + (b - 21))
  else if b = 25 || b = 26 then some 13
  else if b = 27 || b = 28 then some 14
  else none

/-- The register windows of a domain. -/
def domWins (d : Nat) : List Nat := (List.range 33).filter (fun b => winDom b == some d)

/-- Capacity limits of a parameter array that depend on the node rate: inputs per bus, SOS sections (R137, R149). -/
def arrInputs (s : State) : Nat := 4096 / spc s
def arrSections (s : State) : Nat := 65536 / spc s

/-- The domain that serves a memory address, none where R30 populates nothing. -/
def memDom (s : State) (a : Nat) : Option Nat :=
  if a < 0x20000 then some 0
  else if 0x40000 ≤ a && a < 0xC0000 then some 0
  else if 0x100000 ≤ a && a < 0x500000 then some 0
  else if 0x08000000 ≤ a && a < 0x08400000 then some (9 + a % 0x08000000 / 0x100000)
  else if 0x10000000 ≤ a && a < 0x12000000 then some 8
  else if 0x20000000 ≤ a && a < 0x20800000 then some (9 + a % 0x20000000 / 0x200000)
  else if 0x30000000 ≤ a && a < 0x30400000 then
    (if a / 8 % 2048 < arrInputs s then some 6 else none)
  else if 0x30400000 ≤ a && a < 0x30500000 then
    (if a % 0x100000 / 32 < arrSections s then some 7 else none)
  else if 0x30500000 ≤ a && a < 0x30501000 then some 7
  else if 0x30600000 ≤ a && a < 0x30640000 then some 2
  else if 0x30700000 ≤ a && a < 0x30740000 then (if a % 0x8000 < 0x600 then some 2 else none)
  else if 0x50000000 ≤ a && a < 0x52000000 then (if lb s 0x40030020 0 then some 0 else none)
  else none

/-- Does an access to the address decode: is it populated and its domain ON (R30, R401)? -/
def decodes (s : State) (a : Nat) : Bool :=
  if isReg a then
    match winDom (winOf a) with
    | some d => domOn s d
    | none => true
  else
    match memDom s a with
    | some d => domOn s d
    | none => false

/-- Base of PROT.FW[r]. -/
def fwBase (r : Nat) : Nat := 0x40020200 + r * 0x10

/-- The firewall's answer for a denied access: the INFO bits of FWERR_MASTER; none = allowed (R433). -/
def fwDeny (s : State) (m a : Nat) (wr : Bool) : Option Nat :=
  if !isSealed s then none
  else
    let hit := (List.range 16).find? (fun r =>
      lb s (fwBase r) 0 && decide (lvn s (fwBase r) / 4096 ≤ a / 4096) && decide (a / 4096 ≤ lvn s (fwBase r + 4) / 4096))
    match hit with
    | some r => if lb s (fwBase r + 8) (2 * m + b2n wr) then none else some (r * 65536)
    | none => if lb s 0x40020000 4 then some (2 ^ 20) else none

/-- A firewall denial is captured (R465). -/
def fwErr (m a : Nat) (wr : Bool) (info : Nat) (s : State) : State :=
  srvUp 31 3 1 (busCapture 0x401F0070 0x1F11 1 m a (m + bitAt 8 wr + info) s)

/-- May the fabric DMA (master 9) reach every byte of a range? -/
def dmaOk (s : State) (a n : Nat) (wr : Bool) : Bool :=
  n = 0 || (decodes s a && decodes s (a + n - 1) && (fwDeny s 9 a wr).isNone && (fwDeny s 9 (a + n - 1) wr).isNone && !isReg a)

/-- A failed access of the fabric DMA is recorded as the bus rule gives. -/
def dmaErr (a : Nat) (wr : Bool) (s : State) : State :=
  match fwDeny s 9 a wr with
  | some i => fwErr 9 a wr i s
  | none => decodeErr 9 a wr s

end Sys2Proof.Machine
end

