-- ==== Sys2Proof/Machine/TimeBase.lean ====
section
/-! DEFINITION. The timebase: rate changes, timed events, PPS, capture inputs, transmit timestamps, common start
(R56 to R84). -/

namespace Sys2Proof.Machine

/-- Change RATE; OFFSET keeps FT continuous (R58).
[DESIGN CHOICE, safe: log entry 8] -/
def setRate (r : Int) (s : State) : State :=
  let d := (s.time.lc * 131072 : Nat) * (s.time.rate - r)
  { s with time.rate := r,
           time.offset := unsgn 96 ((s.time.offset : Int) + nearDiv .rateTie 0 s d (2 ^ 48)) }

/-- Base address of TEV[n]. -/
def tevBase (n : Nat) : Nat := 0x40060100 + n * 0x40

/-- One TEV output. -/
def tevGet (s : State) (n : Nat) : Tev := tget {} s.time.tev n

/-- Store one TEV output. -/
def tevPut (n : Nat) (t : Tev) (s : State) : State := { s with time.tev := tset {} s.time.tev n t }

/-- The schedule that the TEV registers hold now (R76). -/
def tevRegs (s : State) (n : Nat) : TevSched :=
  let b := tevBase n
  { periodic := lf s b 0 2 == 1, base := lf s b 4 2, activeLow := lb s b 8,
    start := ftOfWords (lvn s (b + 4)) (lvn s (b + 8)) (lvn s (b + 12)),
    period := lvn s (b + 16), width := lvn s (b + 20) }

/-- Denominator of a schedule's edge times: 1 for ns, F for cycles, F × S for samples (R77). -/
def tevDen (s : State) (c : TevSched) : Nat :=
  match c.base with
  | 1 => famF s
  | 2 => famF s * spc s
  | _ => 1

/-- Numerator of the period over `tevDen`, in 2^-16 ns. -/
def tevPer (c : TevSched) : Nat := if c.base = 0 then c.period * 65536 else c.period * secU

/-- Fabric time of edge j with the applied offset, rounded up to a unit (R77, R79). -/
def tevEdgeFt (s : State) (n : Nat) (c : TevSched) (j : Nat) : Nat :=
  let d := tevDen s c
  let num : Int := ((c.start * d + j * tevPer c : Nat) : Int) * 1000 + tget 0 s.time.outOfs n * 65536 * d
  if num ≤ 0 then 0 else ceilDiv num.toNat (1000 * d)

/-- ARM's refusals (R76).
[DEDUCED, unsafe: log entry 38] -/
def tevBad (s : State) (n : Nat) : Bool :=
  let b := tevBase n
  let c := tevRegs s n
  (c.periodic && c.period == 0) || (c.base == 0 && c.periodic && c.period < 16) || 2 ≤ lf s b 0 2 || c.base == 3
    || (c.periodic && tevPer c ≤ c.width * 65536 * tevDen s c)

/-- Start a schedule on output n, which keeps the rest of `t`: a passed ONCE sets LATE, a passed PERIODIC keeps its
phase (R77). -/
def tevBegin (n : Nat) (c : TevSched) (t : Tev) (s : State) : State :=
  let now := ftNow s
  if now ≤ tevEdgeFt s n c 0 then
    tevPut n { t with armed := true, waiting := false, sched := c, nextJ := 0, next := none } s
  else if c.periodic then
    let lim := now + 1000 * 65536
    let d := tevDen s c
    let first : Int := (c.start * 1000 * d : Nat) + tget 0 s.time.outOfs n * 65536 * d
    let gap := ((lim * 1000 * d : Nat) : Int) - first
    let j := if gap ≤ 0 then 0 else ceilDiv gap.toNat (tevPer c * 1000)
    tevPut n { t with armed := true, waiting := false, sched := c, nextJ := j, next := none } s
  else
    evOr (tevBase n + 0x1C) 4 (tevPut n { t with armed := false, waiting := false, next := none } s)

/-- The ARM strobe (R76): the registers are taken as they stand; a member of a common start waits for it (R82). -/
def tevArmWr (n : Nat) (s : State) : State :=
  let b := tevBase n
  let t := tevGet s n
  if tevBad s n then
    evOr (b + 0x1C) 8 (tevPut n { t with armed := false, waiting := false, next := none, active := false } s)
  else if lb s 0x40070038 (16 + n) then
    tevPut n { t with armed := true, waiting := true, sched := tevRegs s n, next := none } s
  else if t.active && t.endLc.isSome then tevPut n { t with armed := false, waiting := false, next := some (tevRegs s n) } s
  else tevBegin n (tevRegs s n) { t with active := false } s

/-- The CANCEL strobe (R76). A pulse in progress completes; a level ends at once. -/
def tevCancelWr (n : Nat) (s : State) : State :=
  let t := tevGet s n
  tevPut n { t with armed := false, waiting := false, next := none, active := t.active && t.endLc.isSome } s

/-- A write of TEV[n].ARM. Both bits set is ignored (R76). -/
def tevStrobe (n : Nat) (v : Word) (s : State) : State :=
  if bit v 0 && bit v 1 then s
  else if bit v 0 then tevArmWr n s
  else if bit v 1 then tevCancelWr n s
  else s

/-- The next edge of output n fires (R77, R78).
[DESIGN CHOICE, unsafe: log entry 37] -/
def tevFire (n : Nat) (s : State) : State :=
  let t := tevGet s n
  if t.armed && !t.waiting then
    let s1 := atFt (tevEdgeFt s n t.sched t.nextJ) s
    let d := tevDen s t.sched
    let halfNs := ceilDiv (tevPer t.sched) (2 * 65536 * d)
    let wNs := if t.sched.width = 0 then halfNs else t.sched.width
    let level := !t.sched.periodic && t.sched.width == 0
    srvUp 6 1 1 <| evOr (tevBase n + 0x1C) 2
      (tevPut n { t with armed := t.sched.periodic, nextJ := t.nextJ + 1, active := true,
                         endLc := if level then none else some (s1.time.lc + ceilDiv wNs 2) } s1)
  else s

/-- A forward step suppresses the edges inside its span and sets SKIP; a ONCE event there sets LATE (R78).
After a backward step the next edge is simply later than the last one emitted. -/
def tevOnStep (n : Nat) (newFt : Nat) (s : State) : State :=
  let t := tevGet s n
  if t.armed && !t.waiting && tevEdgeFt s n t.sched t.nextJ < newFt then
    if t.sched.periodic then
      let c := t.sched
      let d := tevDen s c
      let first : Int := (c.start * 1000 * d : Nat) + tget 0 s.time.outOfs n * 65536 * d
      let gap := ((newFt * 1000 * d : Nat) : Int) - first
      let j := if gap ≤ 0 then 0 else ceilDiv gap.toNat (tevPer c * 1000)
      evOr (tevBase n + 0x1C) 16 (tevPut n { t with nextJ := max t.nextJ j } s)
    else evOr (tevBase n + 0x1C) 0x14 (tevPut n { t with armed := false } s)
  else s

/-- Fabric time of PPS second `x` with the applied offset. -/
def ppsFt (s : State) (x : Nat) : Nat :=
  let v : Int := (x * secU : Nat) + psToU (tget 0 s.time.outOfs 4)
  v.toNat

/-- The next whole second PPS_OUT selects (R79). -/
def ppsSecond (s : State) : Nat :=
  let div := max 1 (lf s 0x40060200 8 4)
  let cur : Int := (ftNow s : Int) - psToU (tget 0 s.time.outOfs 4)
  let x := max s.time.ppsNext (ceilDiv cur.toNat secU)
  ceilDiv x div * div

/-- PPS_OUT fires (R79).
[DESIGN CHOICE, unsafe: log entry 37] -/
def ppsFire (s : State) : State :=
  if lb s 0x40060200 0 then
    let x := ppsSecond s
    let s1 := atFt (ppsFt s x) s
    srvUp 6 1 1 <| evOr 0x4006020C 2 { s1 with time.ppsNext := x + 1, time.ppsOn := true,
                                               time.ppsEnd := s1.time.lc + ceilDiv (max 1 (lvn s 0x40060204)) 2 }
  else s

/-- A step of FT over a selected second sets SKIP (R78, R79). -/
def ppsOnStep (newFt : Nat) (s : State) : State :=
  if lb s 0x40060200 0 && ppsFt s (ppsSecond s) < newFt then evOr 0x4006020C 16 s else s

/-- A pulse returns to its inactive level at the end of its width, in local time (R77, R78); a schedule armed
during the pulse then starts (R76).
[DESIGN CHOICE, unsafe: log entry 37] -/
def pulseDone (o : PulseOut) (s : State) : State :=
  match o with
  | .pps => if s.time.ppsOn then { atLc s.time.ppsEnd s with time.ppsOn := false } else s
  | .tev n =>
    let t := tevGet s n
    match t.active, t.endLc with
    | true, some e =>
      match t.next with
      | some c => tevBegin n c { t with active := false, endLc := none } (atLc e s)
      | none => tevPut n { t with active := false, endLc := none } (atLc e s)
    | _, _ => s

/-- Present level of a TEV or PPS ball: active inverted by POL (R80). -/
def pulseLevel (s : State) : PulseOut → Bool
  | .pps => s.time.ppsOn != lb s 0x40060200 16
  | .tev n => (tevGet s n).active != (if (tevGet s n).armed || (tevGet s n).active then (tevGet s n).sched.activeLow else lb s (tevBase n) 8)

/-- Base address of TCAP[n]. -/
def tcapBase (n : Nat) : Nat := 0x40060300 + n * 0x20

/-- A capture edge (R81). -/
def tcapCapture (n : Nat) (rising : Bool) (quarter lenNs : Nat) (s : State) : State :=
  let c := tcapBase n
  let sel := if rising then lb s c 1 else lb s c 2
  if !(lb s c 0 && sel) || (lb s c 4 && lenNs < 8) then s
  else
    let q := tget [] s.time.tcap n
    if q.length < 16 then
      let e : CapEntry := { rising := rising, ts := ftOf s.time.offset s.time.rate s.time.lc quarter }
      srvUp 6 0 1 (srvUp 6 2 1 { s with time.tcap := tset [] s.time.tcap n (q ++ [e]) })
    else srvUp 6 0 1 (srvUp 6 2 1 (ctrUp (c + 0x14) 0 16 s))

/-- Pop a capture entry: the three words and the state (R81). -/
def tcapTake (n : Nat) (s : State) : List Word × State :=
  match tget [] s.time.tcap n with
  | [] => ([0, 0, 0], s)
  | e :: t => (ftWords e.ts, { s with time.tcap := tset [] s.time.tcap n t })

/-- Queue a transmit timestamp; a full FIFO drops it (R63).
[DEDUCED, unsafe: log entry 40] -/
def txfPush (p : Nat) (e : TxStamp) (s : State) : State :=
  let q := tget [] s.time.txf p
  srvUp 6 0 1 <| if q.length < 16 then { s with time.txf := tset [] s.time.txf p (q ++ [e]) }
  else { s with time.txDrop := tset 0 s.time.txDrop p (satInc 65535 (tget 0 s.time.txDrop p)) }

/-- Pop a transmit timestamp (R63).
[DEDUCED, unsafe: log entry 40] -/
def txfTake (p : Nat) (s : State) : List Word × State :=
  match tget [] s.time.txf p with
  | [] => ([0, 0, 0], s)
  | e :: t => (ftWords e.ts, { s with time.txf := tset [] s.time.txf p t })

/-! ### Common start (R82 to R84) -/

/-- A start is refused as late: LATE and a WARN, an ERROR on a pair member (R84). -/
def startLate (paired : Bool) (s : State) : State :=
  raise 0x0712 (if paired then 2 else 1) 255 0 (evOr 0x40070044 4 s)

/-- ARM written to GRAT.START_ARM (R83, R84). -/
def startArmWr (paired : Bool) (s : State) : State :=
  if lb s 0x4007003C 0 then
    { s with grat.armed := true, grat.src := true, grat.startCyc := none }
  else
    let k := lvn s 0x40070030 + lvn s 0x40070034 * 2 ^ 32
    if s.grat.cycle + 2 ≤ k then
      { s with grat.armed := true, grat.src := false, grat.startCyc := some k, grat.shownCyc := k }
    else startLate paired s

/-- A write of GRAT.START_ARM; both bits set is ignored (R83). -/
def startStrobe (paired : Bool) (v : Word) (s : State) : State :=
  if bit v 0 && bit v 1 then s
  else if bit v 0 then startArmWr paired s
  else if bit v 1 then { s with grat.armed := false, grat.startCyc := none }
  else s

/-- A rising edge on SYNC_START_IN (R83): the cycle holding it plus DELAY, and NEAR. Only an armed start that
still waits for its edge takes it.
[DEDUCED, unsafe: log entry 41] -/
def startEdge (quarter : Nat) (s : State) : State :=
  if s.grat.armed && s.grat.src && s.grat.startCyc.isNone then
    let ft := ftOf s.time.offset s.time.rate s.time.lc quarter
    let k := cycleOfFt s ft
    let pos := ft * famF s - k * secU
    let g := min 31 (lf s 0x4007003C 16 6)
    let near := pos * 64 ≤ g * secU || (secU - pos) * 64 ≤ g * secU
    let c := k + max 2 (lf s 0x4007003C 8 8)
    srvUp 6 0 1 (whenS near (evOr 0x40070044 16) { s with grat.startCyc := some c, grat.shownCyc := c })
  else s

end Sys2Proof.Machine
end

