-- ==== Sys2Proof/Machine/Compass.lean ====
section
/-! DEFINITION. Compass: candidates, consensus, the state machine, switches, slews, steps and realignment
(R85 to R114). A tick evaluates everything that has no command of its own; the transitions that have one
(loss of signal, qualification, lock, unlock, expiries, records) are taken by that command. -/

namespace Sys2Proof.Machine

/-- A live word of CMP. -/
def cmpW (s : State) (o : Nat) : Nat := lvn s (0x40050000 + o)

/-- Base address of CAND[n]. -/
def candBase (n : Nat) : Nat := 0x40050200 + n * 0x40

def candGet (s : State) (n : Nat) : Cand := tget {} s.cmp.cand n
def candPut (n : Nat) (c : Cand) (s : State) : State := { s with cmp.cand := tset {} s.cmp.cand n c }
def measGet (s : State) (k : Nat) : Meas := tget {} s.cmp.meas k
def measPut (k : Nat) (m : Meas) (s : State) : State := { s with cmp.meas := tset {} s.cmp.meas k m }

/-- PRIO of a slot; 0 disables it (R86). -/
def candPrio (s : State) (n : Nat) : Nat := lf s (candBase n) 0 4
def candSrc (s : State) (n : Nat) : Nat := lf s (candBase n) 8 4
def candIndex (s : State) (n : Nat) : Nat := lf s (candBase n) 12 3

/-- Is the candidate a TIME candidate (R87, R113)? -/
def candTime (s : State) (n : Nat) : Bool :=
  candSrc s n == 0 || (candSrc s n == 3 && lb s (candBase n) 17 && lb s (candBase n) 16)

/-- Measurement keys: 0-7 PTP by slot, 8 WCLK_IN, 9 REF10M_IN, 10 PPS_IN, 16-19 AES3, 24-31 TDM. -/
def candKey (s : State) (n : Nat) : Nat :=
  match candSrc s n with
  | 0 => n
  | 1 => 8
  | 2 => 16 + candIndex s n
  | 3 => 9
  | _ => 24 + candIndex s n

/-- Two slots of one source are measured as one (R86). Each PTP slot carries its own servo fields.
[DEDUCED, unsafe: log entry 42] -/
def sameSource (s : State) (a b : Nat) : Bool :=
  a == b || (candSrc s a == candSrc s b && candSrc s a != 0 && (candIndex s a == candIndex s b || candSrc s a == 1 || candSrc s a == 3))

/-- Eligibility (R89). -/
def eligible (s : State) (n : Nat) : Bool :=
  candPrio s n != 0 && ((candSrc s n == 0) != lb s 0x40050000 2)

/-- ppb to 2^-48 units, times 10^9 on the other side: |y| compares as |y| × 10^9 against ppb × 2^48. -/
def withinPpb (y : Int) (ppb : Nat) : Bool := y.natAbs * 1000000000 ≤ ppb * 2 ^ 48

/-- Expected period of a source in LC ticks (R87). -/
def keyPeriod (s : State) (slot key : Nat) : Nat :=
  if key < 8 then
    let e := lsgn s (candBase slot + 8) 12 4
    if e < 0 then 500000000 / 2 ^ e.natAbs else 500000000 * 2 ^ e.natAbs
  else if key = 8 then ceilDiv 500000000 (max 1 (lvn s (candBase slot + 4)))
  else if key = 9 then 50
  else if key = 10 then 500000000
  else ceilDiv 500000000 (max 1 (if 24 ≤ key then famF s * spc s else (measGet s key).aux.natAbs))

/-- No two expected periods have passed since the last arrival (R90). -/
def keyAlive (s : State) (slot key : Nat) : Bool :=
  let m := measGet s key
  m.seen && s.time.lc ≤ m.last + 2 * keyPeriod s slot key

/-- Arrivals have come for two consecutive expected periods (R90). -/
def keyResumed (s : State) (slot key : Nat) : Bool :=
  keyAlive s slot key && (measGet s key).since + 2 * keyPeriod s slot key ≤ s.time.lc

/-- The keys a slot depends on: REF10M_IN with PPS also needs PPS_IN (R87). -/
def slotKeys (s : State) (n : Nat) : List Nat :=
  if candSrc s n == 3 && lb s (candBase n) 17 then [9, 10] else [candKey s n]

def slotAlive (s : State) (n : Nat) : Bool := (slotKeys s n).all (keyAlive s n)
def slotResumed (s : State) (n : Nat) : Bool := (slotKeys s n).all (keyResumed s n)

/-- An arrival of a source with its measured frequency and phase. -/
def arrive (key period : Nat) (y phase aux : Int) (s : State) : State :=
  let m := measGet s key
  let since := if m.seen && s.time.lc ≤ m.last + 2 * period then m.since else s.time.lc
  measPut key { seen := true, last := s.time.lc, since := since, y := y, phase := phase, aux := aux } s

/-- The measurement key of a reference input. -/
def refKey : RefInput → Nat
  | .wclk => 8
  | .ref10m => 9
  | .pps => 10

/-- A reference edge is measured (R87): WCLK_IN against the sample instants, REF10M_IN against 100 ns steps,
PPS_IN against whole seconds of FT. `slot` is a slot that names the source. -/
def refEdge (slot : Nat) (i : RefInput) (s : State) : State :=
  let key := refKey i
  let m := measGet s key
  let p := s.time.lc - m.last
  let ft := ftNow s
  let nom := lvn s (candBase slot + 4)
  -- nominal period over the measured one, minus 1
  let yOf (num den : Nat) : Int :=
    if den = 0 then 0 else nearDiv .roundTie 1 s (((num : Int) - den) * 2 ^ 48) den
  let phaseTo (num den : Nat) : Int :=   -- distance of FT to the nearest multiple of num/den
    let x := ft * den % num
    let d : Int := if 2 * x ≤ num then x else (x : Int) - num
    nearDiv .roundTie 2 s d den
  let y := if m.seen then
      match i with
      | .wclk => yOf 500000000 (nom * p)
      | .ref10m => yOf 50 p
      | .pps => yOf 500000000 p
    else m.y
  let ph := match i with
    | .wclk => phaseTo secU (famF s * spc s)
    | .ref10m => phaseTo (100 * 65536) 1
    | .pps => phaseTo secU 1
  arrive key (keyPeriod s slot key) y ph m.aux s

/-- The first slot that names a source, else slot 0. -/
def slotOfKey (s : State) (key : Nat) : Nat :=
  ((List.range 8).find? (fun n => candPrio s n != 0 && (slotKeys s n).contains key)).getD 0

/-- y of a slot (R87, R88). -/
def slotY (s : State) (n : Nat) : Int :=
  if candSrc s n == 0 then sgn 40 (lvn s (candBase n + 0x18) + (lvn s (candBase n + 0x1C) % 256) * 2 ^ 32)
  else if candSrc s n == 3 && lb s (candBase n) 17 then (measGet s 9).y
  else (measGet s (candKey s n)).y

/-- FT minus the candidate's phase, before any built-out offset (R87, R88).
[DEDUCED, unsafe: log entry 45] -/
def slotPhase (s : State) (n : Nat) : Int :=
  if candSrc s n == 0 then
    sgn 96 (lvn s (candBase n + 0xC) + lvn s (candBase n + 0x10) * 2 ^ 32 + lvn s (candBase n + 0x14) * 2 ^ 64)
  else if candSrc s n == 3 && lb s (candBase n) 17 then (measGet s 10).phase
  else (measGet s (candKey s n)).phase

/-! ### Consensus, drift (R91 to R93) -/

/-- HIST_LEN (R105). -/
def histLen (s : State) : Nat := s.cmp.hist.length

/-- Enough history for HOLDOVER. -/
def histOk (s : State) : Bool := cmpW s 0x54 ≤ histLen s

/-- The holdover prediction of R105 from the history as it stands. -/
def holdPredict (s : State) : Int :=
  let old := s.cmp.hist.filter (fun e => e.1 + 2000 ≤ s.cmp.ticks)
  let l := old.take (min (cmpW s 0x4C) (histLen s))
  match l with
  | [] => s.time.rate
  | _ => nearDiv .roundTie 3 s (l.foldl (fun a e => a + e.2) 0) l.length

/-- HOLD_RATE: fixed at entry into HOLDOVER, else the prediction. -/
def holdRateNow (s : State) : Int := if s.cmp.st = 3 then s.cmp.holdRate else holdPredict s

/-- Insert into a rising list. -/
def insertI (a : Int) : List Int → List Int
  | [] => [a]
  | b :: t => if a ≤ b then a :: b :: t else b :: insertI a t

/-- The consensus for slot n from the other qualified candidates (R92).
[DEDUCED, unsafe: log entry 42] -/
def consensus (s : State) (n : Nat) : Option Int :=
  let others := (List.range 8).filter (fun m =>
    candPrio s m != 0 && (candGet s m).qual && !sameSource s n m &&
    !((List.range m).any (fun q => candPrio s q != 0 && (candGet s q).qual && sameSource s q m)))
  let ys := others.foldl (fun l m => insertI (slotY s m) l) []
  match ys with
  | [] => if histOk s then some (holdRateNow s) else none
  | [_] => if histOk s then some (holdRateNow s) else none
  | [a, b] => some (nearDiv .roundTie 4 s (a + b) 2)
  | l =>
    let k := l.length
    if k % 2 = 1 then some (getAt 0 l (k / 2))
    else some (nearDiv .roundTie 4 s (getAt 0 l (k / 2 - 1) + getAt 0 l (k / 2)) 2)

/-- Loss of signal of a slot (R90): SIGNAL and QUAL clear, it is counted, its timers stop. -/
def declareLos (n : Nat) (s : State) : State :=
  let c := candGet s n
  let s1 := candPut n { c with signal := false, qual := false, qualT := 0, wtrRun := false, wtrT := 0, wtrDue := false } s
  raise 0x0511 0 n 0 (evOr (candBase n + 0x30) 2 (ctrUp (candBase n + 0x34) 0 16 s1))

/-- The conditions of R91 for a slot. A slot disqualified for drift must stay within DRIFT_WARN. -/
def qualCond (s : State) (n : Nat) (cons : Option Int) : Bool :=
  let c := candGet s n
  c.signal && withinPpb c.y (cmpW s 0x24) &&
    match cons with
    | some v => withinPpb (c.y - v) (if c.disq then cmpW s 0x28 else cmpW s 0x30)
    | none => true

/-- The slot in force: selected, or the target of a switch. -/
def cmpHeld (s : State) : Option Nat :=
  match s.cmp.sw with
  | some w => some w.target
  | none => s.cmp.cur

/-- One tick of a slot: signal, y, consensus, drift, disqualification, timers (R90 to R93). -/
def tickSlot (n : Nat) (s : State) : State :=
  if candPrio s n = 0 then candPut n {} s
  else
    let ptpBad := candSrc s n == 0 && !lb s (candBase n + 8) 16
    let c0 := candGet s n
    let s0 := if c0.signal && ptpBad then declareLos n s
      else if !c0.signal && !ptpBad && slotResumed s n then candPut n { c0 with signal := true } s
      else s
    let c1 := { candGet s0 n with y := slotY s0 n }
    let cons := consensus s0 n
    let drift := match cons with
      | some v => c1.y - v
      | none => 0
    let warn := cons.isSome && !withinPpb drift (cmpW s0 0x28)
    let past := cons.isSome && !withinPpb drift (cmpW s0 0x30)
    let s1 := candPut n { c1 with drift := drift, nocons := cons.isNone, warn := warn,
                                  warnT := if warn then c1.warnT + 1 else 0, warned := warn && c1.warned } s0
    let s2 := if past && c1.qual then
        let c := candGet s1 n
        raise 0x0517 1 n 0 (evOr (candBase n + 0x30) 8
          (candPut n { c with qual := false, disq := true, qualT := 0, wtrRun := false, wtrT := 0, wtrDue := false } s1))
      else s1
    let c2 := candGet s2 n
    let t := if !c2.qual && qualCond s2 n cons then c2.qualT + 1 else 0
    candPut n { c2 with qualT := if c2.qual then 0 else t,
                        wtrT := if c2.wtrRun then c2.wtrT + 1 else 0 } s2

/-! ### Selection and switching (R96 to R100) -/

/-- Better slot first: lower PRIO, then lower index (R96). -/
def betterSlot (s : State) (a b : Nat) : Bool :=
  candPrio s a < candPrio s b || (candPrio s a == candPrio s b && a < b)

/-- Usable: eligible and qualified. -/
def usable (s : State) (n : Nat) : Bool := eligible s n && (candGet s n).qual

/-- The best usable slot (R96); in manual mode only the slot in SEL (R99). -/
def bestSlot (s : State) : Option Nat :=
  if lb s 0x40050000 0 then
    (List.range 8).foldl (fun b n =>
      if usable s n then
        match b with
        | none => some n
        | some m => if betterSlot s n m then some n else some m
      else b) none
  else if lb s 0x40050004 4 && usable s (lf s 0x40050004 0 3) then some (lf s 0x40050004 0 3)
  else none

/-- SEL shows the selected slot, or the target while a switch runs (R99). -/
def showSel (s : State) : State :=
  if lb s 0x40050000 0 then
    match cmpHeld s with
    | some n => setLv 0x40050004 (wd (16 + n)) s
    | none => setLv 0x40050004 0 s
  else s

/-- Begin a switch to slot n (R100 step 1).
[DEDUCED, unsafe: log entry 43] -/
def beginSwitch (n : Nat) (s : State) : State :=
  let s1 := { s with cmp.sw := some { target := n }, cmp.lockT := 0, cmp.unlockT := 0 }
  srvUp 5 3 1 (showSel (raise 0x0512 0 n 0 (evOr 0x4005000C 0x10 s1)))

/-- Enter HOLDOVER: the last 2 s of history go, HOLD_RATE is fixed (R105). -/
def enterHoldover (s : State) : State :=
  let hr := holdPredict s
  let h := s.cmp.hist.filter (fun e => e.1 + 2000 ≤ s.cmp.ticks)
  let s1 := { s with cmp.st := 3, cmp.cur := none, cmp.sw := none, cmp.holdRate := hr, cmp.hist := h,
                     cmp.holdT := 0, cmp.drifting := false, cmp.histSum := 0, cmp.histCnt := 0 }
  showSel (raise 0x0518 1 255 0 (evOr 0x4005000C 4 s1))

/-- Enter LOST: RATE is held (R95). -/
def enterLost (s : State) : State :=
  let s1 := { s with cmp.st := 4, cmp.cur := none, cmp.sw := none, cmp.drifting := false,
                     cmp.histSum := 0, cmp.histCnt := 0 }
  showSel (raise 0x0519 1 255 0 (evOr 0x4005000C 8 s1))

/-- The reference in force is gone: take the best at once, or hold, or be lost (R95, R96, R98). -/
def cmpLostRef (s : State) : State :=
  match bestSlot s with
  | some n => beginSwitch n { s with cmp.cur := none }
  | none => if histOk s then enterHoldover s else enterLost s

/-- Is work in progress that a GO must wait for (R107)? -/
def cmpBusy (s : State) : Bool := s.cmp.sw.isSome || s.cmp.slew.isSome || s.cmp.step.isSome

/-- Start a phase step (R106). A PSTEP clears BO_ACCUM; a TIME candidate's origin moves with it.
[DEDUCED, unsafe: log entry 44] -/
def pstepBegin (v : PstepVal) (s : State) : State :=
  let s1 := { s with cmp.bo := 0, cmp.pstepQ := none }
  if v.slew then
    { s1 with cmp.slew := some { kind := 1, delta := v.val, p := cmpW s 0x68, a := cmpW s 0x34 } }
  else { s1 with cmp.step := some { abs := v.abs, amount := v.val, pstep := true } }

/-- Work in progress has ended: a queued PSTEP starts (R107), else a SEL committed during the switch (R99). -/
def cmpNextWork (s : State) : State :=
  if cmpBusy s then s
  else match s.cmp.pstepQ with
    | some v => pstepBegin v s
    | none =>
      match s.cmp.nextSel with
      | some n =>
        let s1 := { s with cmp.nextSel := none }
        if usable s1 n && s1.cmp.cur != some n then beginSwitch n s1 else s1
      | none => s

/-- The transitions of R95 that have no command of their own, in the table's order.
[DEDUCED, unsafe: log entry 43] -/
def cmpTransitions (s : State) : State :=
  match s.cmp.st with
  | 1 | 2 =>
    match cmpHeld s with
    | some n => if usable s n then s else cmpLostRef { s with cmp.sw := none }
    | none => cmpLostRef s
  | _ =>
    match bestSlot s with
    | some n => beginSwitch n { s with cmp.st := 1 }
    | none => s

/-! ### The phase-slew profile (R102) -/

/-- Integer square root by bits, `n` bits of result. -/
def isqrtBits : Nat → Nat → Nat → Nat
  | 0, _, r => r
  | n + 1, v, r =>
    let t := r + 2 ^ n
    isqrtBits n v (if t * t ≤ v then t else r)

/-- Floor of a square root below 2^64. -/
def isqrt (v : Nat) : Nat := isqrtBits 64 v 0

/-- Total time of a slew in µs: |Δ|/P + P/a, or 2√(|Δ|/a), rounded up. `d` is |Δ| in 2^-16 ns. -/
def slewTimeUs (d p a : Nat) : Nat :=
  if p * p * 65536 ≤ d * a then ceilDiv (d * 1000000) (p * 65536) + ceilDiv (p * 1000000) a
  else isqrt (4 * d * 1000000000000 / (65536 * a)) + 1

/-- Phase moved after `t` µs of a slew of |Δ| = d: ramp up, hold, ramp down. -/
def slewPos (d p a t : Nat) : Nat :=
  let total := slewTimeUs d p a
  if total ≤ t then d
  else
    let ramp (x : Nat) : Nat := a * x * x * 65536 / (2 * 1000000 * 1000000)
    if p * p * 65536 ≤ d * a then
      let t1 := p * 1000000 / a
      if t ≤ t1 then min d (ramp t)
      else if t + t1 ≤ total then min d (p * t * 65536 / 1000000 - p * p * 65536 / (2 * a))
      else d - min d (ramp (total - t))
    else if 2 * t ≤ total then min d (ramp t)
    else d - min d (ramp (total - t))

/-- Signed position of an FT slew after its tick count. -/
def ftSlewAt (w : FtSlew) (tick : Nat) : Int :=
  let x := slewPos w.delta.natAbs (max 1 w.p) (max 1 w.a) (tick * 1000)
  if w.delta < 0 then -(x : Int) else x

/-- Has the slew run its time? -/
def ftSlewOver (w : FtSlew) : Bool := slewTimeUs w.delta.natAbs (max 1 w.p) (max 1 w.a) ≤ w.tick * 1000

/-! ### Rate and phase of a tick (R94, R95, R100, R101) -/

/-- How far RATE may move in this tick: the share of `ppb`/s that falls to it. -/
def slewShare (s : State) (ppb : Nat) : Nat :=
  let t := s.cmp.ticks
  (t + 1) * ppb * 2 ^ 48 / 1000000000000 - t * ppb * 2 ^ 48 / 1000000000000

/-- RATE's target: none while held. The loop's correction inside its bandwidth is a free value.
[DESIGN CHOICE, safe: log entry 10] -/
def rateTarget (s : State) : Option Int :=
  match s.cmp.sw with
  | some w => if w.moving then some (slotY s w.target) else none
  | none =>
    match s.cmp.st, s.cmp.cur with
    | 3, _ => some s.cmp.holdRate
    | 4, _ => none
    | 0, _ => none
    | _, some n =>
      if s.cmp.drifting then some (slotY s n)
      else some (slotY s n + sgn 40 (draw .loopRate (lf s 0x40050000 4 2) s))
    | _, none => none

/-- Move RATE and add the slew's offset; BO_ACCUM integrates RATE − y during a switch (R101).
[DESIGN CHOICE, safe: log entry 10] -/
def tickRate (s : State) : State :=
  let ppb := if s.cmp.st = 1 && !s.cmp.everLock then cmpW s 0x38 else cmpW s 0x34
  let m : Int := slewShare s ppb
  let base := match rateTarget s with
    | some t => s.cmp.base + clampI (-m) m (t - s.cmp.base)
    | none => s.cmp.base
  let base := clampI (-(2 ^ 39)) (2 ^ 39 - 1) base
  let add : Int := match s.cmp.slew with
    | some w => looseDiv .roundTie 5 s ((ftSlewAt w (w.tick + 1) - ftSlewAt w w.tick) * 2 ^ 48) 65536000000
    | none => 0
  let bo1 := match s.cmp.sw with
    | some w => s.cmp.bo + (base - slotY s w.target) * 65536000000
    | none => s.cmp.bo
  let bo2 := match s.cmp.slew with
    | some w => if w.kind = 2 then (-(w.delta) + ftSlewAt w (w.tick + 1)) * 2 ^ 48 else bo1
    | none => bo1
  let slew := s.cmp.slew.map (fun w => { w with tick := w.tick + 1 })
  setRate (clampI (-(2 ^ 39)) (2 ^ 39 - 1) (base + add)) { s with cmp.base := base, cmp.bo := bo2, cmp.slew := slew }

/-- The built-out offsets: continuous while drifting and in step 4 of a switch (R93, R100). -/
def tickBuildOut (s : State) : State :=
  match s.cmp.sw with
  | some w =>
    if w.moving then
      let c := candGet s w.target
      let d := looseDiv .roundTie 6 s ((s.cmp.base - slotY s w.target) * 65536000000) (2 ^ 48)
      let c' := if candTime s w.target then c else { c with built := c.built + d }
      let s1 := candPut w.target c' s
      let gap := s1.cmp.base - slotY s1 w.target
      if withinPpb gap 1 then
        cmpNextWork (raise 0x0513 0 w.target 0 (evOr 0x4005000C 0x20 (showSel { s1 with cmp.sw := none })))
      else s1
    else { s with cmp.sw := some { w with tick := w.tick + 1, sum := w.sum + slotPhase s w.target } }
  | none =>
    match s.cmp.cur, s.cmp.drifting with
    | some n, true => candPut n { candGet s n with built := slotPhase s n } s
    | _, _ => s

/-- PHASE_ERR and the lock timers (R95). -/
def tickPhase (s : State) : State :=
  match s.cmp.cur with
  | some n =>
    let e := slotPhase s n - (candGet s n).built
    let inW := e.natAbs ≤ cmpW s 0x44 * 65536
    let quiet := s.cmp.sw.isNone && !(s.cmp.slew.any (fun w => w.kind == 0))
    { s with cmp.phaseErr := e,
             cmp.lockT := if s.cmp.st = 1 && inW && quiet then s.cmp.lockT + 1 else 0,
             cmp.unlockT := if s.cmp.st = 2 && !inW && !s.cmp.drifting && s.cmp.sw.isNone then s.cmp.unlockT + 1 else 0 }
  | none => { s with cmp.lockT := 0, cmp.unlockT := 0 }

/-- History accumulation of a tick (R105). -/
def tickHist (s : State) : State :=
  if s.cmp.st = 2 && !s.cmp.drifting && s.cmp.sw.isNone then
    { s with cmp.histSum := s.cmp.histSum + s.time.rate, cmp.histCnt := s.cmp.histCnt + 1 }
  else { s with cmp.histSum := 0, cmp.histCnt := 0 }

/-- DRIFTING follows the selected candidate's flag (R93). -/
def tickDrift (s : State) : State :=
  { s with cmp.drifting := match s.cmp.cur with
      | some n => (candGet s n).warn && (s.cmp.st = 1 || s.cmp.st = 2)
      | none => false }

/-- Applied offsets of a slewed REALIGN after its next tick (R108). -/
def tickRealign (s : State) : State :=
  match s.cmp.realign with
  | some r =>
    if r.slew && r.begun.isSome then
      let p := max 1 (cmpW s 0x64)
      let a := max 1 (cmpW s 0x34)
      let t := r.tick + 1
      let ofs := r.moves.foldl (fun tb mv =>
        let d := mv.2.2 - mv.2.1
        let x : Int := slewPos (d.natAbs * 8192 / 125) p a (t * 1000)
        let moved := x * 125 / 8192
        tset 0 tb mv.1 (if slewTimeUs (d.natAbs * 8192 / 125) p a ≤ t * 1000 then mv.2.2
          else if d < 0 then mv.2.1 - moved else mv.2.1 + moved)) s.time.outOfs
      { s with time.outOfs := ofs, cmp.realign := some { r with tick := t } }
    else s
  | none => s

/-- A queued SLEW step starts at the tick after the work completes (R107); `cmpNextWork` does it when work ends.
The Compass tick (R85). -/
def compassTickFx (s : State) : State :=
  let s0 := atLc ((s.cmp.ticks + 1) * 500000) s
  let s1 := foldS (List.range 8) tickSlot s0
  let s2 := tickDrift (cmpTransitions s1)
  let s3 := tickRealign (tickHist (tickPhase (tickBuildOut (tickRate s2))))
  let s4 := srvUp 5 0 1 (srvUp 5 1 (b2n (s3.cmp.st == 2)) (srvUp 5 2 (b2n (s3.cmp.st == 3)) s3))
  { s4 with cmp.ticks := s4.cmp.ticks + 1, cmp.holdT := if s4.cmp.st = 3 then s4.cmp.holdT + 1 else s4.cmp.holdT }

/-! ### The transitions with a command of their own -/

/-- The tick after two expected periods without an arrival, of the first of the slot's inputs to fail (R90). -/
def losDue (s : State) (n : Nat) : Nat :=
  (slotKeys s n).foldl (fun d k => min d ((measGet s k).last + 2 * keyPeriod s n k + 1))
    ((measGet s (candKey s n)).last + 2 * keyPeriod s n (candKey s n) + 1)

/-- LOSS_OF_SIGNAL: two expected periods without an arrival have passed (R90). -/
def losFx (n : Nat) (s : State) : State :=
  if (candGet s n).signal then declareLos n (atLc (losDue s n) s) else s

/-- A slot qualifies (R91), and with it every slot of its source (R86). WTR starts for a slot better than the one
in force (R97). -/
def qualifyOne (n : Nat) (s : State) : State :=
  let better := match cmpHeld s with
    | some c => lb s 0x40050000 1 && eligible s n && betterSlot s n c
    | none => false
  raise 0x0510 0 n 0 (evOr (candBase n + 0x30) 1
    (candPut n { candGet s n with qual := true, disq := false, qualT := 0, wtrRun := better, wtrT := 0, wtrDue := false } s))

/-- CANDIDATE_QUALIFIED. -/
def qualifiedFx (n : Nat) (s : State) : State :=
  if candPrio s n != 0 && !(candGet s n).qual && cmpW s 0x20 * 1000 ≤ (candGet s n).qualT then
    foldS ((List.range 8).filter (fun m => candPrio s m != 0 && !(candGet s m).qual && sameSource s n m)) qualifyOne s
  else s

/-- DRIFT_WARN_TIMEOUT: one WARN per excursion (R93).
[DEDUCED, unsafe: log entry 42] -/
def driftWarnFx (n : Nat) (s : State) : State :=
  let c := candGet s n
  if c.warn && !c.warned && cmpW s 0x2C * 1000 ≤ c.warnT then
    raise 0x0516 1 n 0 (evOr (candBase n + 0x30) 4 (candPut n { c with warned := true } s))
  else s

/-- May slot n, its WTR over, revert now: no switch is in progress, and it is better than the one in force
(R97, R98)? -/
def mayRevert (s : State) (n : Nat) : Bool :=
  s.cmp.sw.isNone && lb s 0x40050000 0 && lb s 0x40050000 1 && usable s n &&
    (match s.cmp.cur with
     | some m => betterSlot s n m
     | none => false)

/-- WTR_EXPIRY (R97): the timer ends; the switch starts, or waits for the one in progress. -/
def wtrFx (n : Nat) (s : State) : State :=
  let c := candGet s n
  if c.wtrDue || (c.wtrRun && decide (cmpW s 0x3C * 1000 ≤ c.wtrT)) then
    (if mayRevert s n then beginSwitch n (candPut n { c with wtrRun := false, wtrT := 0, wtrDue := false } s)
     else candPut n { c with wtrRun := false, wtrT := 0, wtrDue := true } s)
  else s

/-- LOCKED (R95). -/
def lockedFx (s : State) : State :=
  if s.cmp.st = 1 && s.cmp.cur.isSome && s.cmp.sw.isNone && cmpW s 0x48 ≤ s.cmp.lockT then
    raise 0x0514 0 (s.cmp.cur.getD 255) 0
      (evOr 0x4005000C 1 { s with cmp.st := 2, cmp.everLock := true, cmp.lockT := 0, cmp.unlockT := 0 })
  else s

/-- UNLOCKED (R95). -/
def unlockedFx (s : State) : State :=
  if s.cmp.st = 2 && !s.cmp.drifting && s.cmp.sw.isNone && cmpW s 0x48 ≤ s.cmp.unlockT then
    raise 0x051A 1 (s.cmp.cur.getD 255) 0
      (evOr 0x4005000C 2 { s with cmp.st := 1, cmp.lockT := 0, cmp.unlockT := 0, cmp.histSum := 0, cmp.histCnt := 0 })
  else s

/-- HOLD_ELAPSED in seconds. -/
def holdElapsed (s : State) : Nat := s.cmp.holdT / 1000

/-- HOLD_LIMIT_EXPIRY (R95). -/
def holdLimitFx (s : State) : State :=
  if s.cmp.st = 3 && cmpW s 0x50 != 0 && cmpW s 0x50 < holdElapsed s then enterLost s else s

/-- HISTORY_RECORD (R105). -/
def historyFx (s : State) : State :=
  if s.cmp.st = 2 && !s.cmp.drifting && s.cmp.sw.isNone && 1000 ≤ s.cmp.histCnt then
    let mean := nearDiv .roundTie 7 s s.cmp.histSum s.cmp.histCnt
    { s with cmp.hist := ((s.cmp.ticks, mean) :: s.cmp.hist).take 3600, cmp.histSum := 0, cmp.histCnt := 0 }
  else s

/-- BUILD_OUT_END (R100 step 3, R103): the average becomes the built-out offset of a FREQ target; a TIME target's
offset is slewed out up to STEP_THRESHOLD and stepped above it. -/
def buildOutFx (s : State) : State :=
  match s.cmp.sw with
  | some w =>
    if !w.moving && cmpW s 0x40 ≤ w.tick then
      let n := w.target
      let avg := if w.tick = 0 then slotPhase s n else nearDiv .roundTie 8 s w.sum w.tick
      let s1 := { s with cmp.cur := some n, cmp.sw := some { w with moving := true } }
      if candTime s n then
        let s2 := candPut n { candGet s1 n with built := 0 } s1
        if avg.natAbs ≤ cmpW s 0x58 * 1000 * 65536 then
          { s2 with cmp.st := 1, cmp.slew := some { kind := 0, delta := -avg, p := cmpW s 0x5C, a := cmpW s 0x34 } }
        else { s2 with cmp.st := 1, cmp.step := some { amount := -avg } }
      else candPut n { candGet s1 n with built := avg } s1
    else s
  | none => s

/-- PHASE_SLEW_DONE (R102). -/
def slewDoneFx (k : SlewKind) (s : State) : State :=
  match k with
  | .ft =>
    match s.cmp.slew with
    | some w =>
      if ftSlewOver w then
        let s1 := { s with cmp.slew := none, cmp.bo := if w.kind = 2 then 0 else s.cmp.bo }
        let s2 := if w.kind = 1 then
            let s' := evOr 0x400500D4 4 s1
            match s'.cmp.cur with
            | some n => if candTime s' n then candPut n { candGet s' n with built := (candGet s' n).built + w.delta } s' else s'
            | none => s'
          else s1
        cmpNextWork s2
      else s
    | none => s
  | .realign =>
    match s.cmp.realign with
    | some r =>
      let p := max 1 (cmpW s 0x64)
      let a := max 1 (cmpW s 0x34)
      if r.slew && r.begun.isSome && r.moves.all (fun mv =>
          decide (slewTimeUs ((mv.2.2 - mv.2.1).natAbs * 8192 / 125) p a ≤ r.tick * 1000)) then
        evOr 0x400500E8 2 { s with cmp.realign := none }
      else s
    | none => s

/-! ### PSTEP and SEL -/

/-- The value of the PSTEP registers (R106). -/
def pstepRegs (s : State) : PstepVal :=
  let abs := lb s 0x400500C0 0
  let sec := (cmpW s 0xC8 / 65536) + cmpW s 0xCC * 65536
  let ns := cmpW s 0xC4
  let frac := cmpW s 0xC8 % 65536
  let secI : Int := if abs then sec else sgn 48 sec
  { abs := abs, slew := lb s 0x400500C0 1, val := (secI * 1000000000 + ns) * 65536 + frac }

/-- A GO of PSTEP (R106, R107). -/
def pstepGoWr (s : State) : State :=
  let v := pstepRegs s
  if !lb s 0x40050000 2 then raise 0x051B 1 255 0 (evOr 0x400500D4 8 s)
  else if (v.abs && v.slew) || 1000000000 ≤ cmpW s 0xC4 then evOr 0x400500D4 32 s
  else if cmpBusy s then
    whenS s.cmp.pstepQ.isSome (evOr 0x400500D4 16) { s with cmp.pstepQ := some v }
  else pstepBegin v s

/-- A committed SEL (R99): refused unless eligible and qualified; starts or queues a switch; the WTR timers of
better slots restart. -/
def selCommit (v : Nat) (s : State) : State :=
  if !nbit v 4 then s
  else
    let n := v % 8
    if usable s n then
      let s1 := foldS ((List.range 8).filter (fun m => betterSlot s m n && ((candGet s m).wtrRun || (candGet s m).wtrDue)))
        (fun m t => candPut m { candGet t m with wtrRun := true, wtrT := 0, wtrDue := false } t) s
      if s1.cmp.sw.isSome then { s1 with cmp.nextSel := some n }
      else if s1.cmp.cur == some n then s1
      else beginSwitch n (if s1.cmp.st = 0 || s1.cmp.st = 3 || s1.cmp.st = 4 then { s1 with cmp.st := 1 } else s1)
    else s

/-- A GO of REALIGN (R108). -/
def realignGoWr (s : State) : State :=
  let k := cmpW s 0xEC + cmpW s 0xF0 * 2 ^ 32
  let late := k != 0 && k < s.grat.nextCycle
  let r : RealignSt := { slew := lb s 0x400500E0 0, bo := lb s 0x400500E0 1, at_ := if late then 0 else k }
  whenS late (evOr 0x400500E8 4) { s with cmp.realign := some r }

/-! ### Steps of FT -/

/-- The origin of a TIME reference moves with a PSTEP (R106).
[DEDUCED, unsafe: log entry 44] -/
def stepOrigin (w : FtStepSt) (amt : Int) (s : State) : State :=
  match s.cmp.cur with
  | some n => if w.pstep && candTime s n then candPut n { candGet s n with built := (candGet s n).built + amt } s else s
  | none => s

/-- FT steps at the boundary instant k1 + F (R104 step 3, R22, R78). -/
def ftStepDo (w : FtStepSt) (k1 : Nat) (s : State) : State :=
  let s0 := atFt (cycleFt s (k1 + cmpW s 0x60)) s
  let old := ftNow s0
  let amt : Int := if w.abs then w.amount - old else w.amount
  let new := unsgn 96 ((old : Int) + amt)
  let s1 := if old < new then ppsOnStep new (foldS (List.range 4) (fun n t => tevOnStep n new t) s0) else s0
  let s2 := { s1 with time.offset := unsgn 96 ((s1.time.offset : Int) + amt),
                      time.stepCnt := (s1.time.stepCnt + 1) % 2 ^ 32,
                      cmp.step := some { w with done := true } }
  let first := ceilDiv (ftNow s2 * famF s2) secU
  let s3 := if old < new then { s2 with grat.nextCycle := max s2.grat.nextCycle first } else s2
  srvUp 5 4 1 (raise 0x0515 0 255 0 (evOr 0x4005000C 0x40 (stepOrigin w amt s3)))

/-- FT_STEP. -/
def ftStepFx (s : State) : State :=
  match s.cmp.step with
  | some w =>
    match w.k1, w.done with
    | some k1, false => if s.grat.nextCycle ≤ k1 + cmpW s 0x60 && k1 + cmpW s 0x60 ≤ s.grat.nextCycle then ftStepDo w k1 s else s
    | _, _ => s
  | none => s

/-- Boundary work of a step with fade: k1 is the first boundary after the decision, k2 the first after the step;
it ends at k2 + F (R104).
[DEDUCED, unsafe: log entry 44] -/
def stepAtBoundary (k : Nat) (s : State) : State :=
  match s.cmp.step with
  | some w =>
    match w.k1 with
    | none => { s with cmp.step := some { w with k1 := some k } }
    | some _ =>
      if w.done then
        match w.k2 with
        | none => { s with cmp.step := some { w with k2 := some k } }
        | some k2 =>
          if k2 + cmpW s 0x60 ≤ k then
            cmpNextWork (whenS w.pstep (evOr 0x400500D4 4) { s with cmp.step := none })
          else s
      else s
  | none => s

/-- Egress gain of a step with fade at sample i of cycle k: numerator over F × S (R104). -/
def stepGain (s : State) (k i : Nat) : Nat × Nat :=
  let f := max 1 (cmpW s 0x60)
  let n := f * spc s
  match s.cmp.step with
  | some w =>
    match w.k1, w.k2 with
    | some k1, none => let x := (k - k1) * spc s + i + 1; (n - min n x, n)
    | some _, some k2 => let x := (k - k2) * spc s + i + 1; (min n x, n)
    | _, _ => (n, n)
  | none => (n, n)

/-- The outputs a REALIGN moves, with their targets in ps: TEV, PPS, WCLK, TDM leaders, AES3 transmitters. -/
def realignTargets (s : State) : List (Nat × Int) :=
  (List.range 4).map (fun n => (n, lsgn s (tevBase n + 0x18) 0 32)) ++
  [(4, lsgn s 0x40060208 0 32), (5, lsgn s 0x400500F8 0 32)]

/-- Boundary work of a REALIGN (R108, R109). `extra` are the frame outputs' targets.
[DEDUCED, unsafe: log entry 44] -/
def realignAtBoundary (k : Nat) (extra : List (Nat × Int)) (s : State) : State :=
  match s.cmp.realign with
  | some r =>
    let f := cmpW s 0x60
    match r.begun with
    | none =>
      if r.at_ = 0 || r.at_ ≤ k then
        let moves := (realignTargets s ++ extra).filterMap (fun t =>
          let cur := tget 0 s.time.outOfs t.1
          if cur = t.2 then none else some (t.1, cur, t.2))
        let s0 := if r.slew && r.bo && lb s 0x40050000 2 && s.cmp.bo != 0 then
            { s with cmp.slew := some { kind := 2, delta := -(s.cmp.bo / 2 ^ 48), p := cmpW s 0x64, a := cmpW s 0x34 } }
          else s
        let frames := moves.any (fun m => 8 ≤ m.1)
        if r.slew then { s0 with cmp.realign := some { r with begun := some k, moves := moves } }
        else if frames then { s0 with cmp.realign := some { r with begun := some k, moves := moves } }
        else
          let ofs := moves.foldl (fun tb m => tset 0 tb m.1 m.2.2) s0.time.outOfs
          evOr 0x400500E8 2 { s0 with time.outOfs := ofs, cmp.realign := none }
      else s
    | some b =>
      if r.slew then s
      else match r.jumped with
        | none =>
          if b + f ≤ k then
            let ofs := r.moves.foldl (fun tb m => tset 0 tb m.1 m.2.2) s.time.outOfs
            { s with time.outOfs := ofs, cmp.realign := some { r with jumped := some k } }
          else s
        | some j => if j + f ≤ k then evOr 0x400500E8 2 { s with cmp.realign := none } else s
  | none => s

/-- Fade of a frame output that a stepped REALIGN moves: numerator over F × S (R108). -/
def realignGain (s : State) (out k i : Nat) : Nat × Nat :=
  let f := max 1 (cmpW s 0x60)
  let n := f * spc s
  match s.cmp.realign with
  | some r =>
    if r.slew || !(r.moves.any (fun m => m.1 == out)) then (n, n)
    else match r.begun, r.jumped with
      | some b, none => let x := (k - b) * spc s + i + 1; (n - min n x, n)
      | some _, some j => let x := (k - j) * spc s + i + 1; (min n x, n)
      | _, _ => (n, n)
  | none => (n, n)

/-- A warm reset, or the per-function reset of CMP (R110). -/
def cmpRestart (s : State) : State :=
  let s1 := { s with cmp.cur := none, cmp.sw := none, cmp.nextSel := none, cmp.cand := [], cmp.slew := none,
                     cmp.step := none, cmp.pstepQ := none, cmp.realign := none, cmp.lockT := 0, cmp.unlockT := 0,
                     cmp.drifting := false, cmp.base := s.time.rate, cmp.histSum := 0, cmp.histCnt := 0, cmp.holdT := 0 }
  showSel (if histOk s1 then { s1 with cmp.st := 3, cmp.holdRate := holdPredict s1 } else { s1 with cmp.st := 4 })

/-- y in units of 0.1 ppb, saturated to 32 bits (R85). -/
def tenthPpb (s : State) (y : Int) : Word := wd (unsgn 32 (satI 32 (looseDiv .roundTie 9 s (y * 10000000000) (2 ^ 48))))

/-- The words of a 40-bit rate (TIME.RATE layout). -/
def rateWords (r : Int) : Word × Word := (wd (unsgn 32 r), wd (unsgn 32 (r / 2 ^ 32)))

/-- CMP.STATE (R112). -/
def cmpStateWord (s : State) : Word :=
  let tgt := match s.cmp.sw with
    | some w => 0x800000 + w.target * 2 ^ 20
    | none => 0
  let cur := match s.cmp.cur with
    | some n => 0x80000 + n * 2 ^ 16
    | none => 0
  wd (tgt + cur + bitAt 8 (s.cmp.slew.any (fun w => w.kind != 0)) + bitAt 7 s.cmp.step.isSome
    + bitAt 6 (s.cmp.slew.any (fun w => w.kind == 0)) + bitAt 5 s.cmp.drifting + bitAt 4 s.cmp.sw.isSome + s.cmp.st)

/-- Read-only words of CMP (R112, R113). -/
def cmpView (s : State) (o : Nat) : Option Word :=
  if o = 0x08 then some (cmpStateWord s)
  else if o = 0x80 then some (rateWords (holdRateNow s)).1
  else if o = 0x84 then some (rateWords (holdRateNow s)).2
  else if o = 0x88 then some (wd (histLen s))
  else if o = 0x8C then some (wd (holdElapsed s))
  else if o = 0x90 then some (wd (unsgn 32 (satI 32 (looseDiv .roundTie 10 s (s.cmp.phaseErr * 1000) 65536))))
  else if o = 0xA0 then some (wd (unsgn 32 (s.cmp.bo / 2 ^ 48)))
  else if o = 0xA4 then some (wd (unsgn 32 (s.cmp.bo / 2 ^ 80)))
  else if o = 0xD4 then some (wd (lvn s 0x400500D4 + bitAt 0 s.cmp.pstepQ.isSome
      + bitAt 1 (s.cmp.slew.any (fun w => w.kind == 1) || s.cmp.step.any (fun w => w.pstep))))
  else if o = 0xE8 then some (wd (lvn s 0x400500E8 + bitAt 0 (s.cmp.realign.any (fun r => r.begun.isSome))))
  else if 0x200 ≤ o && o < 0x400 then
    let n := (o - 0x200) / 0x40
    let c := candGet s n
    match o % 0x40 with
    | 0x20 => some (wd (c.grade * 256 + bitAt 7 (s.cmp.sw.any (fun w => w.target == n)) + bitAt 6 (s.cmp.cur == some n)
        + bitAt 5 c.wtrRun + bitAt 4 c.nocons + bitAt 3 c.disq + bitAt 2 c.warn + bitAt 1 c.qual + bitAt 0 c.signal))
    | 0x24 => some (tenthPpb s c.y)
    | 0x28 => some (tenthPpb s c.drift)
    | 0x2C => some (wd ((if c.qual || !c.signal then 0 else ceilDiv (cmpW s 0x20 * 1000 - c.qualT) 1000)
        + (if c.wtrRun then ceilDiv (cmpW s 0x3C * 1000 - c.wtrT) 1000 else 0) * 65536))
    | _ => none
  else none

end Sys2Proof.Machine
end

