-- ==== Sys2Proof/Machine/Ingress.lean ====
section
/-! DEFINITION. Sample formats, ingress slots, concealment, groups and slips (R115 to R133). -/

namespace Sys2Proof.Machine

/-- Matrix inputs N_in: 2,048, 1,024 or 512 by samples per cycle (R118). -/
def nIn (s : State) : Nat := 4096 / spc s

/-- Base address of ING.SLOT[i]. -/
def slotBase (i : Nat) : Nat := 0x40101000 + i * 0x20
def scntBase (i : Nat) : Nat := 0x40105000 + i * 8

def slotGet (s : State) (i : Nat) : SlotSt := tget {} s.mix.slot i
def slotPut (i : Nat) (x : SlotSt) (s : State) : State := { s with mix.slot := tset {} s.mix.slot i x }

def slotKind (s : State) (i : Nat) : Nat := lf s (slotBase i) 0 3
def slotNch (s : State) (i : Nat) : Nat := lf s (slotBase i + 8) 16 7
def slotL (s : State) (i : Nat) : Nat := lf s (slotBase i) 24 7
def slotDepth (s : State) (i : Nat) : Nat := lf s (slotBase i + 0xC) 16 7
def slotGroup (s : State) (i : Nat) : Nat := lf s (slotBase i) 16 6

/-- The slots whose CFG word differs from reset in the live copy. -/
def slotsLive (s : State) : List Nat :=
  s.hub.live.filterMap (fun e =>
    if 0x40101000 ≤ e.1 && e.1 < 0x40105000 && e.1 % 0x20 = 0 then some (e.1 % 0x10000 / 0x20 - 0x80) else none)

/-- The enabled slots (R117). -/
def slotsOn (s : State) : List Nat := (slotsLive s).filter (fun i => slotKind s i != 0)

/-- Source samples per cycle under CONV (R124). -/
def convS (s cv : Nat) : Nat :=
  match cv with
  | 1 => s / 2
  | 2 => s / 4
  | 3 => s * 2
  | 4 => s * 4
  | _ => s

/-- MARK: [DESIGN CHOICE, safe: log entry 11] -/
def slotConv (s : State) (i : Nat) : Nat := lf s (slotBase i) 8 3
def slotS (s : State) (i : Nat) : Nat := convS (spc s) (slotConv s i)

/-- Class F slots receive frames (R129). -/
def classF (kind : Nat) : Bool := kind == 1 || kind == 2 || kind == 5

/-! ### Formats (R116) -/

/-- Payload bytes of one sample. -/
def fmtSize : Nat → Nat
  | 0 => 4
  | 1 => 3
  | _ => 2

/-- A payload sample to A32. -/
def toA32 (fmt v : Nat) : Int :=
  match fmt with
  | 0 => sgn 32 v
  | 1 => sgn 24 v * 2
  | _ => sgn 16 v * 512

/-- A32 to a payload format: the value and whether it was clamped. -/
def fromA32 (fmt : Nat) (a : Int) : Int × Bool :=
  match fmt with
  | 0 => (a, false)
  | 1 => let r := (a + 1) / 2; (satI 24 r, satI 24 r != r)
  | _ => let r := (a + 256) / 512; (satI 16 r, satI 16 r != r)

/-- Split into pieces of `n` bytes, `k` of them. -/
def pieces (n : Nat) : Nat → List Byte → List (List Byte)
  | 0, _ => []
  | k + 1, l => l.take n :: pieces n k (l.drop n)

/-- Sample-major rows of a payload: `rows` rows of `nch` samples. -/
def payloadRows (fmt nch : Nat) : Nat → List Byte → List (List Int)
  | 0, _ => []
  | r + 1, l =>
    let z := fmtSize fmt
    (pieces z nch l).map (fun b => toA32 fmt (beNat b)) :: payloadRows fmt nch r (l.drop (z * nch))

/-! ### Counting -/

/-- Count an arrival error of a slot and set its event (R120, R133). Fields: 0 LATE, 8 EARLY, 16 HDR_ERR, 24 SLIP. -/
def slotErr (i lo ev : Nat) (s : State) : State :=
  let c := if lo = 24 then 2 else if lo = 0 then 3 else 4
  evOr 0x40100008 ev (ctrUp (scntBase i + 4) lo 8 (srvUp 16 c (b2n (lo != 16)) s))

def slotHdrErr (i : Nat) (s : State) : State := slotErr i 16 4 s

/-! ### Arrivals (R120) -/

/-- Write one row at presentation position g; a row already there stands. -/
def ringPut (g : Nat) (row : List Int) (x : SlotSt) : SlotSt :=
  if (tget none x.ring g).isSome then x else { x with ring := tset none x.ring g (some row) }

/-- Rows of a class F arrival from position g, judged by R120 against k = GRAT.CYCLE. -/
def arriveRows (i g0 : Nat) (rows : List (List Int)) (s : State) : State :=
  let sp := max 1 (slotS s i)
  let k := s.grat.cycle
  let dep := slotDepth s i
  let out := rows.foldl (fun (acc : SlotSt × Bool × Bool × Nat) row =>
    let (x, late, early, g) := acc
    let p := g / sp
    if p ≤ k then (x, true, early, g + 1)
    else if k + dep < p then (x, late, true, g + 1)
    else
      let m := p - k
      let x' := if (tget none x.ring g).isSome then x
        else { ringPut g row x with margin := some (match x.margin with
                                                    | some q => min q m
                                                    | none => m) }
      (x', late, early, g + 1)) (slotGet s i, false, false, g0)
  let s1 := slotPut i out.1 s
  whenS out.2.2.1 (slotErr i 8 2) (whenS out.2.1 (slotErr i 0 1) s1)

/-- Extend a 48-bit PCYC to the value nearest GRAT.CYCLE (R120). -/
def extPcyc (s : State) (pc : Nat) : Nat :=
  let m := 2 ^ 48
  let base := s.grat.cycle / m * m + pc % m
  let d : Int := (base : Int) - s.grat.cycle
  if d > (m / 2 : Nat) && m ≤ base then base - m
  else if d < -((m / 2 : Nat) : Int) then base + m
  else base

/-- An Eorel or mirrored cycle arrives at slot i: SPC × NCH samples and the channel flags (R116, R126). -/
def arriveCycle (i p spcF nchF : Nat) (rows : List (List Int)) (mute conc : Nat) (s : State) : State :=
  if nchF != slotNch s i || spcF != slotS s i then slotHdrErr i s
  else
    let k := s.grat.cycle
    let dup := (tget none (slotGet s i).ring (p * spcF)).isSome
    let s1 := arriveRows i (p * spcF) rows s
    if k < p && p ≤ k + slotDepth s i && !dup then
      let x := slotGet s1 i
      slotPut i { x with flags := tset (0, 0) x.flags p (mute, conc) } s1
    else s1

/-- An AES67 packet at slot i (R123): rows placed by their own sample index. -/
def arriveRtp (i ts : Nat) (payload : List Byte) (s : State) : State :=
  let fmt := if lb s (slotBase i + 0x14) 4 then 1 else 2
  let nch := slotNch s i
  let unit := fmtSize fmt * nch
  if unit = 0 || payload.length % unit != 0 || 1440 < payload.length then slotHdrErr i s
  else
    let sp := slotS s i
    let cur := ftNow s * (famF s * sp) / secU
    let m := 2 ^ 32
    let v := (ts + m - lvn s (slotBase i + 0x10)) % m
    let base := cur / m * m + v
    let n := if base > cur + m / 2 && m ≤ base then base - m else if base + m / 2 < cur then base + m else base
    arriveRows i (n + slotL s i * sp) (payloadRows fmt nch (payload.length / unit) payload) s

/-- A captured row of a local port, sample index n: written at the end of its frame to every running slot that
reads the port (R120). `row` holds the port's slots from 0. -/
def arriveLocal (kind port n : Nat) (row : List Int) (s : State) : State :=
  foldS ((slotsOn s).filter (fun i => slotKind s i == kind && lf s (slotBase i + 4) 0 (if kind = 3 then 3 else 2) == port && lb s (slotBase i) 31))
    (fun i t =>
      let first := lf t (slotBase i + 8) 27 5
      let chans := (List.range (slotNch t i)).map (fun c => getAt 0 row (first + c))
      let x := slotGet t i
      let g := n + slotL t i * slotS t i
      if g < (t.grat.cycle + 1) * slotS t i then t
      else slotPut i (ringPut g chans x) t) s

/-- Forget the row that a repeat moved past the newest captured index n of a local port. -/
def forgetLocal (kind port n : Nat) (s : State) : State :=
  foldS ((slotsOn s).filter (fun i => slotKind s i == kind && lf s (slotBase i + 4) 0 (if kind = 3 then 3 else 2) == port))
    (fun i t =>
      let x := slotGet t i
      slotPut i { x with ring := tset none x.ring (n + slotL t i * slotS t i) none } t) s

/-! ### Slips (R131) -/

/-- Shift a ring by one position from g0: a skip drops g0, a repeat presents `prev` again at g0.
[DESIGN CHOICE, safe: log entry 20] -/
def ringSlip (skip : Bool) (g0 : Nat) (prev : List Int) (x : SlotSt) : SlotSt :=
  if skip then
    { x with ring := x.ring.filterMap (fun e => if e.1 < g0 then some e else if e.1 = g0 then none else some (e.1 - 1, e.2)) }
  else
    let moved := x.ring.map (fun e => if e.1 < g0 then e else (e.1 + 1, e.2))
    { x with ring := tset none moved g0 (some prev) }

/-- Slip one member at sample position 0 of cycle k. -/
def slipSlot (i k : Nat) (dir : Int) (s : State) : State :=
  let x := slotGet s i
  slotErr i 24 16 (slotPut i (ringSlip (dir > 0) (k * slotS s i) x.v x) s)

/-- Source number of a class L slot: 0-7 TDM, 8-11 AES3. -/
def slotSource (s : State) (i : Nat) : Option Nat :=
  match slotKind s i with
  | 3 => some (lf s (slotBase i + 4) 0 3)
  | 4 => some (8 + lf s (slotBase i + 4) 0 2)
  | _ => none

/-- The slip that applies to slot i at this boundary: its own, or its COHERENT group's (R131, R272).
[DESIGN CHOICE, unsafe: log entry 47] -/
def slipOf (s : State) (i : Nat) : Int :=
  match slotSource s i with
  | none => 0
  | some q =>
    let g := slotGroup s i
    if g != 0 && lb s (0x40100100 + g * 4) 0 then
      -- the member with the lowest slot index that has a slip due decides
      match ((slotsOn s).filter (fun m => slotGroup s m == g && lb s (slotBase m) 31)).find? (fun m =>
          match slotSource s m with
          | some r => tget 0 s.mix.slipDue r != 0
          | none => false) with
      | some m => tget 0 s.mix.slipDue ((slotSource s m).getD 0)
      | none => 0
    else tget 0 s.mix.slipDue q

/-- The slips of a boundary, applied before cycle k is presented; the directions applied, by source.
[DESIGN CHOICE, unsafe: log entry 47] -/
def applySlips (k : Nat) (s : State) : State × Tab Int :=
  let l := (slotsOn s).filter (fun i => lb s (slotBase i) 31 && (slotGet s i).running && slipOf s i != 0)
  let dirs := l.foldl (fun tb i => tset 0 tb ((slotSource s i).getD 0) (slipOf s i)) []
  (foldS l (fun i t => slipSlot i k (slipOf s i) t) s, dirs)

/-! ### Presentation (R125 to R130) -/

/-- The rows of cycle k, none when one is missing (R127). -/
def cycleRows (x : SlotSt) (sp k : Nat) : Option (List (List Int)) :=
  let l := (List.range sp).map (fun j => tget none x.ring (k * sp + j))
  if l.all Option.isSome then some (l.filterMap id) else none

/-- Is slot i's cycle k complete? -/
def slotComplete (s : State) (i k : Nat) : Bool := (cycleRows (slotGet s i) (slotS s i) k).isSome

/-- A slot that takes part in concealment at cycle k: a WAITING one does from its first complete cycle (R125, R130).
[DEDUCED, unsafe: log entry 46] -/
def slotPart (s : State) (i k : Nat) : Bool :=
  let x := slotGet s i
  lb s (slotBase i) 31 && x.running && (!x.waiting || slotComplete s i k)

/-- Does slot i conceal cycle k (R127, R130)? -/
def slotConceals (s : State) (i k : Nat) : Bool :=
  slotPart s i k &&
    (!slotComplete s i k ||
      (let g := slotGroup s i
       g != 0 && lb s (0x40100100 + g * 4) 0 && lb s (0x40100100 + g * 4) 1 &&
        (slotsOn s).any (fun m => slotGroup s m == g && slotPart s m k && !slotComplete s m k)))

/-- Samples of channel c of the rows. -/
def chanOf (rows : List (List Int)) (c : Nat) : List Int := rows.map (fun r => getAt 0 r c)

/-- A row multiplied by (num j)/S, rounded to nearest with ties toward plus infinity. -/
def scaleRow (sN : Nat) (num : Nat → Nat) (l : List Int) : List Int :=
  (List.range sN).map (fun j => roundDiv (getAt 0 l j * num j) sN)

/-- The concealment of a missing cycle for one channel (R128): `miss` cycles were concealed before it. -/
def concealChan (sN cmode miss : Nat) (v : Int) : List Int :=
  let hold := List.replicate sN v
  let fadeOut := scaleRow sN (fun j => sN - 1 - j) hold
  let zero := List.replicate sN (0 : Int)
  match cmode with
  | 0 => if miss = 0 then fadeOut else zero
  | 1 => if miss = 0 then hold else if miss = 1 then fadeOut else zero
  | _ => zero

/-- The received samples of a complete cycle at the node rate. A converting slot's half-band output is free (R124).
[DESIGN CHOICE, safe: log entry 11] -/
def slotSamples (s : State) (i k c : Nat) (rows : List (List Int)) : List Int :=
  if slotConv s i = 0 then chanOf rows c
  else (List.range (spc s)).map (fun j => sgn 32 (draw .halfBand ((i * 64 + c) * 64 + j + k * 2 ^ 32) s))

/-- Present one channel row to the matrix. -/
def putInput (i c : Nat) (x : List Int) (mute conc : Bool) (s : State) : State :=
  { s with mix.inputs := tset {} s.mix.inputs (lf s (slotBase i + 8) 0 11 + c) { x := x, mute := mute, conc := conc } }

/-- Last element of a row. -/
def lastOf (d : Int) (l : List Int) : Int := l.getLast?.getD d

/-- Present cycle k of one slot (R125 to R128). `conceal` was decided for the whole group. -/
def presentSlot (k : Nat) (conceal : Bool) (i : Nat) (s : State) : State :=
  let x := slotGet s i
  let sN := spc s
  let nch := slotNch s i
  let cmode := lf s (slotBase i) 4 2
  let keep := tkeep (fun g => decide ((k + 1) * slotS s i ≤ g)) x.ring
  let keepF := tkeep (fun p => decide (k < p)) x.flags
  let vs := (List.range nch).map (fun c => getAt 0 x.v c)
  let put (rows : List (List Int)) (mutes concs : Nat) (t : State) : State :=
    (rows.zipIdx).foldl (fun t e => putInput i e.2 e.1 (nbit mutes e.2) (nbit concs e.2) t) t
  if !x.running then s
  else if !lb s (slotBase i) 31 then
    -- RUN = 0 was committed: fade from the last samples, then stop and empty the ring
    let rows := ((List.range (nfld x.ch 16 7)).map (fun c => getAt 0 x.v c)).map
      (fun v => scaleRow sN (fun j => sN - 1 - j) (List.replicate sN v))
    (rows.zipIdx).foldl (fun t e =>
      { t with mix.inputs := tset {} t.mix.inputs (nfld x.ch 0 11 + e.2) { x := e.1 } }) (slotPut i { margin := x.margin } s)
  else if conceal then
    let rows := vs.map (fun v => concealChan sN cmode x.missRun v)
    let v' := rows.zipIdx.map (fun e => lastOf (getAt 0 vs e.2) e.1)
    put rows 0 (2 ^ nch - 1)
      (srvUp 16 1 1 <| evOr 0x40100008 8 (setLv (scntBase i) (wd (satInc (2 ^ 32 - 1) (lvn s (scntBase i))))
        (slotPut i { x with ring := keep, flags := keepF, v := v', missRun := x.missRun + 1,
                            waiting := false, presented := false, concealing := true, muted := false } s)))
  else
    match cycleRows x (slotS s i) k with
    | none =>
      slotPut i { x with ring := keep, flags := keepF, presented := false, concealing := false, muted := false } s
    | some rows =>
      let fl := tget (0, 0) x.flags k
      let recover := (x.waiting || x.missRun != 0) && cmode != 2
      let outs := (List.range nch).map (fun c =>
        if nbit fl.1 c then List.replicate sN 0
        else
          let l := slotSamples s i k c rows
          if recover then scaleRow sN (fun j => j + 1) l else l)
      let v' := outs.zipIdx.map (fun e => if nbit fl.1 e.2 then getAt 0 vs e.2 else lastOf 0 e.1)
      put outs fl.1 fl.2
        (srvUp 16 0 (nch * sN) <| slotPut i { x with ring := keep, flags := keepF, v := v', missRun := 0, waiting := false,
                                                     presented := true, concealing := false, muted := fl.1 % 2 ^ nch != 0 } s)

/-- A slot starts at the commit of RUN = 1 (R125).
[DEDUCED, unsafe: log entry 46] -/
def slotStart (i : Nat) (s : State) : State :=
  if lb s (slotBase i) 31 && slotKind s i != 0 && !(slotGet s i).running then
    slotPut i { running := true, waiting := true, ch := lvn s (slotBase i + 8), margin := (slotGet s i).margin } s
  else s

/-- Slots that may present: the enabled ones and those that still run.
[DEDUCED, unsafe: log entry 33] [DEDUCED, unsafe: log entry 46] -/
def slotsRel (s : State) : List Nat :=
  let l := slotsOn s
  l ++ (s.mix.slot.filter (fun e => e.2.running && !l.contains e.1)).map (fun e => e.1)

/-- Ingress releases cycle k (R16 step 4).
[DEDUCED, unsafe: log entry 46] -/
def ingressRelease (k : Nat) (s : State) : State :=
  let s0 := { s with mix.inputs := [] }
  let s1 := foldS (slotsOn s0) slotStart s0
  let conc := (slotsRel s1).map (fun i => (i, slotConceals s1 i k))
  foldS conc (fun e t => presentSlot k e.2 e.1 t) s1

/-- Samples whose presentation cycle lies in cycles passed over by a step are discarded (R22). -/
def ingressDiscard (k : Nat) (s : State) : State :=
  foldS (slotsOn s) (fun i t =>
    let x := slotGet t i
    slotPut i { x with ring := tkeep (fun g => decide (k * slotS t i ≤ g)) x.ring,
                       flags := tkeep (fun p => decide (k ≤ p)) x.flags } t) s

/-- Per-function reset of ING: rings emptied, running slots become WAITING (R460). -/
def ingReset (s : State) : State :=
  foldS (slotsLive s) (fun i t =>
    let x := slotGet t i
    if x.running then slotPut i { running := true, waiting := true, ch := x.ch } t else slotPut i {} t) s

/-- Read-only words of ING. -/
def ingView (s : State) (o : Nat) : Option Word :=
  if o = 4 then
    some (wd (nIn s * 65536 + (slotsOn s).foldl (fun a i => a + slotNch s i) 0))
  else if 0x1000 ≤ o && o < 0x5000 && o % 0x20 = 0x18 then
    let i := o / 0x20 - 0x80
    let x := slotGet s i
    let stopP := (List.range 6).any (fun w => (tget none s.hub.pend (slotBase i + 4 * w)).isSome)
    some (wd (x.margin.getD 0 * 256 + bitAt 4 stopP + bitAt 3 x.muted + bitAt 2 x.waiting
      + bitAt 1 x.concealing + bitAt 0 x.presented))
  else none

end Sys2Proof.Machine
end

