-- ==== Sys2Proof/Machine/Matrix.lean ====
section
/-! DEFINITION. The mixing matrix and the selection of egress sources (R134 to R146). -/

namespace Sys2Proof.Machine

/-! ### Ramps (R510) -/

/-- The factor of a ramp at sample i of cycle k: numerator and denominator. -/
def rampAt (s : State) (r : Ramp) (k i : Nat) : Nat × Nat :=
  let m := (k - r.start) * spc s + i + 1
  if r.len ≤ m then (r.n1, 1) else (r.n0 * (r.len - m) + r.n1 * r.d0 * m, r.d0 * r.len)

/-- The factor in force just before sample 0 of cycle k. -/
def rampBefore (s : State) (r : Ramp) (k : Nat) : Nat × Nat :=
  let m := (k - r.start) * spc s
  if r.len ≤ m then (r.n1, 1) else (r.n0 * (r.len - m) + r.n1 * r.d0 * m, r.d0 * r.len)

/-- A new ramp from the present factor toward n1 over `cycles` cycles from cycle k. -/
def rampTo (s : State) (r : Ramp) (k cycles n1 : Nat) : Ramp :=
  let f := rampBefore s r k
  { n0 := f.1, d0 := f.2, n1 := n1, start := k, len := max 1 cycles * spc s }

/-- Has the ramp reached its end before cycle k? -/
def rampDone (s : State) (r : Ramp) (k : Nat) : Bool := r.len ≤ (k - r.start) * spc s

/-- A sample row under a ramp, the exact product rounded to nearest with ties toward plus infinity. -/
def rampRow (s : State) (r : Ramp) (k : Nat) (l : List Int) : List Int :=
  l.zipIdx.map (fun e => let f := rampAt s r k e.2; roundDiv (e.1 * f.1) f.2)

/-! ### Crosspoints (R135 to R137) -/

/-- Address of crosspoint index o × 2,048 + i. -/
def xpAddr (x : Nat) : Nat := 0x30000000 + x * 8

/-- Ramp gain of crosspoint idx at ramp sample m: rounded to Q8.24, an exact half freely (R137).
[DESIGN CHOICE, safe: log entry 9] -/
def xpAt (s : State) (idx : Nat) (x : Xp) (m : Nat) : Int :=
  let n := x.len * spc s
  if n ≤ m then x.g1 else x.g0 + nearDiv .roundTie (2 ^ 40 + idx * 2 ^ 20 + m) s ((x.g1 - x.g0) * m) n

/-- Live gain at sample i of cycle k. -/
def xpGain (s : State) (idx : Nat) (x : Xp) (k i : Nat) : Int := xpAt s idx x ((k - x.start) * spc s + i + 1)

/-- Live gain in force just before sample 0 of cycle k: the gain at the last sample of cycle k − 1.
[DEDUCED, unsafe: log entry 48] -/
def xpBefore (s : State) (idx : Nat) (x : Xp) (k : Nat) : Int := xpAt s idx x ((k - x.start) * spc s)

/-- Take one due entry to live at cycle k: a changed target starts a ramp from the gain in force (R137).
[DEDUCED, unsafe: log entry 48] -/
def xpTake (k idx : Nat) (s : State) : State :=
  let tgt := sgn 32 (mWord s (xpAddr idx))
  let ramp := max 1 (mWord s (xpAddr idx + 4) % 65536)
  let x := tget {} s.mix.xp idx
  if tgt = x.g1 then s
  else
    { s with mix.xp := tset {} s.mix.xp idx { g0 := xpBefore s idx x k, g1 := tgt, start := k, len := ramp } }

/-- Finished ramps to zero leave the sparse table. -/
def xpTidy (k : Nat) (s : State) : State :=
  { s with mix.xp := s.mix.xp.filter (fun e => !(e.2.g1 == 0 && decide (e.2.start + e.2.len ≤ k))) }

/-- Add rows of samples. -/
def addRow (a b : List Int) : List Int :=
  (List.range (max a.length b.length)).map (fun j => getAt 0 a j + getAt 0 b j)

/-- Round and saturate one bus sample: value and whether it saturated (R134). -/
def busRound (v : Int) : Int × Bool :=
  let r := roundDiv v (2 ^ 24)
  (satI 32 r, satI 32 r != r)

/-- The exact 80-bit sums of every bus that has an input (R134). -/
def busSums (s : State) (k : Nat) : Tab (List Int) :=
  s.mix.xp.foldl (fun tb e =>
    let i := e.1 % 2048
    let o := e.1 / 2048
    if i < nIn s then
      let x := (tget {} s.mix.inputs i).x
      let p := x.zipIdx.map (fun y => y.1 * xpGain s e.1 e.2 k y.2)
      if x.isEmpty then tb else tset [] tb o (addRow (tget [] tb o) p)
    else tb) []

/-- The matrix of cycle k: sums, rounding, saturation counts, bus mutes (R134, R138, R510). -/
def matrixRun (k : Nat) (s : State) : State :=
  let s0 := { s with mix.busPrev2 := s.mix.busPrev, mix.busPrev := s.mix.buses, mix.buses := [], mix.busMuted := false }
  foldS (busSums s0 k) (fun e t =>
    let r := e.2.map busRound
    let sats := (r.filter (fun x => x.2)).length
    let row := rampRow t (tget {} t.mix.outMute e.1) k (r.map (fun x => x.1))
    let a := 0x40110400 + e.1 * 4
    let t1 := { t with mix.buses := tset [] t.mix.buses e.1 row }
    if sats = 0 then t1
    else srvUp 17 1 sats <| evOr 0x40110004 1 (setLv a (wd (min 65535 (lvn t1 a + sats))) t1)) s0

/-- A committed OUTCFG at cycle k starts a mute ramp (R138). -/
def outcfgCommit (k o : Nat) (old new : Nat) (s : State) : State :=
  if nbit old 0 = nbit new 0 then s
  else
    let r := rampTo s (tget {} s.mix.outMute o) k (nfld new 16 16) (if nbit new 0 then 0 else 1)
    { s with mix.outMute := tset {} s.mix.outMute o r }

/-- Reset of MTX: the bus samples readers take from now are zero with MUTE; live gains take their targets and
ramps and route fades end (R460). -/
def mtxReset (k : Nat) (s : State) : State :=
  { s with mix.buses := [], mix.busPrev := [], mix.busPrev2 := [], mix.busMuted := true,
           mix.xp := s.mix.xp.map (fun e => (e.1, { e.2 with g0 := e.2.g1, len := 0, start := k })),
           mix.outMute := s.mix.outMute.map (fun e => (e.1, { e.2 with len := 0 })),
           mix.egr := s.mix.egr.map (fun e => (e.1, { e.2 with fade := none, held := false, cur := lvn s (0x40114000 + e.1 * 4) })) }

/-! ### Egress sources (R141 to R146) -/

/-- A channel that nothing feeds: zero with CH_MUTE (R145). -/
def silentChan : Chan := { mute := true }


/-- Is destination d valid at this rate (R141)? -/
def egrValid (s : State) (d : Nat) : Bool :=
  if d < 2048 then decide (d < nIn s)
  else if d < 2304 then decide ((d - 2048) % 32 < 64 / spc s)
  else decide (d < 2344)

/-- A source word of a destination that this rate does not have: it reads 0 and ignores writes (R141).
[DEDUCED, unsafe: log entry 25] -/
def egrUnused (s : State) (a : Nat) : Bool :=
  0x40114000 ≤ a && a < 0x401164A0 && !egrValid s ((a - 0x40114000) / 4)

/-- Start of a route fade at cycle k toward word w (R143). -/
def fadeBegin (k d w : Nat) (s : State) : State :=
  let e := tget {} s.mix.egr d
  let n := max 1 (lvn s 0x40110010)
  { s with mix.egr := tset {} s.mix.egr d { cur := w, old := e.cur, fade := some (k, n), held := false } }

/-- A committed source word: it starts a fade, or is held behind the one in progress (R143, R144). -/
def egrCommit (k d w : Nat) (s : State) : State :=
  let e := tget {} s.mix.egr d
  match e.fade with
  | some (k0, n) =>
    if k < k0 + n then
      let h := w != e.cur
      whenS (h && !e.held) (evOr 0x40110004 2) { s with mix.egr := tset {} s.mix.egr d { e with held := h } }
    else if w = e.cur then s else fadeBegin k d w s
  | none => if w = e.cur then s else fadeBegin k d w s

/-- Fades that have ended by cycle k; held changes start theirs (R144). -/
def egrAdvance (k : Nat) (s : State) : State :=
  foldS (s.mix.egr.filter (fun e => e.2.fade.isSome)) (fun e t =>
    match e.2.fade with
    | some (k0, n) =>
      if k0 + n ≤ k then
        let w := lvn t (0x40114000 + e.1 * 4)
        let done := { e.2 with fade := none, held := false, old := e.2.cur }
        let t1 := { t with mix.egr := tset {} t.mix.egr e.1 done }
        if w != e.2.cur then fadeBegin k e.1 w t1 else t1
      else t
    | none => t) s

/-- KIND, CL, MUTE and INDEX of a source word (R146). -/
def egrKind (w : Nat) : Nat := nfld w 29 3
def egrCl (w : Nat) : Nat := nfld w 24 3
def egrMute (w : Nat) : Bool := nbit w 15
def egrIndex (w : Nat) : Nat := nfld w 0 11

/-- Read-only words of MTX (R137, R143, R144). -/
def mtxView (s : State) (o : Nat) : Option Word :=
  let bits (f : EgrSt → Bool) (w : Nat) : Word :=
    wd (maskOf ((s.mix.egr.filter (fun e => e.1 / 32 == w && f e.2)).map (fun e => e.1 % 32)))
  let sel := lvn s 0x40110020
  let x := tget {} s.mix.xp sel
  if o = 0 then some (wd (256 * 65536 + nIn s))
  else if o = 0x24 then
    some (if sel % 2048 < nIn s then wd (unsgn 32 (xpBefore s sel x s.grat.cycle)) else 0)
  else if o = 0x28 then some (wd (unsgn 32 x.g1))
  else if o = 0x2C then some (wd (min 65535 (x.start + x.len - s.grat.cycle)))
  else if 0x3000 ≤ o && o < 0x3000 + 74 * 4 then some (bits (fun e => e.fade.isSome) (o % 0x200 / 4))
  else if 0x3200 ≤ o && o < 0x3200 + 74 * 4 then some (bits (fun e => e.held) (o % 0x200 / 4))
  else none

end Sys2Proof.Machine
end

