-- ==== Sys2Proof/Machine/Filters.lean ====
section
/-! DEFINITION. The EQ engine: sections, chains, crossovers (R147 to R155). -/

namespace Sys2Proof.Machine

/-- Section capacity (R150). -/
def eqCap (s : State) : Nat := 65536 / spc s

def chainBase (c : Nat) : Nat := 0x40121000 + c * 0x10
def chainGet (s : State) (c : Nat) : ChainSt := tget {} s.eqs.chain c
def chainPut (c : Nat) (x : ChainSt) (s : State) : State := { s with eqs.chain := tset {} s.eqs.chain c x }

/-- CFG and SRC in force: those taken at the start while the chain runs, else the live words (R41). -/
def chainCfg (s : State) (c : Nat) : Nat := if (chainGet s c).running then (chainGet s c).cfg else lvn s (chainBase c)
def chainSrc (s : State) (c : Nat) : Nat := if (chainGet s c).running then (chainGet s c).src else lvn s (chainBase c + 4)
def chainFirst (s : State) (c : Nat) : Nat := nfld (chainCfg s c) 0 15
def chainCount (s : State) (c : Nat) : Nat := nfld (chainCfg s c) 16 9
def chainKind (s : State) (c : Nat) : Nat := egrKind (chainSrc s c)

/-- The chains whose CFG or SRC differs from reset in the live copy. -/
def chainsLive (s : State) : List Nat :=
  s.hub.live.foldl (fun l e =>
    if 0x40121000 ≤ e.1 && e.1 < 0x40122000 then addTo (e.1 % 0x1000 / 0x10) l else l) []

/-- Address of the words of section n. -/
def sosAddr (n : Nat) : Nat := 0x30400000 + n * 0x20

/-- Active bank of a section: b0, b1, b2, a1, a2. -/
def sosBank (s : State) (n : Nat) : List Word := (List.range 5).map (fun i => arrLv s (sosAddr n + 4 * i))

/-- Load a bank. -/
def sosLoad (n : Nat) (ws : List Word) (s : State) : State :=
  foldS ws.zipIdx (fun e t => setArr (sosAddr n + 4 * e.2) e.1 t) s

/-- One section: the five rounded products summed exactly, rounded to A48 and saturated (R148).
The result, and whether it saturated. -/
def sosCompute (co : List Word) (h : SecHist) (x : Int) : Int × Bool :=
  let q (i : Nat) : Int := sgn 32 (getAt 0 co i).toNat
  let pr (c v : Int) : Int := roundDiv (c * v) (2 ^ 14)
  let sum := pr (q 0) x + pr (q 1) h.x1 + pr (q 2) h.x2 - pr (q 3) h.y1 - pr (q 4) h.y2
  let r := roundDiv sum (2 ^ 16)
  (satI 48 r, satI 48 r != r)

/-- One section at sample position j, crossing over when an outgoing bank is held (R152).
The output, the new history, and the saturations. -/
def sosStep (sN j : Nat) (act : List Word) (old : Option (List Word)) (h : SecHist) (x : Int) : Int × SecHist × Nat :=
  let n := sosCompute act h x
  let r := match old with
    | none => (n.1, b2n n.2)
    | some o =>
      let p := sosCompute o h x
      (roundDiv (p.1 * (sN - 1 - j : Nat) + n.1 * (j + 1 : Nat)) sN, b2n n.2 + b2n p.2)
  (r.1, { x1 := x, x2 := h.x1, y1 := r.1, y2 := h.y1 }, r.2)

/-- One sample through the sections `first .. first + count − 1`: output, state, saturations. -/
def chainSample (sN j first : Nat) : Nat → Int → State → Nat → Int × State × Nat
  | 0, x, s, sat => (x, s, sat)
  | n + 1, x, s, sat =>
    let h := tget {} s.eqs.hist first
    let r := sosStep sN j (sosBank s first) (tget none s.eqs.oldBank first) h x
    chainSample sN j (first + 1) n r.1 { s with eqs.hist := tset {} s.eqs.hist first r.2.1 } (sat + r.2.2)

/-- The input row of chain c at cycle k: the bus held for two cycles, or a cluster egress channel (R147). -/
def chainInput (s : State) (c : Nat) : List Int :=
  let w := chainSrc s c
  let l := match egrKind w with
    | 1 => tget [] s.mix.busPrev2 (w % 256)
    | 2 => tget [] s.mix.clOut (egrCl w * 256 + w % 256)
    | _ => []
  (List.range (spc s)).map (fun j => getAt 0 l j)

/-- The A32 output of an A48 value: rounded, saturated. -/
def a48Out (v : Int) : Int × Bool :=
  let r := roundDiv v (2 ^ 16)
  (satI 32 r, satI 32 r != r)

/-- One chain over one cycle: its row, the state, its saturations. -/
def chainRow (c : Nat) (s : State) : List Int × State × Nat :=
  let row := chainInput s c
  if chainCount s c = 0 then (row, s, 0)
  else
    row.zipIdx.foldl (fun (acc : List Int × State × Nat) e =>
      let r := chainSample (spc s) e.2 (chainFirst s c) (chainCount s c) (e.1 * 2 ^ 16) acc.2.1 acc.2.2
      let o := a48Out r.1
      (acc.1 ++ [o.1], r.2.1, r.2.2 + b2n o.2)) ([], s, 0)

/-- Run chain c for cycle k with its RUN fades (R154). -/
def chainRun (c : Nat) (s : State) : State :=
  let x := chainGet s c
  let sN := spc s
  let run := lb s (chainBase c) 31
  if !x.running then s
  else if chainKind s c = 0 then
    if run then chainPut c { x with fading := false } s else chainPut c {} s
  else
    let r := chainRow c s
    let row := if !run then scaleRow sN (fun j => sN - 1 - j) r.1
      else if x.fading then scaleRow sN (fun j => j + 1) r.1 else r.1
    let a := 0x40120400 + c * 4
    let s1 := { r.2.1 with eqs.out := tset [] r.2.1.eqs.out c row }
    let s2 := if r.2.2 = 0 then s1 else srvUp 18 3 r.2.2 (evOr 0x40120004 1 (setLv a (wd (min 65535 (lvn s1 a + r.2.2))) s1))
    if run then chainPut c { chainGet s2 c with fading := false } s2 else chainPut c {} s2

/-- The sections of a chain. -/
def chainSecs (s : State) (c : Nat) : List Nat := (List.range (chainCount s c)).map (fun i => chainFirst s c + i)

/-- Start a chain at the commit of RUN = 1: histories zero, output fades in (R154).
[DEDUCED, unsafe: log entry 50] -/
def chainStart (c : Nat) (s0 : State) : State :=
  let s := chainPut c {} s0
  let s1 := if chainKind s c = 0 then s
    else foldS (chainSecs s c) (fun n t => { t with eqs.hist := tset {} t.eqs.hist n {} }) s
  chainPut c { running := true, fading := true, cfg := lvn s (chainBase c), src := lvn s (chainBase c + 4) } s1

/-- Is the section in a chain that runs? -/
def secRunning (s : State) (n : Nat) : Bool :=
  (chainsLive s).any (fun c => (chainGet s c).running && chainFirst s c ≤ n && n < chainFirst s c + chainCount s c)

/-- Commit of EQS: dirty sections become due with their present shadow; those outside every running chain load at
once (R152). `secs` are the dirty sections. -/
def sosCommit (secs : List Nat) (s : State) : State :=
  foldS secs (fun n t =>
    let co := (List.range 5).map (fun i => wd (mWord t (sosAddr n + 4 * i)))
    if secRunning t n then { t with eqs.due := tset none t.eqs.due n (some co) }
    else sosLoad n co { t with eqs.due := tset none t.eqs.due n none }) s

/-- The due sections of a chain. -/
def chainDue (s : State) (c : Nat) : List Nat := (chainSecs s c).filter (fun n => (tget none s.eqs.due n).isSome)

/-- Cross over the due sections of chain c: the old bank is kept through this cycle (R152). -/
def chainCross (c : Nat) (s : State) : State :=
  let s1 := foldS (chainDue s c) (fun n t =>
    match tget none t.eqs.due n with
    | some co =>
      let t1 := { t with eqs.oldBank := tset none t.eqs.oldBank n (some (sosBank t n)), eqs.due := tset none t.eqs.due n none }
      sosLoad n co t1
    | none => t) s
  chainPut c { chainGet s1 c with deferred := false, xf := true } s1

/-- The crossovers of a boundary: deferred chains first, each whole, within the limit of R150 (R153).
[DEDUCED, unsafe: log entry 50] -/
def crossovers (s : State) : State :=
  let s0 := { s with eqs.oldBank := [],
                     eqs.chain := s.eqs.chain.map (fun e => (e.1, { e.2 with xf := false })) }
  let cand := (chainsLive s0).filter (fun c => (chainGet s0 c).running && !(chainDue s0 c).isEmpty)
  let rising := (List.range 256).filter (fun c => cand.contains c)
  let order := rising.filter (fun c => (chainGet s0 c).deferred) ++ rising.filter (fun c => !(chainGet s0 c).deferred)
  (order.foldl (fun (acc : State × Nat) c =>
    let n := (chainDue acc.1 c).length
    if acc.2 + n ≤ 16384 / spc s0 then (chainCross c acc.1, acc.2 + n)
    else (evOr 0x40120004 2 (chainPut c { chainGet acc.1 c with deferred := true } acc.1), acc.2)) (s0, 0)).1

/-- Every due coefficient takes effect at once, without crossover (the reset of EQS, R460).
[DEDUCED, unsafe: log entry 50] -/
def dueAtOnce (s : State) : State :=
  foldS s.eqs.due (fun e t =>
    match e.2 with
    | some co => sosLoad e.1 co t
    | none => t) { s with eqs.due := [], eqs.oldBank := [] }

/-- The EQ engine of cycle k. -/
def eqRun (s : State) : State :=
  let s1 := crossovers { s with eqs.out := [], eqs.hPrev := s.eqs.hist }
  foldS ((List.range 256).filter (fun c => (chainGet s1 c).running)) chainRun s1

/-- Per-function reset of EQS: histories zero, running chains restart as at RUN = 1 (R460, R154). -/
def eqsReset (s : State) : State :=
  let s1 := dueAtOnce { s with eqs.hist := [], eqs.hPrev := [], eqs.out := [] }
  foldS s1.eqs.chain (fun e t => if e.2.running then chainStart e.1 (chainPut e.1 {} t) else t) s1

/-- Read-only words of EQS (R151, R155).
[DEDUCED, unsafe: log entry 50] -/
def eqsView (s : State) (o : Nat) : Option Word :=
  if o = 0 then
    some (wd (((chainsLive s).filter (fun c => chainKind s c != 0)).foldl (fun a c => a + chainCount s c) 0 * 65536
      + eqCap s % 65536))
  else if 0x14 ≤ o && o ≤ 0x24 then
    let n := lvn s 0x40120010
    some (if n < eqCap s then arrLv s (sosAddr n + (o - 0x14)) else 0)
  else if 0x1000 ≤ o && o < 0x2000 && o % 0x10 = 8 then
    let c := o / 0x10 - 0x100
    let x := chainGet s c
    some (wd (bitAt 3 ((tget none s.hub.pend (chainBase c)).isSome || (tget none s.hub.pend (chainBase c + 4)).isSome)
      + bitAt 2 x.deferred + bitAt 1 x.xf + bitAt 0 x.running))
  else none

/-- State words of a section, read-only: the history after the last sample of the previous cycle (R151). -/
def sosStateWord (s : State) (n i : Nat) : Word :=
  let h := tget {} s.eqs.hPrev n
  let y1 := unsgn 48 h.y1
  let y2 := unsgn 48 h.y2
  match i with
  | 5 => wd y1
  | 6 => wd (y1 / 2 ^ 32 + (y2 % 65536) * 65536)
  | _ => wd (y2 / 65536)

end Sys2Proof.Machine
end

