-- ==== Sys2Proof/Machine/Steering.lean ====
section
/-! DEFINITION. Delay lines and fractional delay (R156 to R165). -/

namespace Sys2Proof.Machine

def lineBase (l : Nat) : Nat := 0x40131000 + l * 0x10
def lineTab (l : Nat) : Nat := 0x30500000 + l * 0x10
def lineGet (s : State) (l : Nat) : LineSt := tget {} s.str.line l
def linePut (l : Nat) (x : LineSt) (s : State) : State := { s with str.line := tset {} s.str.line l x }
def lineKind (s : State) (l : Nat) : Nat := lf s (lineBase l + 4) 29 3

/-- DELAY_MAX in samples (R156). -/
def delayMax (s : State) : Nat := min 262143 (2 * famF s * spc s)

/-- The lines whose registers differ from reset in the live copy. -/
def linesLive (s : State) : List Nat :=
  s.hub.live.foldl (fun l e =>
    if 0x40131000 ≤ e.1 && e.1 < 0x40132000 then addTo (e.1 % 0x1000 / 0x10) l else l) []

/-- D of a line in 2^-20 sample, from its live table words (R156). -/
def lineD (s : State) (l : Nat) : Nat :=
  fld (arrLv s (lineTab l)) 0 28 * 1024 + lf s (lineBase l) 16 8 * spc s * 2 ^ 20

/-- SLEW of a line (R159). -/
def lineSlew (s : State) (l : Nat) : Nat := fld (arrLv s (lineTab l + 4)) 0 13

/-- Is the mute fade complete before cycle k? -/
def lineMuted (s : State) (l k : Nat) : Bool :=
  let r := (lineGet s l).mute
  lb s (lineBase l) 30 && r.n1 == 0 && rampDone s r k

/-! ### Rings (R160). Sample index m of a ring lies at word m mod (SIZE × 256). -/

def ringBase (s : State) (l : Nat) : Nat := 0x10000000 + nfld (lineGet s l).buf 16 15 * 1024
def ringLen (s : State) (l : Nat) : Nat := nfld (lineGet s l).buf 0 11 * 256

/-- A ring sample.
[DESIGN CHOICE, unsafe: log entry 51] -/
def ringRead (s : State) (l : Nat) (m : Int) : Int :=
  let n := ringLen s l
  if n = 0 then 0 else sgn 32 (mWord s (ringBase s l + ((m % (n : Int)).toNat) * 4))

/-- Write a ring sample.
[DESIGN CHOICE, unsafe: log entry 51] -/
def ringWrite (l m : Nat) (v : Int) (s : State) : State :=
  let n := ringLen s l
  if n = 0 then s else mStoreW (ringBase s l + (m % n) * 4) (unsgn 32 v) s

/-- A ring reads as zero from its line's start (R161). -/
def ringClear (l : Nat) (s : State) : State :=
  let b := ringBase s l
  let e := b + ringLen s l * 4
  { s with mem := s.mem.filter (fun c => !(decide (b ≤ c.1) && decide (c.1 < e))) }

/-! ### Interpolation (R157) -/

/-- Product over the taps u ≠ t of (−F − u q). -/
def lagNum (f q t : Int) : Int :=
  ([1, 0, -1, -2, -3].filter (fun u => decide (u ≠ t))).foldl (fun a u => a * (-f - u * q)) 1

/-- 24 over the product of (t − u): 1, −4, 6, −4, 1. -/
def lagDen (t : Int) : Int := if t = 1 || t = -3 then 1 else if t = -1 then 6 else -4

/-- The interpolated output at sample m for a delay of `d` 2^-20 samples (R157). An exact half rounds freely, a sum
outside A32 is a free value.
[DESIGN CHOICE, safe: log entry 12] -/
def lineTap (s : State) (l m d : Nat) : Int :=
  let q : Nat := 2 ^ 20
  let i := d / q
  let f := d % q
  let base : Int := (m : Int) - i
  if f = 0 then ringRead s l base
  else
    let sum := ([1, 0, -1, -2, -3] : List Int).foldl (fun a t => a + ringRead s l (base + t) * lagNum f q t * lagDen t) 0
    let r := nearDiv .interp (2 ^ 80 + l * 2 ^ 32 + m % 2 ^ 32) s sum (24 * q ^ 4)
    if satI 32 r = r then r else sgn 32 (draw .interp (l * 2 ^ 32 + m % 2 ^ 32) s)

/-! ### Running a line -/

/-- The input row of line l at cycle k (R147). -/
def lineInput (s : State) (l : Nat) : List Int :=
  let w := (lineGet s l).src
  let r := match egrKind w with
    | 1 => tget [] s.mix.buses (w % 256)
    | 2 => tget [] s.eqs.out (w % 256)
    | 3 => tget [] s.mix.clOut (egrCl w * 256 + w % 256)
    | _ => []
  (List.range (spc s)).map (fun j => getAt 0 r j)

/-- One step of the present delay toward D (R159).
[DESIGN CHOICE, unsafe: log entry 51] -/
def slewStep (cur target step : Nat) : Nat :=
  if cur < target then min target (cur + step) else max target (cur - step)

/-- Line l over cycle k: the ring is written, the delay slews, the output is faded (R156 to R161). -/
def lineRun (k l : Nat) (s : State) : State :=
  let x := lineGet s l
  if !x.running then s
  else if x.stopping && rampDone s x.mute k then linePut l { cur := x.cur, target := x.target } s
  else
    let sN := spc s
    let s1 := (lineInput s l).zipIdx.foldl (fun t e =>
      if egrKind x.src = 0 then t else ringWrite l (k * sN + e.2) e.1 t) s
    let r := (List.range sN).foldl (fun (acc : List Int × Nat) j =>
      let cur := slewStep acc.2 x.target (lineSlew s1 l)
      (acc.1 ++ [lineTap s1 l (k * sN + j) cur], cur)) ([], x.cur)
    let s2 := { s1 with str.out := tset [] s1.str.out l (rampRow s1 x.mute k r.1) }
    whenS (x.cur != x.target && r.2 == x.target) (evOr 0x40130004 1) (linePut l { x with cur := r.2 } s2)

/-- A line starts (R161): the ring reads as zero, D applies as a step. -/
def lineStart (k l : Nat) (s : State) : State :=
  let d := lineD s l
  let m : Ramp := if lb s (lineBase l) 30 then { n0 := 0, n1 := 0, start := k } else {}
  let x : LineSt := { running := true, cur := d, target := d, mute := m,
                      src := lvn s (lineBase l + 4), buf := lvn s (lineBase l + 8) }
  ringClear l (linePut l x s)

/-- The commit of a line at cycle k: RUN, MUTE and a new D (R159, R161).
[DEDUCED, unsafe: log entry 33] [DESIGN CHOICE, unsafe: log entry 51] -/
def lineCommit (k l : Nat) (oldCfg : Nat) (s : State) : State :=
  let x := lineGet s l
  let run := lb s (lineBase l) 31
  let ramp := lf s (lineBase l) 0 16
  let d := lineD s l
  let muted := nbit oldCfg 30 && x.mute.n1 == 0 && rampDone s x.mute k
  let toD (y : LineSt) : LineSt := if muted || !x.running then { y with cur := d, target := d } else { y with target := d }
  if run && (!x.running || x.stopping) then lineStart k l s
  else if !x.running then linePut l (toD x) s
  else if !run then
    linePut l (toD (if x.stopping then x else { x with stopping := true, mute := rampTo s x.mute k ramp 0 })) s
  else
    linePut l (toD (if lb s (lineBase l) 30 != nbit oldCfg 30 then
        { x with mute := rampTo s x.mute k ramp (if lb s (lineBase l) 30 then 0 else 1) }
      else x)) s

/-- The steering unit of cycle k. -/
def strRun (k : Nat) (s : State) : State :=
  let s1 := { s with str.out := [] }
  foldS (s1.str.line.map (fun e => e.1)) (fun l t => lineRun k l t) s1

/-- Per-function reset of STR: running lines restart as at RUN = 1 (R460). -/
def strReset (k : Nat) (s : State) : State :=
  foldS s.str.line (fun e t => if e.2.running && !e.2.stopping then lineStart k e.1 t
      else linePut e.1 { cur := lineD t e.1, target := lineD t e.1 } t)
    { s with str.out := [] }

/-- Words 2 and 3 of a table entry (R163). -/
def lineTabView (s : State) (l w : Nat) : Word :=
  if w = 2 then
    let c := (lineGet s l).cur
    wd (c / 2 ^ 20 * 2 ^ 14 + c % 2 ^ 20 / 64)
  else 0

/-- Read-only words of STR (R163, R164). -/
def strView (s : State) (o : Nat) : Option Word :=
  if o = 0 then
    let used := ((linesLive s).filter (fun l => lineKind s l != 0)).foldl (fun a l => a + lf s (lineBase l + 8) 0 11) 0
    let run := (s.str.line.filter (fun e => e.2.running)).length
    some (wd (used % 65536 * 65536 + run))
  else if o = 0x10 then some (wd (delayMax s))
  else if 0x1000 ≤ o && o < 0x2000 && o % 0x10 = 0xC then
    let l := o / 0x10 - 0x100
    let x := lineGet s l
    some (wd (bitAt 3 ((tget none s.hub.pend (lineBase l + 4)).isSome || (tget none s.hub.pend (lineBase l + 8)).isSome)
      + bitAt 2 (lineMuted s l (s.grat.cycle + 1)) + bitAt 1 (x.cur != x.target) + bitAt 0 x.running))
  else none

end Sys2Proof.Machine
end

