-- ==== Sys2Proof/Machine/Silence.lean ====
section
/-! DEFINITION. The Doldrums silence detector (R167 to R171). -/

namespace Sys2Proof.Machine

/-- round(2^24 × 10^(−T/20)) for T = 60 to 120 (R167). -/
def quietTable : List Nat := [
    16777, 14953, 13327, 11877, 10586, 9435, 8409, 7494, 6679, 5953, 5305, 4728, 4214, 3756, 3347,
  2983, 2659, 2370, 2112, 1882, 1678, 1495, 1333, 1188, 1059, 943, 841, 749, 668, 595, 531, 473, 421,
  376, 335, 298, 266, 237, 211, 188, 168, 150, 133, 119, 106, 94, 84, 75, 67, 60, 53, 47, 42, 38, 33,
  30, 27, 24, 21, 19, 17 ]

/-- The linear threshold of −T dBFS. -/
def quietThr (t : Nat) : Nat := getAt 0 quietTable (t - 60)

/-- Is every sample of a row quiet? -/
def rowQuiet (thr : Nat) (l : List Int) : Bool := l.all (fun x => decide (x.natAbs < thr))

def grpBase (g : Nat) : Nat := 0x40140100 + g * 0x40
def grpGet (s : State) (g : Nat) : SilGrp := tget {} s.sil.grp g
def grpPut (g : Nat) (x : SilGrp) (s : State) : State := { s with sil.grp := tset {} s.sil.grp g x }

/-- Is bus b a member of group g? -/
def grpMember (s : State) (g b : Nat) : Bool := lb s (grpBase g + 0x10 + b / 32 * 4) (b % 32)

/-- Does group g have a member? -/
def grpAny (s : State) (g : Nat) : Bool := (List.range 8).any (fun w => lvn s (grpBase g + 0x10 + w * 4) != 0)

/-- Groups that are on. -/
def grpsOn (s : State) : List Nat := s.sil.grp.map (fun e => e.1)

/-- The hold length in cycles (R168). -/
def grpHoldLen (s : State) (g : Nat) : Nat := lf s (grpBase g) 0 12 * famF s

def grpThr (s : State) (g : Nat) : Nat := quietThr (lf s (grpBase g) 16 8)

/-- Is a cycle with these buses silent for the group? A group with no member never counts one. -/
def grpSilent (s : State) (g : Nat) : Bool :=
  grpAny s g && s.mix.buses.all (fun e => !grpMember s g e.1 || rowQuiet (grpThr s g) e.2)

/-- The wake test on the presented inputs (R170): an input at or above the threshold whose live crosspoint gain to
a member bus is not zero. -/
def grpInputWake (s : State) (k g : Nat) : Bool :=
  s.mix.xp.any (fun e =>
    grpMember s g (e.1 / 2048) && e.1 % 2048 < nIn s &&
    (let x := (tget {} s.mix.inputs (e.1 % 2048)).x
     x.zipIdx.any (fun y => xpGain s e.1 e.2 k y.2 != 0 && decide (grpThr s g ≤ y.1.natAbs))))

/-- Enter or leave OFF after a commit; a rewritten CFG makes the group ACTIVE (R168). -/
def grpCommit (g : Nat) (s : State) : State :=
  let x := grpGet s g
  if !lb s (grpBase g) 31 then grpPut g {} s
  else if x.st = 3 then evOr 0x40140004 2 (ctrUp (grpBase g + 0x38) 0 16 (grpPut g { st := 1 } s))
  else grpPut g { st := 1 } s

/-- One group at the boundary of cycle k, after the matrix computed it (R168, R170).
[DEDUCED, unsafe: log entry 52] -/
def grpStep (k g : Nat) (s : State) : State :=
  let x := grpGet s g
  let silent := grpSilent s g
  match x.st with
  | 1 => if silent then grpPut g { st := 2, hold := 1 } s else s
  | 2 => if silent then grpPut g { x with hold := min (grpHoldLen s g) (x.hold + 1) } s else grpPut g { st := 1 } s
  | 3 =>
    if grpInputWake s k g || !silent then
      srvUp 20 1 1 (evOr 0x40140004 2 (ctrUp (grpBase g + 0x38) 0 16 (grpPut g { st := 1 } s)))
    else s
  | _ => s

/-- Note the buses with a non-quiet sample; their flags clear (R167). -/
def silBuses (k : Nat) (s : State) : State :=
  let thr := quietThr (lf s 0x40140010 16 8)
  foldS s.mix.buses (fun e t =>
    if rowQuiet thr e.2 then t
    else { t with sil.loudAt := tset 0 t.sil.loudAt e.1 (k + 1), sil.flags := dropFrom e.1 t.sil.flags }) s

/-- Member buses of ASLEEP groups with MUTE are multiplied by 0 (R169). -/
def silMute (s : State) : State :=
  let gs := (grpsOn s).filter (fun g => (grpGet s g).st == 3 && lb s (grpBase g + 4) 0)
  if gs.isEmpty then s
  else { s with mix.buses := s.mix.buses.filter (fun e => !(gs.any (fun g => grpMember s g e.1))) }

/-- The detector's work at a boundary.
[DEDUCED, unsafe: log entry 52] -/
def silRun (k : Nat) (s : State) : State :=
  silMute (foldS (grpsOn s) (fun g t => grpStep k g t) (silBuses k s))

/-- BUS_SILENT_SET (R167): a bus quiet for HOLD seconds. -/
def busSilentFx (b : Nat) (s : State) : State :=
  if lf s 0x40140010 0 12 * famF s ≤ s.grat.cycle + 1 - tget 0 s.sil.loudAt b then
    { s with sil.flags := addTo b s.sil.flags }
  else s

/-- SILENCE_SLEEP (R168, R169): the hold count has reached the hold length. -/
def silenceSleepFx (g : Nat) (s : State) : State :=
  let x := grpGet s g
  if x.st = 2 && grpHoldLen s g ≤ x.hold then
    srvUp 20 0 1 (evOr 0x40140004 1 (ctrUp (grpBase g + 0x34) 0 16 (grpPut g { st := 3, hold := x.hold } s)))
  else s

/-- Does the silence detector keep modulator channel n asleep: every group that lists it with BRIDGE is ASLEEP? -/
def silBridge (s : State) (n : Nat) : Bool :=
  let l := (grpsOn s).filter (fun g => lb s (grpBase g + 4) 1 && lb s (grpBase g + 8) n)
  !l.isEmpty && l.all (fun g => (grpGet s g).st == 3)

/-- Per-function reset of SIL: enabled groups ACTIVE, hold counts cleared, actions undone (R460). -/
def silReset (s : State) : State :=
  foldS (grpsOn s) (fun g t => if (grpGet t g).st = 0 then t else grpPut g { st := 1 } t)
    { s with sil.loudAt := [], sil.flags := [], sil.gated := [] }

/-- Read-only words of SIL. -/
def silView (s : State) (o : Nat) : Option Word :=
  if o = 0 then some (wd (maskOf ((grpsOn s).filter (fun g => (grpGet s g).st == 3))))
  else if o = 0xC then some (wd (maskOf s.sil.gated))
  else if 0x20 ≤ o && o < 0x40 then
    let w := (o - 0x20) / 4
    some (wd (maskOf ((s.sil.flags.filter (fun b => b / 32 == w)).map (fun b => b % 32))))
  else if 0x100 ≤ o && o < 0x900 && o % 0x40 = 0x30 then
    let g := (o - 0x100) / 0x40
    let x := grpGet s g
    let left := if x.st = 2 then ceilDiv (grpHoldLen s g - x.hold) (famF s) else if x.st = 1 then lf s (grpBase g) 0 12 else 0
    some (wd (left * 65536 + x.st))
  else none

end Sys2Proof.Machine
end

