-- ==== Sys2Proof/Machine/Cluster.lean ====
section
/-! DEFINITION. Clusters: stream table and reserve, starting and stopping, overruns and halts, semaphores,
mailboxes, gating, resets (R198 to R204, R211 to R228). -/

namespace Sys2Proof.Machine

def clGet (s : State) (c : Nat) : ClusterSt := tget {} s.cl c
def clPut (c : Nat) (x : ClusterSt) (s : State) : State := { s with cl := tset {} s.cl c x }

/-- Base of cluster c's window. -/
def clBase (c : Nat) : Nat := 0x40150000 + c * 0x10000

/-- Base of CORE[j] of global core k. -/
def coreBase (k : Nat) : Nat := clBase (k / 8) + 0x800 + k % 8 * 0x40

/-- Core clock in kHz by step (R411). -/
def coreKHz (s : State) : Nat := getAt 1000000 [1000000, 875000, 750000, 625000] s.pwr.step

/-- N_cy = round(f_core × T_cy) (R198). -/
def nCy (s : State) : Nat := (2 * coreKHz s * 1000 + famF s) / (2 * famF s)

/-- Is core j of cluster c enabled? -/
def coreEn (s : State) (c j : Nat) : Bool := lb s (clBase c) j

/-- Set an event of a cluster: 0 OVERRUN 1 HALT 2 MBX_SUP 3 MBX_OVF 4 BAR_WAIT 5 GATED 6 PSNAP_DONE. -/
def clEvent (c bitNo : Nat) (s : State) : State := evOr (clBase c + 0xC) (2 ^ bitNo) s

/-! ### Stream table (R212 to R214) -/

/-- A stream entry's three words. -/
structure StreamE where
  e : Nat
  cfg : Nat
  src : Nat
  str : Nat
  deriving DecidableEq, Repr

def seOut (x : StreamE) : Bool := nbit x.cfg 30
def seCore (x : StreamE) : Nat := nfld x.cfg 24 3
def seMem (x : StreamE) : Nat := nfld x.cfg 20 2
def seAddr (x : StreamE) : Nat := nfld x.cfg 0 16
def seCount (x : StreamE) : Nat := nfld x.src 16 9
def seFirst (x : StreamE) : Nat := nfld x.src 0 8
def seC (x : StreamE) : Nat := nfld x.str 16 16
def seS (x : StreamE) : Nat := nfld x.str 0 16

/-- The enabled entries under a view of the registers, ascending; `idx` are candidate indexes. -/
def streamsOf (view : Nat → Nat) (c : Nat) (idx : List Nat) : List StreamE :=
  (idx.map (fun e => ({ e := e, cfg := view (clBase c + 0x2000 + e * 0x10), src := view (clBase c + 0x2004 + e * 0x10),
                        str := view (clBase c + 0x2008 + e * 0x10) } : StreamE))).filter (fun x => nbit x.cfg 31)

/-- Entries that differ from reset in the live copy. -/
def streamIdx (s : State) (c : Nat) : List Nat :=
  let b := clBase c + 0x2000
  s.hub.live.foldl (fun l e => if b ≤ e.1 && e.1 < b + 0x1000 then addTo ((e.1 - b) / 0x10) l else l) []

def streamsLive (s : State) (c : Nat) : List StreamE := streamsOf (lvn s) c (streamIdx s c)

/-- Clocks of one entry (R214). -/
def seCost (sN : Nat) (x : StreamE) : Nat :=
  if seS x = 4 && seAddr x % 8 = 0 && seC x % 8 = 0 then 4 + seCount x * sN / 2 else 4 + seCount x * sN

/-- RESERVE of a set of entries (R214). -/
def reserveOf (sN : Nat) (l : List StreamE) : Nat := l.foldl (fun a x => a + seCost sN x) 256

/-- Byte offset of sample j of channel i in the entry's memory. -/
def seByte (x : StreamE) (i j : Nat) : Nat := seAddr x + i * seC x + j * seS x

/-- Bus address of a byte of the entry's memory: X, Y or Z of core CORE of cluster c. -/
def seBus (c : Nat) (x : StreamE) (o : Nat) : Nat := 0x20000000 + (c * 8 + seCore x) * 0x40000 + seMem x * 0x10000 + o

/-! ### Semaphores (R219) -/

/-- Encoding of an owner: core index + 1, 9 supervisor, 11 host. -/
def semOwnerCode (c : Nat) : Master → Option Nat
  | .core c' j => if c'.val = c then some (j.val + 1) else none
  | .sup => some 9
  | .host => some 11
  | _ => none

/-- A read of a semaphore. -/
def semRead (m : Master) (c n : Nat) (s : State) : Word × State :=
  let x := clGet s c
  match semOwnerCode c m with
  | some o => if tget 0 x.sem n = 0 then (1, clPut c { x with sem := tset 0 x.sem n o } s) else (0, s)
  | none => (0, s)

/-- A write of a semaphore: 0 by the owner frees it, anything else is counted. -/
def semWrite (m : Master) (c n : Nat) (v : Word) (s : State) : State :=
  let x := clGet s c
  let own := semOwnerCode c m
  if v = 0 && own.isSome && tget 0 x.sem n = own.getD 0 then clPut c { x with sem := tset 0 x.sem n 0 } s
  else ctrUp (clBase c + 0x20) 0 8 s

/-- Free the semaphores of core j, each counted in LOST. -/
def semLoseCore (c j : Nat) (s : State) : State :=
  let x := clGet s c
  let lost := x.sem.filter (fun e => e.2 == j + 1)
  lost.foldl (fun t _ => ctrUp (clBase c + 0x20) 8 8 t)
    (clPut c { x with sem := x.sem.filter (fun e => e.2 != j + 1) } s)

/-! ### Mailboxes (R220) -/

def mbxPushFx (c b : Nat) (v : Word) (s : State) : State :=
  let x := clGet s c
  let q := tget [] x.mbx b
  if q.length < 16 then
    whenS (b == 8) (clEvent c 2) (clPut c { x with mbx := tset [] x.mbx b (q ++ [v]) } s)
  else clEvent c 3 (evOr (clBase c + 0x104 + b * 0x10) 0x80000000 s)

def mbxPopFx (c b : Nat) (s : State) : Word × State :=
  let x := clGet s c
  match tget [] x.mbx b with
  | [] => (0, s)
  | v :: t => (v, clPut c { x with mbx := tset [] x.mbx b t } s)

/-! ### Overruns, halts and exceptions of cluster cores (R199 to R203) -/

/-- Record an exception cause: the bit, and the packet of the first since EXC was read. -/
def excRecord (k code : Nat) (s : State) : State :=
  let b := coreBase k + 8
  let c := coreGet s k
  let s1 := if lvn s b % 128 = 0 then corePut k { c with excPc := c.pc } s else s
  evOr b (2 ^ code) s1

/-- Abandon what a core has open: pipeline, repeat levels, return stack (R200). -/
def coreAbandon (c : NCore) : NCore :=
  { c with flight := [], levels := [], rstk := [], rdep := 0, load := none, heldP := none, drain := false,
           sync := false, accVis := [] }

/-- Core k takes the OVERRUN exception (R200).
[DEDUCED, unsafe: log entry 60] -/
def coreOverrun (k : Nat) (s : State) : State :=
  let c := k / 8
  let s1 := excRecord k 4 (srvUp (21 + c) 7 1 s)
  let x := coreGet s1 k
  let halt := lb s1 (coreBase k) 16
  let s2 := corePut k { coreAbandon x with st := if halt then 3 else 1, restart := !halt, ovr := true,
                                           cycLast := 0xFFFFFFFF } s1
  let s3 := whenS x.sync (clEvent c 4) (clEvent c 0 (ctrUp (coreBase k + 0x1C) 0 16 s2))
  let s4 := semLoseCore c (k % 8) (whenS halt (clEvent c 1) s3)
  raise (0x1510 + c * 0x100) 2 (k % 8) 0 { s4 with mix.clMute := addTo c s4.mix.clMute }

/-- A cluster core takes another exception and enters HALTED (R203). -/
def coreHalt (k code : Nat) (s : State) : State :=
  let c := k / 8
  let s1 := excRecord k code s
  let x := landAll (coreGet s1 k)
  let s2 := corePut k { coreAbandon x with st := 3 } s1
  raise (0x1511 + c * 0x100) 2 (k % 8) code (semLoseCore c (k % 8) (clEvent c 1 s2))

/-- Cores of cluster c that are enabled. -/
def coresOn (s : State) (c : Nat) : List Nat := (List.range 8).filter (coreEn s c)

/-- Is a core running the work of a cycle? -/
def coreBusyRun (s : State) (k : Nat) : Bool := (coreGet s k).st == 2

/-! ### Starting, stopping, gating (R217, R218, R225) -/

/-- A core starts at boundary k: it begins at ENTRY at the release. -/
def coreStart (k0 k : Nat) (s : State) : State :=
  let c := coreGet s k
  corePut k { coreAbandon c with st := 1, restart := true, startAt := some k0, cache := none, ovr := false, posted := [] } s

/-- The cluster starts: every enabled core starts, RESERVE is recomputed (R217). -/
def clusterStart (k c : Nat) (s : State) : State :=
  let r := reserveOf (spc s) (streamsLive s c)
  let s1 := clPut c { clGet s c with running := true, startK := k, reserve := r } s
  foldS (coresOn s1 c) (fun j t => coreStart k (c * 8 + j) t) s1

/-- The cluster stops at boundary k (R218). -/
def clusterStop (c : Nat) (s : State) : State :=
  let s1 := clPut c { clGet s c with running := false, inRes := false } s
  foldS (List.range 8) (fun j t =>
    let x := coreGet t (c * 8 + j)
    semLoseCore c j (corePut (c * 8 + j) { coreAbandon (landAll x) with st := 0 } t)) s1

/-- Is cluster c gated (R171, R225)? -/
def isGated (s : State) (c : Nat) : Bool := s.sil.gated.contains c

/-- The conditions of R171, with R225's exclusion of a cluster with a core out of action. -/
def gateCond (s : State) (c : Nat) : Bool :=
  let gs := (grpsOn s).filter (fun g => (grpGet s g).st == 3 && lb s (grpBase g + 4) 2)
  lb s (clBase c) 31 && lb s (clBase c) 16 && (clGet s c).running &&
    gs.any (fun g => lb s (grpBase g + 0xC) c) &&
    ((streamsLive s c).filter (fun x => !seOut x)).all (fun x =>
      (List.range (seCount x)).all (fun i => gs.any (fun g => grpMember s g (seFirst x + i)))) &&
    (coresOn s c).all (fun j => (coreGet s (c * 8 + j)).st == 1 || (coreGet s (c * 8 + j)).st == 2 || (coreGet s (c * 8 + j)).st == 5)

/-- Gate or ungate cluster c at a boundary. -/
def gateStep (c : Nat) (s : State) : State :=
  let g := gateCond s c
  if g && !isGated s c then
    let s1 := clEvent c 5 (evOr 0x40140004 4 { s with sil.gated := addTo c s.sil.gated })
    foldS (coresOn s1 c) (fun j t => corePut (c * 8 + j) { coreGet t (c * 8 + j) with st := 5 } t) s1
  else if !g && isGated s c then
    let s1 := { s with sil.gated := dropFrom c s.sil.gated }
    foldS (coresOn s1 c) (fun j t =>
      let x := coreGet t (c * 8 + j)
      if x.st = 5 then corePut (c * 8 + j) { x with st := 1 } t else t) s1
  else s

/-! ### The reserve (R215, R216) -/

/-- Do the cluster's channels of cycle k − 1 carry zero with MUTE (R216)? -/
def clusterMuted (s : State) (c : Nat) : Bool :=
  s.mix.clMute.contains c ||
    (coresOn s c).any (fun j => let st := (coreGet s (c * 8 + j)).st; st == 3 || st == 4 || st == 0)

/-- Deliver one OUT entry (R215 step 3). Entries of a core that started at k or k − 1 give zero (R217). An
uncorrectable ECC error zeroes the entry with MUTE (R216).
[DEDUCED, unsafe: log entry 62] -/
def streamOut (k c : Nat) (muted : Bool) (x : StreamE) (s : State) : State :=
  let core := coreGet s (c * 8 + seCore x)
  let early := match core.startAt with
    | some k0 => k < k0 + 2
    | none => false
  let words (i : Nat) : List Nat := (List.range (spc s)).map (fun j => seBus c x (seByte x i j))
  let bad := (List.range (seCount x)).any (fun i => (words i).any (fun a => s.eccBad.contains (a / 4 * 4)))
  if muted || early then s
  else if bad then
    let l := (List.range (seCount x)).map (fun i => 1024 + c * 256 + seFirst x + i)
    raise (0x1512 + c * 0x100) 2 255 0 { s with mix.clMute := l ++ s.mix.clMute }
  else foldS (List.range (seCount x)) (fun i t =>
    let row := (words i).map (fun a => sgn 32 (mWord t a))
    { t with mix.clOut := tset [] t.mix.clOut (c * 256 + seFirst x + i) row }) s

/-- Run one IN entry: the buses of cycle k − 1 (R215 step 4). A word with an ECC error is rewritten with zero and an
ERROR raised (R216).
[DEDUCED, unsafe: log entry 62] -/
def streamIn (c : Nat) (x : StreamE) (s : State) : State :=
  foldS (List.range (seCount x)) (fun i t =>
    let row := tget [] t.mix.buses (seFirst x + i)
    foldS (List.range (spc t)) (fun j t =>
      let a := seBus c x (seByte x i j)
      if t.eccBad.contains a then
        raise (0x1512 + c * 0x100) 2 255 0 (mStoreW a 0 { t with eccBad := dropFrom a t.eccBad })
      else mStoreW a (unsgn 32 (getAt 0 row j)) t) t) s

/-- The reserve of cluster c at boundary k, before the matrix computes cycle k: overruns, OUT, IN (R215).
[DEDUCED, unsafe: log entry 62] -/
def clusterReserve (k c : Nat) (s : State) : State :=
  let x := clGet s c
  if !x.running || isGated s c then s
  else if x.startK = k then clPut c { x with inRes := true, budget := nCy s - x.reserve } s
  else
    let muted := clusterMuted s c
    let s1 := whenS muted (fun t => { t with mix.clMute := addTo c t.mix.clMute }) s
    let s2 := foldS ((streamsLive s1 c).filter seOut) (fun e t => streamOut k c muted e t) s1
    let s3 := foldS ((streamsLive s2 c).filter (fun e => !seOut e)) (fun e t => streamIn c e t) s2
    clPut c { clGet s3 c with inRes := true, budget := nCy s3 - (clGet s3 c).reserve } s3

/-- Step 1 of the reserve: cores still running overrun, barriers clear (R215, R221).
[DEDUCED, unsafe: log entry 60] -/
def clusterOverruns (c : Nat) (s : State) : State :=
  if !(clGet s c).running || isGated s c then s
  else
    foldS (coresOn s c) (fun j t =>
      let k := c * 8 + j
      if coreBusyRun t k then coreOverrun k t
      else corePut k { coreGet t k with sync := false } t) s

/-- CORE_RELEASE (R199, R217): at clock RESERVE the waiting cores of the cluster run. -/
def coreReleaseFx (c : Nat) (s : State) : State :=
  let x := clGet s c
  if x.inRes then
    srvUp (21 + c) 0 x.reserve <| foldS (coresOn s c) (fun j t =>
      let k := c * 8 + j
      let y := coreGet t k
      if y.st = 1 then
        let again := match y.startAt with
          | some k0 => decide (k0 < t.grat.cycle)
          | none => false
        let t := srvCore k 4 (if again then nCy t - y.cyc else 0) t
        let y1 := { y with st := 2, cyc := 0, accVis := [], flight := [], ovr := false, restart := false, drain := false,
                           gap := [] }
        corePut k (if y.restart then { y1 with pc := lf t (coreBase k) 0 12 } else y1) t
      else t) (clPut c { x with inRes := false } s)
  else s

/-- CORE_BUDGET_EXPIRY (R199 step 5): a core that still runs when CYC reaches B overruns. -/
def budgetExpiryFx (k : Nat) (s : State) : State :=
  if coreBusyRun s k then
    let b := (clGet s (k / 8)).budget
    let x := coreGet s k
    coreOverrun k (srvCore k 3 (b - x.cyc) (corePut k { x with cyc := max x.cyc b } s))
  else s

/-- WAIT_CYCLE_DRAIN_END (R199 step 4): results land, posted stores are out, CYC_LAST := CYC, the core waits. -/
def drainEndFx (k : Nat) (s : State) : State :=
  let x := coreGet s k
  if x.st = 2 && x.drain && x.posted.isEmpty && x.load.isNone then
    let t := (x.flight.foldl (fun t f => max t f.land) x.cyc)
    let t := x.accVis.foldl (fun t e => max t e.2) t
    let s1 := srvCore k 3 (t - x.cyc) <| corePut k { landAll x with st := 1, drain := false, cyc := t, cycLast := t, accVis := [] } s
    let b := coreBase k + 0x14
    setLv b (wd (max (lvn s1 b) t)) s1
  else s

/-- Members of the barrier: cores in BAR_MASK whose state is RUNNING (R221). -/
def barMembers (s : State) (c : Nat) : List Nat :=
  ((List.range 8).filter (fun j => lb s (clBase c + 0x1C) j && coreBusyRun s (c * 8 + j) && !(coreGet s (c * 8 + j)).drain)).map
    (fun j => c * 8 + j)

/-- BARRIER_RELEASE (R221): all members issue their next packet two clocks after the last arrival.
[DEDUCED, unsafe: log entry 59] -/
def barrierFx (c : Nat) (s : State) : State :=
  let l := barMembers s c
  -- a member that executed WAIT_CYCLE has not arrived, and nobody is released
  let waiting := (List.range 8).any (fun j => lb s (clBase c + 0x1C) j && coreBusyRun s (c * 8 + j) && (coreGet s (c * 8 + j)).drain)
  if !waiting && !l.isEmpty && l.all (fun k => (coreGet s k).sync) then
    let t := l.foldl (fun t k => max t (coreGet s k).cyc) 0
    srvUp (21 + c) 5 1 <| foldS l (fun k u =>
      let x := coreGet u k
      srvCore k 3 (t + 1 - x.cyc) (corePut k { x with sync := false, cyc := t + 1, gap := tset 0 x.gap 6 (t + 1 - x.cyc) } u)) s
  else s

/-! ### Commits and resets -/

/-- The commit of cluster c at boundary k: RUN, and single starts when CL.START was written (R217, R218). -/
def clusterCommit (k c : Nat) (oldRun startWritten : Bool) (s : State) : State :=
  let run := lb s (clBase c) 31
  let x := clGet s c
  if x.safeRst || lb s 0x40000114 c then s
  else if run && !oldRun then clusterStart k c s
  else if !run && x.running then
    clusterStop c { s with sil.gated := dropFrom c s.sil.gated, mix.clMute := dropFrom c s.mix.clMute }
  else if run && startWritten then
    foldS ((coresOn s c).filter (fun j => lb s (clBase c + 4) j && (coreGet s (c * 8 + j)).st == 0 && x.running))
      (fun j t => coreStart k (c * 8 + j) t) s
  else s

/-- Registers of a core at reset (R177). -/
def coreResetRegs (s : State) (k : Nat) : NCore := { st := 0, pc := if k = 32 then 0 else lf s (coreBase k) 0 12 }

/-- Per-function reset of one core (R226). -/
def coreReset (k : Nat) (s : State) : State :=
  let c := k / 8
  let s1 := semLoseCore c (k % 8) (corePut k (coreResetRegs s k) s)
  let x := clGet s1 c
  clPut c { x with mbx := tset [] x.mbx (k % 8) [] } s1

/-- Per-function reset of a cluster, and the entry into its safe action (R226, R55). -/
def clusterReset (c : Nat) (s : State) : State :=
  let s1 := foldS (List.range 8) (fun j t => coreReset (c * 8 + j) t) s
  let x := clGet s1 c
  clPut c { reserve := x.reserve, budget := x.budget } { s1 with sil.gated := dropFrom c s1.sil.gated }

/-- Cluster state of CL.STAT (R227). -/
def clusterStNum (s : State) (c : Nat) : Nat :=
  let x := clGet s c
  if x.safeRst then 5
  else if lb s 0x40000114 c then 4
  else if !x.running then 0
  else if isGated s c then 3
  else if s.grat.cycle = x.startK then 1 else 2

/-- Read-only words of a cluster window (R204, R227). -/
def clView (s : State) (c o : Nat) : Option Word :=
  let x := clGet s c
  let stopP (a n : Nat) : Bool := (List.range n).any (fun i => (tget none s.hub.pend (clBase c + a + i * 4)).isSome)
  if o = 8 then
    some (wd (maskOf ((List.range 8).filter (fun j => (coreGet s (c * 8 + j)).st == 3)) * 65536
      + bitAt 8 (stopP 0 8 || s.hub.pend.any (fun e => decide (clBase c + 0x2000 ≤ e.1) && decide (e.1 < clBase c + 0x3000)))
      + clusterStNum s c))
  else if o = 0x14 then some (wd x.reserve)
  else if o = 0x24 then some (match x.psnap with
    | some n => wd (0x80000000 + n)
    | none => 0)
  else if 0xC0 ≤ o && o < 0xD0 then
    let w := (o - 0xC0) / 4
    some (wd ((List.range 8).foldl (fun a i =>
      let ow := tget 0 x.sem (w * 8 + i)
      a + (if ow = 0 then 15 else ow - 1) * 16 ^ i) 0))
  else if 0x100 ≤ o && o < 0x190 && o % 0x10 = 4 then
    some (lv s (clBase c + o) ||| wd (tget [] x.mbx ((o - 0x100) / 0x10)).length)
  else if 0x800 ≤ o && o < 0xA00 then
    let k := c * 8 + (o - 0x800) / 0x40
    let y := coreGet s k
    match o % 0x40 with
    | 4 => some (wd (y.levels.length * 512 + bitAt 8 y.ovr + bitAt 3 (tget none s.hub.pend (coreBase k)).isSome + y.st))
    | 0xC => some (wd y.excPc)
    | 0x10 => some (wd y.cycLast)
    | 0x18 => some (wd (x.budget % 65536))
    | 0x24 => some (wd y.pc)
    | _ => none
  else none

end Sys2Proof.Machine
end

