-- ==== Sys2Proof/Machine/Output.lean ====
section
/-! DEFINITION. The output stage: channel states, soft starts, trips, diagnostics, protection models, sense
(R229 to R258). -/

namespace Sys2Proof.Machine

def outBase (n : Nat) : Nat := 0x401B0000 + n * 0x400
def outGet (s : State) (n : Nat) : OutCh := tget {} s.out.ch n
def outPut (n : Nat) (x : OutCh) (s : State) : State := { s with out.ch := tset {} s.out.ch n x }

/-- Full scale in A32. -/
def fullA : Int := 16777216

/-- Is the rate family 44.1 kHz? -/
def fam44 (s : State) : Bool := lb s 0x40070000 0

/-- W of R170. -/
def softW (s : State) : Nat := if fam44 s then 111 else 120

/-- The exact cycle counts of R238. -/
def cy100ms (s : State) : Nat := if fam44 s then 2205 else 2400
def cy60ms (s : State) : Nat := if fam44 s then 1323 else 1440
def cy50ms (s : State) : Nat := if fam44 s then 1103 else 1200
def cy20ms (s : State) : Nat := if fam44 s then 441 else 480
def cy10s (s : State) : Nat := if fam44 s then 220500 else 240000

/-- Set EVENT bits of channel n: 0 TRIP 1 STATE_CHG 2 LATCHED 3 DC 4 ADAPT_LIM 5 LOCAL_TRIP. -/
def outEvent (n i : Nat) (s : State) : State := evOr (outBase n + 0x20) (2 ^ i) s

def outRun1 (s : State) (n : Nat) : Bool := lb s (outBase n) 31
def outDiagEn (s : State) (n : Nat) : Bool := lb s (outBase n) 30
def shortRetries (s : State) (n : Nat) : Nat := lf s (outBase n + 4) 8 4

/-- MODE in use: L2 after the fall-back of R244. -/
def outMode (s : State) (n : Nat) : Nat := if (outGet s n).fallback then 1 else lf s (outBase n) 20 1

/-- Milliseconds of a diagnostic as cycles.
[DEDUCED, unsafe: log entry 67] -/
def diagCy (s : State) (ms : Nat) : Nat := ms * famF s / 1000

/-- May the gates of channel n switch, by its state alone (R238, R240, R242, R243)? -/
def outActive (s : State) (n : Nat) : Bool :=
  let x := outGet s n
  match x.st with
  | 2 => diagCy s 5 ≤ s.grat.cycle - x.since && s.grat.cycle - x.since < diagCy s 58
  | 3 => true
  | 4 => true
  | 5 => !x.down
  | 7 => true
  | 8 => true
  | 11 => !x.down
  | _ => false

/-- Is the OUT domain able to drive its gates (R235)? The node safe state and the OUT safe action hold them low. -/
def outAllowed (s : State) (n : Nat) : Bool := !s.flt.safe && !unitSafe s 27 n && !blockSafe s 27

/-- Do the gates of channel n switch? -/
def gatesOn (s : State) (n : Nat) : Bool :=
  outActive s n && !(outGet s n).latch && !s.out.squallDue && outAllowed s n

/-! ### Ramps of the input gain and of the common duty (R240) -/

/-- The factor at sample i of cycle k; before its start a ramp holds its first value. -/
def outRampAt (s : State) (r : Ramp) (k i : Nat) : Nat × Nat :=
  if k < r.start then (r.n0, r.d0) else rampAt s r k i

/-- A constant factor. -/
def constRamp (n : Nat) : Ramp := { n0 := n, n1 := n }

/-- A ramp of n cycles from the factor in force before cycle k. -/
def outRampTo (s : State) (r : Ramp) (k cycles n1 : Nat) : Ramp :=
  let f := if k < r.start then (r.n0, r.d0) else rampBefore s r k
  { n0 := f.1, d0 := f.2, n1 := n1, start := k, len := max 1 cycles * spc s }

/-! ### State changes -/

/-- Enter state st at boundary k. -/
def outEnter (k n st : Nat) (s : State) : State :=
  outEvent n 1 (outPut n { outGet s n with st := st, since := k, down := false } s)

/-- The entry into OFF: pending STOP fields of the channel apply, the fall-back ends (R41, R244, R257). -/
def outToOff (k n : Nat) (s : State) : State :=
  let b := outBase n
  let s1 := outEnter k n 0 s
  let s2 := outPut n { outGet s1 n with fallback := false, c := constRamp 0, g := constRamp 0, duty := [] } s1
  pendApplyMask 0x401C0000 (wd (2 ^ n)) (pendApply (b + 0xC) (pendApply (b + 8) (pendApply b s2)))

/-- Leave OFF: the latch of a trip in STOPPING opens and the DC detectors are cleared (R245, R248). -/
def outLeaveOff (k n : Nat) (s : State) : State :=
  let x := outGet s n
  outPut n { x with latch := false, dcSince := k, dcPend := 0, retry := shortRetries s n } s

/-- Enter SOFTSTART at boundary k: the common duty rises to one half and the input gain from 0 to 1 (R240).
A wake during a soft stop reverses the ramp at the same rate. -/
def outSoftStart (k n : Nat) (s : State) : State :=
  let x := outGet s n
  let w := softW s
  let cyc := if x.st = 5 && !x.down then min w (k - x.stopLen) else w
  let x1 := { x with c := outRampTo s x.c k cyc 1, g := { n0 := 0, n1 := 1, start := k, len := w * spc s } }
  outEnter k n 3 (outPut n x1 s)

/-- Enter SLEEP at boundary k: input gain 0 and a soft stop (R238). -/
def outSleep (k n : Nat) (s : State) : State :=
  let x := outGet s n
  outEnter k n 5 (outPut n { x with g := constRamp 0, c := outRampTo s x.c k (softW s) 0, stopLen := k } s)

/-- Enter STOPPING at boundary k (R238, R240). Channels with no duty keep their gates off.
[DEDUCED, unsafe: log entry 66] -/
def outStopping (k n : Nat) (s : State) : State :=
  let x := outGet s n
  let live := x.st = 3 || x.st = 4 || x.st = 8 || (x.st = 5 && !x.down)
  let x1 := { x with g := if live then outRampTo s x.g k 1 0 else constRamp 0,
                     c := if live then outRampTo s x.c k (softW s) 0 else constRamp 0, stopLen := k }
  let s1 := outEnter k n 11 (outPut n x1 s)
  outPut n { outGet s1 n with down := !live } s1

/-- Enter LATCHED_OFF at boundary k with a result. -/
def outLatchOff (k n res : Nat) (s : State) : State :=
  let s1 := outEnter k n 9 s
  outEvent n 2 (outPut n { outGet s1 n with result := res } s1)

/-- Enter SHORT_HOLD at boundary k. -/
def outShortHold (k n : Nat) (s : State) : State := outEnter k n 6 s

/-- The trip of channel n moves its state at boundary k (R238, R242). -/
def outTripped (k n : Nat) (s : State) : State :=
  let x := outGet s n
  if x.st = 3 || x.st = 4 || x.st = 5 || x.st = 7 || x.st = 8 then outShortHold k n s
  else if x.st = 11 then
    let s1 := outToOff k n s
    outPut n { outGet s1 n with diagOk := false, latch := true } s1
  else if x.st = 2 then raise 0x1B16 2 n 4 (outLatchOff k n 4 s)
  else s

/-! ### Trips and the squall (R245 to R247, R254) -/

/-- The cycle a trip belongs to (R349): on a pair member a trip in window 62 or 63 belongs to the next one. -/
def tripCycle (s : State) : Nat :=
  if paired s && 62 ≤ windowNow s then s.grat.cycle + 1 else s.grat.cycle

/-- Does this node use received TRIP and SENSE records: is it a leeward with a verified link (R254, R349)? -/
def streamRemote (s : State) : Bool := paired s && s.pair.role == 2 && s.pair.link

/-- Join trips at the present instant to the squall count (R247): 8 within 500,000 ticks turn every gate off.
[DEDUCED, unsafe: log entry 66] -/
def squallCount (ns : List Nat) (s : State) : State :=
  let l := (s.out.trips.filter (fun e => decide (s.time.lc ≤ e.1 + 500000))) ++ ns.map (fun n => (s.time.lc, n))
  if 8 ≤ l.length && !s.out.squallDue && !s.out.squall then
    raise 0x1B13 2 255 (maskOf (l.map (fun e => e.2))) { s with out.trips := l, out.squallDue := true }
  else { s with out.trips := l }

/-- TRIP (R245): the gates of channel n go off and the latch holds them.
[DEDUCED, unsafe: log entry 66] -/
def tripFx (n : Nat) (src : TripSrc) (lenNs : Nat) (s : State) : State :=
  let hit := match src with
    | .current l => lf s (outBase n + 4) 16 8 < l
    | .bflt => lb s (outBase n) 24
  let x := outGet s n
  if hit && 20 ≤ lenNs && outActive s n && !x.latch then
    let c := tripCycle s
    let s1 := srvUp 27 0 1 <| ctrUp (outBase n + 0x28) 0 16 (outEvent n 0 (outPut n { x with latch := true } s))
    let s2 := { s1 with out.tripLoc := tset 0 s1.out.tripLoc c (tget 0 s1.out.tripLoc c ||| 2 ^ n) }
    squallCount [n] (raise 0x1B10 1 n 0 s2)
  else s

/-- The channels whose trips act at boundary k: those of cycle k − 1 in the node's stream. -/
def tripsFor (s : State) (k : Nat) : Nat :=
  tget 0 (if streamRemote s then s.out.tripStr else s.out.tripLoc) (k - 1)

/-- Local trips that the stream did not carry open their latch at the second boundary (R254). -/
def localTripRelease (k : Nat) (s : State) : State :=
  let loc := tget 0 s.out.tripLoc (k - 2)
  let str := tget 0 (if streamRemote s then s.out.tripStr else s.out.tripLoc) (k - 2)
  let s1 := foldS (bitsOf 32 loc) (fun n t =>
    if nbit str n || (outGet t n).st = 6 then t
    else outEvent n 5 (outPut n { outGet t n with latch := false } t)) s
  { s1 with out.tripLoc := tkeep (fun c => decide (k ≤ c + 2)) s1.out.tripLoc,
            out.tripStr := tkeep (fun c => decide (k ≤ c + 2)) s1.out.tripStr }

/-! ### The state machine (R238, R239) -/

/-- The channel's table-order transitions that no command of their own performs. A channel that a CLEAR took to OFF at
this boundary moves on at the next one.
[DESIGN CHOICE, unsafe: log entry 63] -/
def outRest (k n : Nat) (s : State) : State :=
  let x := outGet s n
  if x.st = 0 && outRun1 s n && x.since < k then
    let s1 := outLeaveOff k n s
    if outDiagEn s n || !x.diagOk then outEnter k n 1 s1 else outSoftStart k n s1
  else if x.st = 4 && silBridge s n then outSleep k n s
  else if x.st = 5 && !silBridge s n then outSoftStart k n s
  else s

/-- One channel at boundary k, by the order of R239. -/
def outStep1 (k n : Nat) (s : State) : State :=
  let x := outGet s n
  let trip := nbit (tripsFor s k) n
  if x.st = 12 || lb s 0x40000114 (24 + n / 8) then s
  else if !outAllowed s n then
    let s1 := outEnter k n 12 s
    outPut n { outGet s1 n with result := 12, dcPend := 0 } s1
  else if s.out.squallDue then outLatchOff k n 11 s
  else if x.dcPend != 0 then
    let s1 := outEnter k n 10 s
    outEvent n 3 (outPut n { outGet s1 n with result := x.dcPend, dcPend := 0 } s1)
  else if trip then outTripped k n s
  else if 1 ≤ x.st && x.st ≤ 8 && !outRun1 s n then outStopping k n s
  else outRest k n s

/-- Channels in a state. -/
def outCount (s : State) (st : Nat) : List Nat := (List.range 32).filter (fun n => (outGet s n).st == st)

/-- Channels in WAIT before this boundary enter DIAG in ascending order until four are in it (R241).
[DESIGN CHOICE, unsafe: log entry 63] -/
def diagBatch (k : Nat) (s : State) : State :=
  foldS (((outCount s 1).filter (fun n => (outGet s n).since < k)).take (4 - (outCount s 2).length))
    (fun n t => outEnter k n 2 t) s

/-- OUT_CHANNEL_STEP at boundary k.
[DESIGN CHOICE, unsafe: log entry 63] -/
def outStep (k : Nat) (s : State) : State :=
  let s1 := localTripRelease k s
  let s2 := foldS (List.range 32) (fun n t => outStep1 k n t) s1
  let s3 := if s2.out.squallDue then
      evOr 0x401B0304 1 { s2 with out.squallDue := false, out.squall := true, out.trips := [] }
    else s2
  diagBatch k s3

/-! ### The samples of a channel (R229 to R234) -/

/-- Product of a sample and a gain in 2^-24; the rounding is not stated. -/
def gainA (s : State) (key : Nat) (x : Int) (g : Nat) : Int := looseDiv .outModel key s (x * g) 16777216

/-- Samples of channel n in cycle k through stages 1 to 6, and how many were clamped.
[DESIGN CHOICE, safe: log entry 15] [DEDUCED, unsafe: log entry 64] -/
def outDuty (s : State) (k n : Nat) (x : OutCh) : List Int × Nat :=
  let row := (tget silentChan s.mix.egress (2312 + n)).x
  let xs := (List.range (spc s)).map (fun i => getAt 0 row i)
  let dmax : Int := lf s (outBase n + 4) 0 8 * 65536
  let r := xs.zipIdx.map (fun e =>
    let g := outRampAt s x.g k e.2
    let y1 := roundDiv (e.1 * g.1) g.2
    let y2 := if x.thGain = 16777216 then y1 else gainA s (k * 64 + e.2) y1 x.thGain
    let y3 := if x.exGain = 16777216 then y2 else gainA s (k * 64 + 32 + e.2) y2 x.exGain
    let y4 := if lb s (outBase n) 29 then y3 + ((draw .pilot (n * 64 + e.2) s % 335545 : Nat) : Int) - 167772 else y3
    let c := outRampAt s x.c k e.2
    let lim := if x.st = 3 then min dmax (roundDiv (fullA * c.1) c.2) else dmax
    let d := clampI (-lim) lim y4
    (d, d != y4))
  (r.map (fun e => e.1), (r.filter (fun e => e.2)).length)

/-- The samples of cycle k pass stages 1 to 6 of channel n; each clamped one counts in CNT.CLIP (R229, R240).
[DEDUCED, unsafe: log entry 64] -/
def outPass (k n : Nat) (s : State) : State :=
  let x := outGet s n
  let d := outDuty s k n x
  let loud := d.1.any (fun v => decide (167772 < v.natAbs))
  let s1 := srvUp 27 1 d.2 (outPut n { x with duty := d.1, loud := x.loud || loud } s)
  foldS (List.range d.2) (fun _ u => ctrUp (outBase n + 0x28) 16 16 u) s1

/-! ### Timed steps of the state machine -/

/-- DIAG_COMPLETE's result: the first failure in step order, 0 when every test passes (R242 to R244).
[DEDUCED, unsafe: log entry 67] -/
def diagResult (s : State) (n : Nat) (d : DiagIn) (lead : Bool) : Nat :=
  let b := outBase n
  if lead && d.openSense then 1
  else if d.shortGnd then 2
  else if d.shortRail then 3
  else if d.shortLoad then 4
  else if d.z < lf s (b + 8) 0 16 then 4
  else if lf s (b + 8) 16 16 < d.z then 5
  else if d.swap then 6
  else if lead && lf s b 20 1 = 0 && lf s (b + 0xC) 0 16 < d.cap && !lb s (b + 0x14) 0 then 7
  else 0

/-- DIAG_COMPLETE (R242, R244): the soft start takes the samples of this cycle, and the place in the batch is free
for a waiting channel at this boundary (R241).
[DEDUCED, unsafe: log entry 64] -/
def diagFx (n : Nat) (d : DiagIn) (s : State) : State :=
  let x := outGet s n
  let b := outBase n
  if x.st = 2 && x.since + cy60ms s ≤ s.grat.cycle then
    let l3 := lf s b 20 1 = 0
    let x1 := { x with z := min 65535 d.z, cap := if l3 then min 65535 d.cap else x.cap,
                       vofs := d.vofs.toInt, iofs := d.iofs.toInt }
    let s1 := srvUp 27 4 1 (outPut n x1 s)
    let r := diagResult s n d true
    if r = 0 then
      let fall := l3 && lf s (b + 0xC) 0 16 < d.cap
      let s2 := outPut n { x1 with diagOk := true, fallback := fall } s1
      let s3 := outSoftStart s.grat.cycle n (whenS fall (raise 0x1B17 1 n 0) s2)
      diagBatch s.grat.cycle (outPass s.grat.cycle n s3)
    else diagBatch s.grat.cycle (raise 0x1B16 2 n r (outLatchOff s.grat.cycle n r s1))
  else s

/-- SHORT_HOLD_EXPIRY (R238, R246). -/
def shortHoldFx (n : Nat) (s : State) : State :=
  let x := outGet s n
  if x.st = 6 && x.since + cy100ms s ≤ s.grat.cycle then
    let s1 := outPut n { x with latch := false, retry := x.retry - 1 } s
    if 0 < x.retry then outEnter s.grat.cycle n 7 s1
    else raise 0x1B12 2 n 0 (outLatchOff s.grat.cycle n 8 s1)
  else s

/-- RETEST_COMPLETE (R238, R243).
[DEDUCED, unsafe: log entry 67] -/
def retestFx (n : Nat) (d : DiagIn) (s : State) : State :=
  let x := outGet s n
  if x.st = 7 && x.since + cy20ms s ≤ s.grat.cycle then
    let k := s.grat.cycle
    let r := diagResult s n d false
    if r = 0 then
      let w := softW s
      let x1 := { x with z := min 65535 d.z, c := outRampTo s (constRamp 0) k w 1,
                         g := { n0 := 0, n1 := 1, start := k + w, len := cy50ms s * spc s } }
      raise 0x1B11 0 n 0 (outEnter k n 8 (outPut n x1 s))
    else outShortHold k n (outPut n { x with z := min 65535 d.z, result := r } s)
  else s

/-- SOFTSTART_COMPLETE (R238). -/
def softstartFx (n : Nat) (s : State) : State :=
  let x := outGet s n
  if x.st = 3 && x.since + softW s ≤ s.grat.cycle then outEnter s.grat.cycle n 4 s else s

/-- RECOVER_COMPLETE (R238).
[DEDUCED, unsafe: log entry 64] -/
def recoverFx (n : Nat) (s : State) : State :=
  let x := outGet s n
  if x.st = 8 && x.since + softW s + cy50ms s ≤ s.grat.cycle then
    if silBridge s n then
      let s1 := outSleep s.grat.cycle n s
      outPut n { outGet s1 n with duty := (outDuty s1 s.grat.cycle n (outGet s1 n)).1 } s1
    else outEnter s.grat.cycle n 4 s
  else s

/-- SOFT_STOP_END (R240): the gates go off. -/
def softStopFx (n : Nat) (s : State) : State :=
  let x := outGet s n
  if (x.st = 5 || x.st = 11) && !x.down && x.stopLen + softW s ≤ s.grat.cycle then outPut n { x with down := true } s else s

/-- STOPPING_COMPLETE (R238, R257). -/
def stoppingFx (n : Nat) (s : State) : State :=
  let x := outGet s n
  if x.st = 11 && x.since + softW s ≤ s.grat.cycle then outToOff s.grat.cycle n s else s

/-- RETRY_REFILL (R238). -/
def retryFx (n : Nat) (s : State) : State :=
  let x := outGet s n
  if x.st = 4 && x.since + cy10s s ≤ s.grat.cycle then outPut n { x with retry := shortRetries s n } s else s

/-- DC_DETECT (R248): no hold can have completed sooner than its length after the detectors were cleared.
[DESIGN CHOICE, unsafe: log entry 65] -/
def dcFx (n : Nat) (sensed : Bool) (s : State) : State :=
  let x := outGet s n
  let hold := if fam44 s then (if sensed then 4410 else 11025) else (if sensed then 4800 else 12000)
  if (x.st = 3 || x.st = 4 || x.st = 5 || x.st = 8 || x.st = 11) && x.dcPend = 0 && x.dcSince + hold ≤ s.grat.cycle then
    let j := windowNow s * spc s / 64
    let x1 := { x with dcPend := if sensed then 10 else 9, latch := true, g := constRamp 0,
                       duty := x.duty.zipIdx.map (fun e => if j < e.2 then 0 else e.1) }
    raise (if sensed then 0x1B15 else 0x1B14) 2 n 0 (outPut n x1 s)
  else s

/-! ### Commands by commit -/

/-- GCMD and CMD of a commit in which they were written (R247, R257): SQUALL_CLEAR first. -/
def outCommands (k : Nat) (written : List Nat) (s : State) : State :=
  let s1 := if written.contains 0x401B030C && lb s 0x401B030C 0 then { s with out.squall := false } else s
  foldS (List.range 32) (fun n t =>
    if written.contains (outBase n + 0x18) then
      let x := outGet t n
      let t1 := if lb t (outBase n + 0x18) 0 && (x.st = 9 || x.st = 10) && !t.out.squall then
          outToOff k n (outPut n { x with result := 0, diagOk := false, latch := false } t)
        else t
      if lb t (outBase n + 0x18) 1 then outPut n { outGet t1 n with diagOk := false } t1 else t1
    else t) s1

/-- Committed RH values become the base of the adaptation (R251). -/
def outBaseCommit (written : List Nat) (s : State) : State :=
  let offs := [0x50, 0x58, 0x80, 0x84]
  foldS written (fun a t =>
    if 0x401B0000 ≤ a && a < 0x401B8000 && offs.contains (a % 0x400) then
      let n := a % 0x10000 / 0x400
      let x := outGet t n
      outPut n { x with base := setAt x.base (offs.idxOf (a % 0x400)) (lf t a 0 16) } t
    else t) s

/-! ### The gate outputs (R230 to R236) -/

/-- High-side duty of a leg in A32 units of the carrier period (R231, R240).
[DESIGN CHOICE, safe: log entry 13] -/
def legDuty (s : State) (k n i : Nat) (legB : Bool) : Int :=
  let x := outGet s n
  let c := outRampAt s x.c k i
  let half := fullA * c.1 / c.2 / 2
  let d := getAt 0 x.duty i
  if legB then
    (if outMode s n = 1 && x.st != 3 then fullA - (half + d / 2) else half - d / 2)
  else half + d / 2

/-- Counts per carrier period (R230). -/
def carrierCounts (s : State) (n : Nat) : Nat := 1024 / 2 ^ lf s (outBase n) 16 2

/-- The on-time in counts that update u of cycle k gives a leg: the interpolator and the shaper are not stated bit
by bit (R233); a pulse below 2 counts is omitted (R236).
[DESIGN CHOICE, safe: log entry 13] -/
def gateCount (s : State) (n k u : Nat) (legB : Bool) : Nat :=
  if gatesOn s n then
    let v := draw .edge ((n * 2 + b2n legB) * 2 ^ 40 + k * 256 + u) s % (carrierCounts s n / 2 + 1)
    if v < 2 then 0 else v
  else 0

/-! ### Sense and the models (R249 to R254) -/

/-- Offsets removed; only enabled sense channels are measured (R252, R253).
[DEDUCED, unsafe: log entry 68] -/
def senseRows (s : State) (l : List SenseIn) : List SenseRow :=
  (l.filter (fun r => lb s 0x401C0000 r.ch.val)).map (fun r =>
    { ch := r.ch.val, v := r.v.map (fun w => w.toInt - (outGet s r.ch.val).vofs),
      i := r.i.map (fun w => w.toInt - (outGet s r.ch.val).iofs) })

/-- The record used at boundary k (R349): the cycle that has ended, on a pair member the one before it; a leeward takes
the received record or, where it is missing, its own.
[DEDUCED, unsafe: log entry 68] -/
def senseFor (k : Nat) (s : State) : List SenseRow × State :=
  if !paired s then (tget [] s.out.senseLoc (k - 1), s)
  else if !streamRemote s then (tget [] s.out.senseLoc (k - 2), s)
  else
    match s.out.senseStr.find? (fun e => e.1 == k - 2) with
    | some e => (e.2, { s with out.senseMiss := false })
    | none =>
      let s1 := ctrUp 0x400F0050 8 8 s
      (tget [] s.out.senseLoc (k - 2),
        whenS (!s.out.senseMiss) (raise 0x0F24 1 255 0) { s1 with out.senseMiss := true })

/-- Mean power of a record's channel in nW: the product of V and I in load volts and amperes. -/
def meanPower (s : State) (n : Nat) (r : SenseRow) : Int :=
  let sc := lvn s (0x401C0100 + n * 0x20)
  let sum := (r.v.zip r.i).foldl (fun a e => a + e.1 * e.2) 0
  sum * (nfld sc 16 16 * nfld sc 0 16 : Nat) * 1000000 / (max 1 r.v.length * 2 ^ 48 : Nat)

/-- One first-order step of the thermal model: T += (P × RTH − T) × T_cy / TAU, in 2^-32 K (R249). `tau` is in ms.
[DESIGN CHOICE, safe: log entry 14] -/
def thStep (s : State) (key : Nat) (t p : Int) (rth tau : Nat) : Int :=
  t + looseDiv .outModel key s ((p * rth * 2 ^ 32 - t * 1000000000000) * 1000) (1000000000000 * famF s * max 1 tau)

/-- The gain of a model moves between where it stands and its target; its path is not stated.
[DESIGN CHOICE, safe: log entry 14] -/
def modelGain (s : State) (key cur lo hi : Nat) : Nat :=
  let a := min cur lo
  let b := max cur hi
  min 16777216 (a + draw .outModel key s % (b - a + 1))

/-- Keep an adapted value inside its span and field range (R251): the value and whether it is at a limit.
[DESIGN CHOICE, safe: log entry 14] -/
def adaptClamp (committed span lo hi v : Nat) : Nat × Bool :=
  let l := max lo (ceilDiv (committed * (100 - span)) 100)
  let h := min hi (committed * (100 + span) / 100)
  let r := if v < l then l else if h < v then h else v
  (r, r == l || r == h)

/-- Adapt value j (0 RTH1, 1 RTH2, 2 F0, 3 Q) of channel n: the step itself is not stated (R249 to R251). -/
def adapt1 (n j : Nat) (s : State) : State :=
  let x := outGet s n
  let a := outBase n + getAt 0 [0x50, 0x58, 0x80, 0x84] j
  let lo := getAt 1 [1, 1, 1000, 100] j
  let hi := getAt 1 [65535, 65535, 50000, 10000] j
  let r := adaptClamp (getAt 0 x.base j) (lf s (outBase n + 0x9C) 16 8) lo hi (draw .outModel (n * 8 + j) s % 65536)
  let s1 := setLv a (wd r.1) s
  if r.2 && !nbit x.atLim j then
    raise 0x1B18 1 n 0 (outEvent n 4 (evOr (outBase n + 0xA0) (2 ^ j)
      (outPut n { x with atLim := x.atLim ||| 2 ^ j } s1)))
  else if r.2 then evOr (outBase n + 0xA0) (2 ^ j) s1
  else outPut n { x with atLim := if nbit x.atLim j then x.atLim - 2 ^ j else x.atLim } s1

/-- The signed 0.1 °C value of TAMB. -/
def tAmb (s : State) (n : Nat) : Int := lsgn s (outBase n + 0x4C) 0 16

/-- The thermal model of channel n at a boundary (R249). -/
def thermalRun (n : Nat) (r : SenseRow) (s : State) : State :=
  let x := outGet s n
  let b := outBase n
  if lb s b 28 then
    let p := meanPower s n r
    let t2 := thStep s (n * 8 + 1) x.t2 p (lf s (b + 0x58) 0 16) (lf s (b + 0x5C) 0 16 * 1000)
    let t1 := thStep s (n * 8) x.t1 p (lf s (b + 0x50) 0 16) (lf s (b + 0x54) 0 16)
    let model := tAmb s n + (t1 + t2) * 10 / 2 ^ 32
    let use := match x.tMeas with
      | some m => max model m
      | none => model
    let hot := decide ((lf s (b + 0x48) 0 16 : Int) < use)
    let g := if hot then modelGain s (n * 8 + 2) x.thGain 0 x.thGain
      else if x.thGain = 16777216 then 16777216 else modelGain s (n * 8 + 2) x.thGain x.thGain 16777216
    outPut n { x with t1 := t1, t2 := t2, tUse := use, thGain := g } s
  else if x.thGain = 16777216 then s
  else outPut n { x with thGain := modelGain s (n * 8 + 2) x.thGain x.thGain 16777216 } s

/-- The excursion model of channel n at a boundary (R250): prediction and gain are not stated bit by bit.
[DESIGN CHOICE, safe: log entry 14] -/
def excursionRun (n : Nat) (s : State) : State :=
  let x := outGet s n
  if lb s (outBase n) 27 then
    let pk := draw .outModel (n * 8 + 3) s % 65536
    let s1 := outPut n { x with exGain := 1 + draw .outModel (n * 8 + 4) s % 16777216, xPk := max x.xPk pk } s
    if lb s (outBase n) 26 && x.st = 4 then adapt1 n 3 (adapt1 n 2 s1) else s1
  else if x.exGain = 16777216 then s
  else outPut n { x with exGain := modelGain s (n * 8 + 4) x.exGain x.exGain 16777216 } s

/-- OUT's work on the samples of cycle k: the models take the sense record, then the cycle's samples pass (R229). -/
def outRun (k : Nat) (sense : List SenseIn) (s0 : State) : State :=
  let loc := senseRows s0 sense
  let raw := (sense.filter (fun r => lb s0 0x401C0000 r.ch.val)).flatMap (fun r => r.v ++ r.i)
  let full := (raw.filter (fun w => decide (16777215 ≤ w.toInt.natAbs))).length
  let s0 := srvUp 28 0 raw.length (srvUp 28 1 full s0)
  let s1 := { s0 with out.senseLoc := tset [] (tkeep (fun c => decide (k ≤ c + 3)) s0.out.senseLoc) (k - 1) loc }
  let s1 := foldS loc (fun r t =>
    outPut r.ch { outGet t r.ch with vLast := lastOf 0 r.v, iLast := lastOf 0 r.i } t) s1
  let (rec, s2) := senseFor k s1
  let s2 := { s2 with out.senseStr := tkeep (fun c => decide (k ≤ c + 2)) s2.out.senseStr }
  foldS (List.range 32) (fun n t =>
    if (outGet t n).st = 0 then t
    else
      let row := (rec.find? (fun r => r.ch == n)).getD { ch := n, v := [], i := [] }
      let t1 := excursionRun n (thermalRun n row t)
      let x := outGet t1 n
      let lim (g c : Nat) (u : State) : State := srvUp 27 c (if g = 16777216 then 0 else spc u) u
      lim x.thGain 2 (lim x.exGain 3 (outPass k n t1))) s2

/-- TH_RVC_MEASURE (R249): RVC, T_meas, and the adaptation of RTH1 or RTH2. -/
def rvcFx (n rvc : Nat) (s : State) : State :=
  let x := outGet s n
  let b := outBase n
  if lb s b 28 && lb s b 29 && x.rvcAt + famF s ≤ s.grat.cycle then
    let rref := lf s (b + 0x40) 0 16
    let alpha := lf s (b + 0x44) 0 16
    let m : Int := 250 + looseDiv .outModel (n * 8 + 5) s (((rvc : Int) - rref) * 10000000) (max 1 (rref * alpha))
    let s1 := outPut n { x with rvc := min 65535 rvc, tMeas := some m, rvcAt := s.grat.cycle, loud := false } s
    if lb s b 26 && x.st = 4 then adapt1 n (if x.loud then 0 else 1) s1 else s1
  else s

/-! ### Resets and views -/

/-- Step 1 of a reset of OUT group g: its gates go off (R256). -/
def outGroupGatesOff (g : Nat) (s : State) : State :=
  foldS (List.range 8) (fun i t => outPut (g * 8 + i) { outGet t (g * 8 + i) with latch := true } t) s

/-- Step 3 of a reset of OUT group g (R256, R457): the channels read OFF and their state its reset values; adapted
values stay; model temperatures restart from TAMB.
[DEDUCED, unsafe: log entry 69] -/
def outGroupReset (k g : Nat) (s : State) : State :=
  foldS (List.range 8) (fun i t =>
    let n := g * 8 + i
    let x := outGet t n
    let t1 := outToOff k n t
    outPut n { since := k, latch := true, dcSince := k, rvcAt := k, xPk := x.xPk, base := x.base, atLim := x.atLim } t1) s

/-- STAT of channel n (R257). -/
def outStat (s : State) (n : Nat) : Word :=
  let x := outGet s n
  let b := outBase n
  let stop := pendAt s b || pendAt s (b + 8) || pendAt s (b + 0xC) ||
    (match tget none s.hub.pend 0x401C0000 with
     | some v => bit (v ^^^ lv s 0x401C0000) n
     | none => false)
  wd (x.retry * 2 ^ 20 + bitAt 19 x.diagOk + bitAt 18 (silBridge s n) + bitAt 17 stop + outMode s n * 65536
      + bitAt 15 x.fallback + x.result * 256 + x.st)

/-- A gain in 2^-24 as a reduction in 0.01 dB: 0 at unity, else not stated bit by bit.
[DESIGN CHOICE, safe: log entry 14] -/
def gainDb (s : State) (key g : Nat) : Nat := if g = 16777216 then 0 else draw .outModel key s % 65536

/-- Read-only words of OUT. -/
def outView (s : State) (o : Nat) : Option Word :=
  let n := o / 0x400
  let x := outGet s n
  if o = 0x300 then
    some (wd (bitAt 31 s.out.squall + (outCount s 2).length * 256 + (outCount s 1).length))
  else if o = 0x310 then some (wd (maskOf (outCount s 5)))
  else if 32 ≤ n then none
  else match o % 0x400 with
    | 0x1C => some (outStat s n)
    | 0x2C => some (wd x.z)
    | 0x30 => some (wd x.cap)
    | 0x64 => some (wd (if lb s (outBase n) 29 then x.rvc else 0))
    | 0x68 => some (wd (unsgn 16 x.tUse))
    | 0x6C => some (wd (gainDb s (n * 8 + 6) x.thGain))
    | 0x94 => some (wd x.xPk)
    | 0x98 => some (wd (gainDb s (n * 8 + 7) x.exGain))
    | _ => none

/-- A read of EX_XPK clears the peak. -/
def xpkClear (n : Nat) (s : State) : State := outPut n { outGet s n with xPk := 0 } s

/-- Read-only words of SNS (R258).
[DEDUCED, unsafe: log entry 68] -/
def snsView (s : State) (o : Nat) : Option Word :=
  if 0x100 ≤ o && o < 0x500 then
    let x := outGet s ((o - 0x100) / 0x20)
    match o % 0x20 with
    | 4 => some (wd (unsgn 32 x.vofs))
    | 8 => some (wd (unsgn 32 x.iofs))
    | 0xC => some (wd (unsgn 32 x.vLast))
    | 0x10 => some (wd (unsgn 32 x.iLast))
    | _ => none
  else none

end Sys2Proof.Machine
end

