-- ==== Sys2Proof/Machine/Serial.lean ====
section
/-! DEFINITION. TDM ports, AES3 receivers and transmitters (R259 to R284). -/

namespace Sys2Proof.Machine

def tdmBase (n : Nat) : Nat := 0x40190000 + n * 0x1000
def rxBase (r : Nat) : Nat := 0x401A0000 + r * 0x100
def txBase (t : Nat) : Nat := 0x401A0400 + t * 0x100
def tdmGet (s : State) (n : Nat) : TdmPort := tget {} s.ser.tdm n
def tdmPut (n : Nat) (x : TdmPort) (s : State) : State := { s with ser.tdm := tset {} s.ser.tdm n x }
def rxGet (s : State) (r : Nat) : AesRx := tget {} s.ser.rx r
def rxPut (r : Nat) (x : AesRx) (s : State) : State := { s with ser.rx := tset {} s.ser.rx r x }
def txGet (s : State) (t : Nat) : AesTx := tget {} s.ser.tx t
def txPut (t : Nat) (x : AesTx) (s : State) : State := { s with ser.tx := tset {} s.ser.tx t x }

def tdmRun (s : State) (n : Nat) : Bool := lb s (tdmBase n) 31
def tdmFollower (s : State) (n : Nat) : Bool := lb s (tdmBase n) 0
def tdmFlen (s : State) (n : Nat) : Nat := 2 ^ lf s (tdmBase n + 4) 28 4
def tdmNslot (s : State) (n : Nat) : Nat := lf s (tdmBase n + 4) 16 6
def tdmDwidth (s : State) (n : Nat) : Nat := max 1 (lf s (tdmBase n + 4) 0 6)

/-! ### Formats (R262) -/

/-- A slot word to A32. -/
def tdmToA32 (s : State) (n : Nat) (w : Word) : Int :=
  if lb s (tdmBase n) 6 then w.toInt
  else
    let d := tdmDwidth s n
    let v := sgn d w.toNat
    if d ≤ 25 then v * (2 ^ (25 - d) : Nat) else (v + (2 ^ (d - 26) : Nat)) / (2 ^ (d - 25) : Nat)

/-- A32 to a slot word, and whether it was clamped. -/
def tdmFromA32 (s : State) (n : Nat) (a : Int) : Int × Bool :=
  if lb s (tdmBase n) 6 then (a, false)
  else
    let d := tdmDwidth s n
    let r := if d < 25 then (a + (2 ^ (24 - d) : Nat)) / (2 ^ (25 - d) : Nat) else a * (2 ^ (d - 25) : Nat)
    (satI d r, satI d r != r)

/-! ### The frame grid (R263, R270) -/

/-- FT of frame j of a grid of `sN` frames a cycle with offset `ofs` ps. -/
def frameFt (s : State) (sN j : Nat) (ofs : Int) : Nat :=
  ((ceilDiv (j * secU) (famF s * max 1 sN) : Nat) + psToU ofs).toNat

/-- The first frame at or after an FT. -/
def frameFrom (s : State) (sN ft : Nat) (ofs : Int) : Nat :=
  let x : Int := (ft : Int) - psToU ofs
  ceilDiv (x.toNat * (famF s * max 1 sN)) secU

/-- The next frame, on the new grid after a step of FT (R265). -/
def nextFrame (s : State) (sN j seen : Nat) (ofs : Int) : Nat :=
  if seen = s.time.stepCnt then j else frameFrom s sN (ftNow s) ofs

/-- FT at least 2 bit clocks after the commit copy of cycle k: 250 ns after its boundary (R16, R267, R269). -/
def afterCopy (s : State) (k clocks : Nat) : Nat :=
  cycleFt s k + 250 * 65536 + ceilDiv (2 * secU) (famF s * spc s * max 1 clocks)

/-- An egress sample by its media index: it lies in the present or the previous cycle; older ones are zero. -/
def egressAt (s : State) (d m : Nat) : Int :=
  let c := m / spc s
  let row := if c = s.grat.cycle then (tget silentChan s.mix.egress d).x
    else if c + 1 = s.grat.cycle then (tget silentChan s.mix.egPrev d).x
    else []
  getAt 0 row (m % spc s)

/-- Applied offset of a frame output (8 + n TDM, 16 + t AES3), in ps. -/
def frameOfs (s : State) (o : Nat) : Int := tget 0 s.time.outOfs o

/-! ### Start and stop (R266 to R268, R271) -/

/-- Is TDM port n able to run? -/
def tdmAllowed (s : State) (n : Nat) : Bool := !unitSafe s 25 n && !blockSafe s 25 && !lb s 0x40000114 (8 + n)

/-- Eight frames of zero fill both buffers (R271). -/
def tdmFill (s : State) (n : Nat) (x : TdmPort) : TdmPort :=
  let z := List.replicate (tdmNslot s n) (0 : Int)
  { x with inb := List.replicate 8 z, outb := List.replicate 8 z, oslip := 0 }

/-- Port n starts at boundary k; its pending STOP fields apply first. -/
def tdmStart (k n : Nat) (s : State) : State :=
  let s1 := pendApply (tdmBase n + 4) (pendApply (tdmBase n) s)
  let x : TdmPort :=
    { running := true, j := k * spc s1, first := true, stepSeen := s1.time.stepCnt,
      txM := lvn s1 (tdmBase n + 8), rxM := lvn s1 (tdmBase n + 0xC), newTx := 0,
      lost := false, fsync := s1.time.lc, frac := (tdmGet s1 n).frac }
  tdmPut n (if tdmFollower s1 n then tdmFill s1 n x else x) s1

/-- Port n stops at once: idle outputs, empty buffers (R267, R268).
[DEDUCED, unsafe: log entry 71] -/
def tdmHalt (n : Nat) (s : State) : State := tdmPut n {} s

/-- Port n at boundary k after the commits; `common` at its start cycle (R83, R266, R271, R275). -/
def tdmBoundary (k : Nat) (common : Bool) (n : Nat) (s : State) : State :=
  let x := tdmGet s n
  let run := tdmRun s n
  if !tdmAllowed s n then (if x.running || x.wait then tdmHalt n s else s)
  else if run && !x.running then
    if lb s 0x40070038 n && !common then tdmPut n { x with wait := true } s else tdmStart k n s
  else if !run && x.wait then tdmPut n { x with wait := false } s
  else if run && x.running then
    let x1 := { x with stopDue := none }
    if x1.refill then
      ctrUp (tdmBase n + 0x28) 8 8 (tdmPut n { tdmFill s n x1 with refill := false } s)
    else tdmPut n x1 s
  else if !run && x.running && x.stopDue.isNone then
    tdmPut n { x with stopDue := some (afterCopy s k (tdmFlen s n)) } s
  else s

/-- A commit wrote a mask of port n at boundary k (R269). -/
def tdmMaskCommit (k n : Nat) (s : State) : State :=
  let x := tdmGet s n
  if x.running && (x.txM != lvn s (tdmBase n + 8) || x.rxM != lvn s (tdmBase n + 0xC)) then
    tdmPut n { x with maskDue := some (afterCopy s k (tdmFlen s n)) } s
  else s

/-- Grid offset of port n: a follower's internal grid has none. -/
def tdmOfs (s : State) (n : Nat) : Int := if tdmFollower s n then 0 else frameOfs s (8 + n)

/-- FT of the next frame of port n. -/
def tdmNextFt (s : State) (n : Nat) : Nat :=
  let x := tdmGet s n
  frameFt s (spc s) (nextFrame s (spc s) x.j x.stepSeen (tdmOfs s n)) (tdmOfs s n)

/-- The first frame of port n at or after an FT, no earlier than its next one. -/
def tdmFrameAt (s : State) (n ft : Nat) : Nat :=
  let x := tdmGet s n
  max (nextFrame s (spc s) x.j x.stepSeen (tdmOfs s n)) (frameFrom s (spc s) ft (tdmOfs s n))

/-- TDM_STOP of a TDM port (R267): its next frame start is the stop point.
[DEDUCED, unsafe: log entry 71] -/
def tdmStopFx (n : Nat) (s : State) : State :=
  match (tdmGet s n).stopDue with
  | some ft =>
    if ft ≤ tdmNextFt s n then
      let s1 := tdmHalt n (atFt (tdmNextFt s n) s)
      pendApply (tdmBase n + 4) (pendApply (tdmBase n) s1)
    else s
  | none => s

/-- MASK_APPLY (R269). -/
def maskFx (n : Nat) (s : State) : State :=
  let x := tdmGet s n
  match x.maskDue with
  | some ft =>
    if x.running && ft ≤ tdmNextFt s n then
      let tx := lvn s (tdmBase n + 8)
      tdmPut n { x with maskDue := none, txM := tx, rxM := lvn s (tdmBase n + 0xC),
                        newTx := (bitsOf 32 tx).foldl (fun a i => if nbit x.txM i then a else a + 2 ^ i) 0 }
        (atFt (tdmNextFt s n) s)
    else s
  | none => s

/-! ### Frames -/

/-- What DOUT carries: enabled slots their words, the others the idle drive; clamps are counted. -/
def tdmSend (n : Nat) (row : List Int) (s : State) : State :=
  let x := tdmGet s n
  let idle : Option Int := if lb s (tdmBase n) 7 then some 0 else none
  let cells := (List.range (tdmNslot s n)).map (fun i =>
    if !nbit x.txM i then (idle, false)
    else if nbit x.newTx i then (some 0, false)
    else let r := tdmFromA32 s n (getAt 0 row i); (some r.1, r.2))
  let sats := (cells.filter (fun c => c.2)).length
  let s1 := tdmPut n { x with dout := cells.map (fun c => c.1), newTx := 0 } s
  foldS (List.range sats) (fun _ t => ctrUp (tdmBase n + 0x28) 0 8 t)
    (whenS (sats != 0) (evOr (tdmBase n + 0x20) 8) s1)

/-- The captured row of a frame: disabled slots deliver zero (R269). -/
def tdmRow (s : State) (n : Nat) (din : List Word) : List Int :=
  (List.range (tdmNslot s n)).map (fun i => tdmToA32 s n (getAt 0 din i))

def tdmMasked (s : State) (n : Nat) (row : List Int) : List Int :=
  row.zipIdx.map (fun e => if nbit (tdmGet s n).rxM e.2 then e.1 else 0)

/-- The egress row of sample m for port n; the sample before the first one is zero (R266, R271). -/
def tdmEgress (s : State) (n m : Nat) : List Int :=
  (List.range (tdmNslot s n)).map (fun i => if s.flt.safe then 0 else egressAt s (2048 + n * 32 + i) m)

/-- TDM_FRAME (R263): frame j sends egress sample j − 1 and captures sample j + 1.
[DESIGN CHOICE, unsafe: log entry 70] -/
def tdmFrameFx (n : Nat) (din : List Word) (s : State) : State :=
  let x := tdmGet s n
  if x.running && !tdmFollower s n then
    let j := nextFrame s (spc s) x.j x.stepSeen (tdmOfs s n)
    let s1 := atFt (frameFt s (spc s) j (tdmOfs s n)) s
    let row := if x.first || j = 0 then [] else tdmEgress s1 n (j - 1)
    let s2 := srvUp 25 0 1 (tdmSend n row s1)
    let s3 := arriveLocal 3 n (j + 1) (tdmMasked s2 n (tdmRow s2 n din)) s2
    tdmPut n { tdmGet s3 n with j := j + 1, first := false, stepSeen := s3.time.stepCnt } s3
  else s

/-- Input level in 1/256 frame (R270). -/
def tdmLevel (x : TdmPort) : Nat := x.inb.length * 256 + x.frac
def rxLevel (x : AesRx) : Nat := x.inb.length * 256 + x.frac

/-- The measured frequency of a frame clock of nominal rate `fs` from one period (R87). -/
def frameY (s : State) (last fs : Nat) : Int :=
  let p := s.time.lc - last
  if p = 0 || fs = 0 then 0 else nearDiv .roundTie 3 s ((500000000 - (fs * p : Int)) * 2 ^ 48) (fs * p)

/-- TDM_FRAME_RECEIVED (R270, R275): the external clock also drains one output frame.
[DESIGN CHOICE, safe: log entry 21] [DEDUCED, unsafe: log entry 45] [DESIGN CHOICE, unsafe: log entry 70] -/
def tdmReceivedFx (n bits : Nat) (din : List Word) (s : State) : State :=
  let x := tdmGet s n
  if x.running && tdmFollower s n then
    let bad := bits != tdmFlen s n
    let full := 16 ≤ x.inb.length
    let row := match x.outb with
      | r :: _ => r
      | [] => (List.range (tdmNslot s n)).map (fun i => sgn 32 (draw .emptyFrame (n * 32 + i) s))
    let s1 := tdmSend n row s
    let x1 := { tdmGet s1 n with outb := x.outb.drop 1, fsync := s.time.lc, frac := 0,
                                 inb := if bad || full then x.inb else x.inb ++ [tdmRow s n din],
                                 refill := x.refill || (!bad && full) }
    let s2 := tdmPut n x1 s1
    let s3 := srvUp 25 0 1 (whenS (bad || full) (fun t => srvUp 25 3 1 (evOr (tdmBase n + 0x20) 2 (ctrUp (tdmBase n + 0x28) 16 8 t))) s2)
    let fs := famF s * spc s
    let ph : Int := ((2048 : Int) - tdmLevel x1) * secU / (256 * fs : Nat)
    arrive (24 + n) (ceilDiv 500000000 fs) (frameY s x.fsync fs) ph 0 s3
  else s

/-- The two output-buffer entries of an internal frame: a slip owed repeats or drops one sample at position 0 (R273).
[DESIGN CHOICE, unsafe: log entry 70] -/
def tdmPlace (n j : Nat) (row : List Int) (s : State) : State :=
  let x := tdmGet s n
  let at0 := (j - 1) % spc s = 0
  let rows := if at0 && x.oslip > 0 then [x.lastOut, row] else if at0 && x.oslip < 0 then [] else [row]
  let s1 := if at0 && x.oslip != 0 then srvUp 25 2 1 (ctrUp (tdmBase n + 0x28) 24 8 s) else s
  let s2 := tdmPut n { x with oslip := if at0 then 0 else x.oslip, lastOut := row } s1
  foldS rows (fun r t =>
    let y := tdmGet t n
    if 16 ≤ y.outb.length then ctrUp (tdmBase n + 0x28) 24 8 t
    else tdmPut n { y with outb := y.outb ++ [r] } t) s2

/-- TDM_INTERNAL_FRAME of a TDM follower (R270, R271, R274). -/
def tdmInternalFx (n : Nat) (s : State) : State :=
  let x := tdmGet s n
  if x.running && tdmFollower s n then
    let j := nextFrame s (spc s) x.j x.stepSeen 0
    let s1 := atFt (frameFt s (spc s) j 0) s
    let s2 := match x.inb with
      | r :: t => arriveLocal 3 n (j + 1) (tdmMasked s1 n r) (tdmPut n { x with inb := t, lastIn := r } s1)
      | [] => s1
    let out := if x.first || j = 0 then List.replicate (tdmNslot s n) 0 else tdmEgress s2 n (j - 1)
    let s3 := tdmPlace n j out s2
    tdmPut n { tdmGet s3 n with j := j + 1, first := false, stepSeen := s3.time.stepCnt } s3
  else s

/-- TDM_CLOCK_LOST (R274). -/
def tdmLostFx (n : Nat) (s : State) : State :=
  let x := tdmGet s n
  if x.running && tdmFollower s n && !x.lost then
    let due := x.fsync + ceilDiv (2 * 500000000) (famF s * spc s)
    evOr (tdmBase n + 0x20) 1 (tdmPut n { x with lost := true } (atLc due s))
  else s

/-- TDM_CLOCK_REGAINED (R274): both buffers refill at the next boundary. -/
def tdmRegainedFx (n : Nat) (s : State) : State :=
  let x := tdmGet s n
  if x.running && x.lost then evOr (tdmBase n + 0x20) 1 (tdmPut n { x with lost := false, refill := true } s) else s

/-! ### AES3 receivers -/

/-- The rate multiple a receiver's reading slot needs (R278). -/
def rxNeed (s : State) (r : Nat) : Nat :=
  match (slotsOn s).find? (fun i => slotKind s i == 4 && lf s (slotBase i + 4) 0 2 == r) with
  | some i => slotS s i
  | none => spc s

/-- Does the confirmed rate lie within 1,000 ppm of what the slot needs (R278)? -/
def rxRateOk (s : State) (r : Nat) : Bool :=
  let need := famF s * rxNeed s r
  let x := rxGet s r
  ((x.rate : Int) - need).natAbs * 1000 ≤ need && x.rate != 0

/-- Is a receiver allowed to work? Units 0 to 3 of the AES window are receivers, 4 to 7 transmitters. -/
def rxAllowed (s : State) (r : Nat) : Bool := !unitSafe s 26 r && !blockSafe s 26 && !lb s 0x40000114 (16 + r)
def txAllowed (s : State) (t : Nat) : Bool := !unitSafe s 26 (4 + t) && !blockSafe s 26 && !lb s 0x40000114 (20 + t)

/-- A lock change (R277). -/
def rxLockChange (r : Nat) (v : Bool) (s : State) : State :=
  let x := rxGet s r
  evOr (rxBase r + 0x10) 1 (ctrUp (rxBase r + 0x18) 8 8
    (rxPut r { x with lock := v, held := x.held && v, blockOk := x.blockOk && v } s))

/-- One subframe's audio in A32 (R277). -/
def rxAudio (s : State) (r : Nat) (f : AesSub) (prev : Int) : Int :=
  if f.parErr then prev
  else if f.v && lb s (rxBase r) 1 then 0
  else
    let w := if lb s (rxBase r) 2 then f.audio.toNat else f.audio.toNat / 16 * 16
    sgn 24 w * 2

/-- 192 bits as six words, block bit b in byte b / 8, bit b mod 8 (R279). -/
def bitWords (l : List Bool) : List Word :=
  (List.range 6).map (fun w => wd (maskOf ((List.range 32).filter (fun i => getAt false l (w * 32 + i)))))

/-- One step of the CRCC over a bit: x^8 + x^4 + x^3 + x^2 + 1, least significant bit sent first (R279).
[PRESUMED, unsafe: log entry 72] -/
def crccBit (c : Nat) (b : Bool) : Nat :=
  let fb := nbit c 7 != b
  let c' := c * 2 % 256
  if fb then c' ^^^ 0x1D else c'

/-- The CRCC byte of 23 channel-status bytes as six words; the check bits are sent from the highest power.
[PRESUMED, unsafe: log entry 72] -/
def crcc (ws : List Word) : Nat :=
  let bits := (List.range 184).map (fun i => bit (getAt 0 ws (i / 32)) (i % 32))
  let c := bits.foldl crccBit 0xFF
  maskOf ((List.range 8).filter (fun i => nbit c (7 - i)))

/-- Does a subframe's channel status pass (R279)?
[PRESUMED, unsafe: log entry 72] -/
def csOk (s : State) (r : Nat) (ws : List Word) : Bool :=
  !(lb s (rxBase r) 0 && bit (getAt 0 ws 0) 0) || fld (getAt 0 ws 5) 24 8 == crcc ws

/-- The grade of CS_A byte 4 (R279).
[DEDUCED, unsafe: log entry 73] -/
def rxGrade (x : AesRx) : Nat :=
  let g := fld (getAt 0 x.cs 1) 0 2
  if g = 3 then 0 else g

/-- AES_BLOCK_END (R279): the words of a whole block are checked and accepted together. -/
def rxBlockEnd (r : Nat) (s : State) : State :=
  let x := rxGet s r
  if !(x.blockOk && x.bits.length == 192) then s
  else
    let ca := bitWords (x.bits.map (fun b => b.1))
    let cb := bitWords (x.bits.map (fun b => b.2.1))
    let ua := bitWords (x.bits.map (fun b => b.2.2.1))
    let ub := bitWords (x.bits.map (fun b => b.2.2.2))
    let old (i : Nat) : List Word := (List.range 6).map (fun w => getAt 0 x.cs (i * 6 + w))
    let okA := csOk s r ca
    let okB := csOk s r cb
    let na := if okA then ca else old 0
    let nb := if okB then cb else old 1
    let chg := na != old 0 || nb != old 1
    let s1 := rxPut r { x with cs := na ++ nb ++ ua ++ ub, seq := (x.seq + 1) % 65536 } s
    let crc (ok : Bool) (t : State) : State :=
      if ok then t else srvUp 26 3 1 <| evOr (rxBase r + 0x10) 8 (ctrUp (rxBase r + 0x18) 24 8 t)
    let s2 := evOr (rxBase r + 0x10) 0x20 (whenS chg (evOr (rxBase r + 0x10) 4) (crc okB (crc okA s1)))
    foldS ((List.range 8).filter (fun n => candSrc s2 n == 2 && lf s2 (candBase n) 12 3 == r)) (fun n t =>
      { t with cmp.cand := tset {} t.cmp.cand n { tget {} t.cmp.cand n with grade := rxGrade (rxGet t r) } }) s2

/-- The block bookkeeping of a frame under lock: a Z preamble ends one block and begins the next (R279). -/
def rxBlock (r : Nat) (f : AesFrame) (s : State) : State :=
  let b := (f.a.c, f.b.c, f.a.u, f.b.u)
  if f.zPre then
    let s1 := rxBlockEnd r s
    rxPut r { rxGet s1 r with blockOk := true, bits := [b] } s1
  else
    let x := rxGet s r
    if x.bits.length < 193 then rxPut r { x with bits := x.bits ++ [b] } s else s

/-- Count a subframe's errors (R277). -/
def rxCount (r : Nat) (f : AesSub) (s : State) : State :=
  let s1 := if f.parErr then srvUp 26 2 1 (evOr (rxBase r + 0x10) 0x10 (ctrUp (rxBase r + 0x18) 16 8 s)) else s
  if f.v then ctrUp (rxBase r + 0x18) 0 8 s1 else s1

/-- A frame's audio enters the elastic buffer while AUDIO = 1 (R275, R278). -/
def rxPush (r : Nat) (row : List Int) (s : State) : State :=
  let x := rxGet s r
  if !x.audio then s
  else if 16 ≤ x.inb.length then
    evOr (rxBase r + 0x10) 0x80 (ctrUp (rxBase r + 0x28) 0 8 (rxPut r { x with refill := true } s))
  else rxPut r { x with inb := x.inb ++ [row], frac := 0 } s

/-- AES_RX_FRAME (R277).
[DEDUCED, unsafe: log entry 73] -/
def aesRxFx (r : Nat) (f : AesFrame) (s : State) : State :=
  let x := rxGet s r
  if !x.running then s
  else if f.codeErr then
    let s1 := rxPut r { x with good := 0, bad := x.bad + 1, blockOk := false } s
    if x.lock && 2 ≤ x.bad + 1 then rxLockChange r false s1 else s1
  else
    let s1 := rxPut r { x with good := min 8 (x.good + 1), bad := 0 } s
    let s2 := if !x.lock && 8 ≤ x.good + 1 then rxLockChange r true s1 else s1
    if !(rxGet s2 r).lock then s2
    else
      let row := [rxAudio s2 r f.a (getAt 0 x.prev 0), rxAudio s2 r f.b (getAt 0 x.prev 1)]
      let s3 := srvUp 26 0 1 <| rxCount r f.b (rxCount r f.a (rxPut r { rxGet s2 r with prev := row } s2))
      let s4 := rxPush r row (rxBlock r f s3)
      if f.zPre then
        let fs := x.rate / 192
        let ph := ftNow s * (famF s * spc s) % (192 * secU)
        let half : Int := if 2 * ph ≤ 192 * secU then ph else (ph : Int) - 192 * secU
        arrive (16 + r) (ceilDiv 500000000 (max 1 x.rate)) (frameY s (measGet s (16 + r)).last fs)
          (half / (famF s * spc s : Nat)) x.rate s4
      else s4

/-- AES_RATE_MEASURE (R280) at the next whole second of FT.
[DEDUCED, unsafe: log entry 73] -/
def aesRateFx (r frames : Nat) (s : State) : State :=
  let x := rxGet s r
  if !x.running then s
  else
    let sec := ftNow s / secU + (if ftNow s / secU ≤ x.second then 1 else 0)
    let s1 := atFt (sec * secU) s
    let m := if x.lock && x.held then frames % 2 ^ 18 else 0
    let past := (m :: x.past).take 3
    let near (a b : Nat) : Bool := ((a : Int) - b).natAbs ≤ 1
    let steady := past.length == 3 && past.all (fun a => past.all (near a))
    let change := steady && !near m x.rate
    let s2 := rxPut r { x with meas := m, past := past, held := x.lock, second := sec,
                               rate := if change then m else x.rate } s1
    whenS change (evOr (rxBase r + 0x10) 2) s2

/-- A receiver at boundary k after the commits: RUN, AUDIO and refills (R271, R278).
[DEDUCED, unsafe: log entry 73] -/
def rxBoundary (k r : Nat) (s : State) : State :=
  let x := rxGet s r
  let run := lb s (rxBase r) 31 && rxAllowed s r
  if !run then (if x.running then rxPut r {} s else s)
  else
    let x0 := if x.running then x else { x with running := true, j := k * rxNeed s r, stepSeen := s.time.stepCnt }
    let audio := x0.lock && rxRateOk s r
    let fill := (audio && !x0.audio) || x0.refill
    let z := List.replicate 8 [(0 : Int), 0]
    let x1 := { x0 with audio := audio, refill := false, inb := if !audio then [] else if fill then z else x0.inb,
                        j := if audio && !x0.audio then k * rxNeed s r else x0.j,
                        stepSeen := s.time.stepCnt }
    let s1 := rxPut r x1 s
    whenS x0.refill (ctrUp (rxBase r + 0x28) 8 8) s1

/-- TDM_INTERNAL_FRAME of a receiver (R270, R278). -/
def rxInternalFx (r : Nat) (s : State) : State :=
  let x := rxGet s r
  if x.running && x.audio then
    let sN := rxNeed s r
    let j := nextFrame s sN x.j x.stepSeen 0
    let s1 := atFt (frameFt s sN j 0) s
    let s2 := match x.inb with
      | w :: t => arriveLocal 4 r (j + 1) w (rxPut r { x with inb := t, lastIn := w } s1)
      | [] => s1
    rxPut r { rxGet s2 r with j := j + 1, stepSeen := s2.time.stepCnt } s2
  else s

/-! ### Slips (R272, R273) -/

/-- The slip due by a level: +1 skip, −1 repeat. -/
def slipDueOf (level win : Nat) : Int :=
  if (8 + win) * 256 ≤ level then 1 else if level ≤ (8 - win) * 256 then -1 else 0

/-- Levels evaluated at a boundary (R272). -/
def slipsEvaluate (s : State) : State :=
  let t1 := (List.range 8).foldl (fun tb n =>
    let x := tdmGet s n
    if x.running && tdmFollower s n && !x.refill && !x.lost then tset 0 tb n (slipDueOf (tdmLevel x) (lf s (tdmBase n + 0x18) 0 3)) else tb)
    ([] : Tab Int)
  let t2 := (List.range 4).foldl (fun tb r =>
    let x := rxGet s r
    if x.running && x.audio then tset 0 tb (8 + r) (slipDueOf (rxLevel x) (lf s (rxBase r + 0x24) 0 3)) else tb) t1
  { s with mix.slipDue := t2 }

/-- Has a source a running ingress slot? -/
def slipReader (s : State) (q : Nat) : Bool :=
  (slotsOn s).any (fun i => slotSource s i == some q && lb s (slotBase i) 31 && (slotGet s i).running)

/-- The port side of a slip: a skip takes one frame more as the newest index, a repeat gives the newest back (R272, R273).
[DESIGN CHOICE, unsafe: log entry 70] -/
def portSlip (q : Nat) (dir : Int) (s : State) : State :=
  if q < 8 then
    let x := tdmGet s q
    let s1 := srvUp 25 1 1 (evOr (tdmBase q + 0x20) 4 (tdmPut q { x with oslip := dir } s))
    if dir > 0 then
      match x.inb with
      | r :: t => arriveLocal 3 q x.j (tdmMasked s q r)
          (tdmPut q { x with inb := t, lastIn := r, oslip := dir } s1)
      | [] => s1
    else forgetLocal 3 q (x.j + 1) (tdmPut q { x with inb := x.lastIn :: x.inb, oslip := dir } s1)
  else
    let r := q - 8
    let x := rxGet s r
    let s1 := evOr (rxBase r + 0x10) 0x40 s
    if dir > 0 then
      match x.inb with
      | w :: t => arriveLocal 4 r x.j w (rxPut r { x with inb := t, lastIn := w } s1)
      | [] => s1
    else forgetLocal 4 r (x.j + 1) (rxPut r { x with inb := x.lastIn :: x.inb } s1)

/-- SLIP at boundary k: ingress slips, then the ports that slipped (R131, R272, R273). A port that no slot reads
slips its own buffers.
[DESIGN CHOICE, unsafe: log entry 47] -/
def slipsRun (k : Nat) (s : State) : State :=
  let s0 := slipsEvaluate s
  let (s1, dirs) := applySlips k s0
  let own := s0.mix.slipDue.filter (fun e => !slipReader s0 e.1)
  foldS (dirs ++ own) (fun e t => portSlip e.1 e.2 t) s1

/-! ### AES3 transmitters -/

/-- The live channel-status and user words of a transmitter. -/
def txWords (s : State) (t : Nat) : List Word := (List.range 24).map (fun i => lv s (txBase t + 0x40 + 4 * i))

/-- Byte 23 of a block is the CRCC when CRC_GEN = 1 (R282). -/
def withCrcc (ws : List Word) : List Word :=
  setAt ws 5 (wd (fld (getAt 0 ws 5) 0 24 + crcc ws * 2 ^ 24))

/-- The words a block sends (R282). -/
def txBlockWords (s : State) (t : Nat) : List Word :=
  let w := txWords s t
  if lb s (txBase t) 2 then withCrcc (w.take 6) ++ withCrcc ((w.drop 6).take 6) ++ w.drop 12 else w

/-- An audio word from A32 (R281): value and clamp. -/
def txAudio (s : State) (t : Nat) (a : Int) : Int × Bool :=
  if lb s (txBase t) 3 then
    let r := (a + 16) / 32
    (satI 20 r * 16, satI 20 r != r)
  else fromA32 1 a

/-- A transmitter at boundary k after the commits (R283). -/
def txBoundary (k : Nat) (common : Bool) (t : Nat) (s : State) : State :=
  let x := txGet s t
  let run := lb s (txBase t) 31
  if !txAllowed s t then (if x.running || x.wait then txPut t {} s else s)
  else if run && !x.running then
    if lb s 0x40070038 (8 + t) && !common then txPut t { x with wait := true } s
    else txPut t { running := true, j := k * spc s, first := true, stepSeen := s.time.stepCnt } s
  else if !run && x.wait then txPut t { x with wait := false } s
  else if run && x.running then txPut t { x with stopDue := none } s
  else if !run && x.running && x.stopDue.isNone then txPut t { x with stopDue := some (afterCopy s k 64) } s
  else s

/-- FT of a transmitter's next frame. -/
def txNextFt (s : State) (t : Nat) : Nat :=
  let x := txGet s t
  frameFt s (spc s) (nextFrame s (spc s) x.j x.stepSeen (frameOfs s (16 + t))) (frameOfs s (16 + t))

/-- TDM_STOP of a transmitter (R267, R283). -/
def txStopFx (t : Nat) (s : State) : State :=
  match (txGet s t).stopDue with
  | some ft => if ft ≤ txNextFt s t then txPut t {} (atFt (txNextFt s t) s) else s
  | none => s

/-- AES_TX_FRAME (R281, R282). -/
def aesTxFx (t : Nat) (s : State) : State :=
  let x := txGet s t
  if x.running then
    let j := nextFrame s (spc s) x.j x.stepSeen (frameOfs s (16 + t))
    let s1 := atFt (frameFt s (spc s) j (frameOfs s (16 + t))) s
    let m := j - 1
    let a (i : Nat) : Int := if x.first || j = 0 || s1.flt.safe then 0 else egressAt s1 (2304 + 2 * t + i) m
    let ws := [txAudio s1 t (a 0), txAudio s1 t (a 1)]
    let sats := (ws.filter (fun w => w.2)).length
    let blk := j % 192 = 0
    let s2 := txPut t { x with j := j + 1, first := false, stepSeen := s1.time.stepCnt, inBlock := x.inBlock || blk,
                               cs := if blk then txBlockWords s1 t else x.cs, sent := ws.map (fun w => w.1) } s1
    let s3 := srvUp 26 1 1 (whenS blk (evOr (txBase t + 0x10) 1) s2)
    foldS (List.range sats) (fun _ u => ctrUp (txBase t + 0x18) 0 16 u) (whenS (sats != 0) (evOr (txBase t + 0x10) 2) s3)
  else s

/-! ### All ports -/

/-- The outside's fractions of frames in progress (R270).
[DESIGN CHOICE, unsafe: log entry 47] -/
def fracIn (l : List (Fin 12 × BitVec 8)) (s : State) : State :=
  foldS l (fun e t =>
    if e.1.val < 8 then tdmPut e.1.val { tdmGet t e.1.val with frac := e.2.toNat } t
    else rxPut (e.1.val - 8) { rxGet t (e.1.val - 8) with frac := e.2.toNat } t) s

/-- The ports at boundary k after the commits; `common` are the members of a common start at it (R83). -/
def serialBoundary (k common : Nat) (s : State) : State :=
  let s1 := foldS (List.range 8) (fun n t => tdmBoundary k (nbit common n) n t) s
  let s2 := foldS (List.range 4) (fun t u => txBoundary k (nbit common (8 + t)) t u) s1
  foldS (List.range 4) (fun r t => rxBoundary k r t) s2

/-- Targets a REALIGN moves: TDM leaders and AES3 transmitters (R108, R264). -/
def serialTargets (s : State) : List (Nat × Int) :=
  ((List.range 8).filter (fun n => !tdmFollower s n)).map (fun n => (8 + n, lsgn s (tdmBase n + 0x10) 0 32)) ++
  (List.range 4).map (fun t => (16 + t, lsgn s (txBase t + 4) 0 32))

/-- Reset of a receiver (R283). -/
def rxReset (r : Nat) (s : State) : State :=
  let x := rxGet s r
  rxPut r { cs := x.cs, seq := x.seq, rate := x.rate, meas := x.meas } s

/-- Read-only words of TDM. -/
def tdmView (s : State) (o : Nat) : Option Word :=
  let n := o / 0x1000
  let x := tdmGet s n
  if 8 ≤ n then none
  else match o % 0x1000 with
    | 0x14 => some (wd (unsgn 32 (frameOfs s (8 + n))))
    | 0x1C =>
      let mv := match s.cmp.realign with
        | some r => r.begun.isSome && r.jumped.isNone && r.moves.any (fun m => m.1 == 8 + n)
        | none => false
      some (wd (bitAt 4 (pendAt s (tdmBase n) || pendAt s (tdmBase n + 4)) + bitAt 3 x.lost + bitAt 2 x.wait
        + bitAt 1 mv + bitAt 0 x.running))
    | 0x2C => some (if tdmFollower s n then wd (x.outb.length * 256 * 65536 + tdmLevel x) else 0)
    | _ => none

/-- Read-only words of AES. -/
def aesView (s : State) (o : Nat) : Option Word :=
  if o < 0x400 then
    let r := o / 0x100
    let x := rxGet s r
    let w := o % 0x100
    if w = 4 then
      some (wd (bitAt 31 x.lock + bitAt 30 x.audio + bitAt 29 (bit (getAt 0 x.cs 0) 0) + rxGrade x * 2 ^ 24 + bitAt 0 x.running))
    else if w = 8 then some (wd x.rate)
    else if w = 0xC then some (wd x.meas)
    else if w = 0x1C then some (wd x.seq)
    else if w = 0x20 then some (wd (rxLevel x))
    else if 0x40 ≤ w && w < 0xA0 then some (getAt 0 x.cs ((w - 0x40) / 4))
    else none
  else if o < 0x800 then
    let t := (o - 0x400) / 0x100
    let x := txGet s t
    let w := o % 0x100
    if w = 8 then some (wd (unsgn 32 (frameOfs s (16 + t))))
    else if w = 0xC then
      let mv := match s.cmp.realign with
        | some r => r.begun.isSome && r.jumped.isNone && r.moves.any (fun m => m.1 == 16 + t)
        | none => false
      some (wd (bitAt 2 x.wait + bitAt 1 mv + bitAt 0 x.running))
    else none
  else none

end Sys2Proof.Machine
end

