-- ==== Sys2Proof/Machine/Frames.lean ====
section
/-! DEFINITION. Ethernet frames, the Eorel header, IPv4, UDP and PTP fields, AES67 packets (R289 to R294, R307, R309,
R313). A frame is its bytes from the DA to the end of the payload, without FCS. -/

namespace Sys2Proof.Machine

/-- Byte i of a frame; 0 past its end. -/
def fB (l : List Byte) (i : Nat) : Nat := (getAt 0 l i).toNat

/-- n bytes from byte i as a number, most significant first. -/
def fN (l : List Byte) (i n : Nat) : Nat := beNat ((List.range n).map (fun j => getAt 0 l (i + j)))

/-- Replace bytes from i. -/
def fPut (i : Nat) (b : List Byte) (l : List Byte) : List Byte := l.take i ++ b ++ l.drop (i + b.length)

/-- DA and source address. -/
def fDa (l : List Byte) : Nat := fN l 0 6

/-- Does the frame carry an 802.1Q tag (R289)? -/
def fTagged (l : List Byte) : Bool := fN l 12 2 == 0x8100

/-- Offset of the EtherType's payload. -/
def fOff (l : List Byte) : Nat := if fTagged l then 18 else 14

/-- The EtherType. -/
def fType (l : List Byte) : Nat := fN l (fOff l - 2) 2

/-- Frame length as R289 counts it: from the DA to the end of the FCS, at least 64. -/
def fLen (l : List Byte) : Nat := max 64 (l.length + 4)

/-- Byte times with preamble and gap (R67). -/
def fTimes (l : List Byte) : Nat := fLen l + 20

/-- Pad to the minimum of 64 bytes with FCS. -/
def fPad (l : List Byte) : List Byte := l ++ List.replicate (60 - l.length) 0

/-- The node's MAC address. -/
def swxMac (s : State) : Nat := lvn s 0x400C0008 + lf s 0x400C000C 0 16 * 2 ^ 32

/-- The Eorel EtherType. -/
def swxType (s : State) : Nat := lf s 0x400C0000 0 16

/-! ### The Eorel header (R290) -/

/-- The fields of an Eorel header that this node builds. -/
structure Eorel where
  kind  : Nat
  path  : Bool := false
  last  : Bool := false
  flow  : Nat := 0
  fmt   : Nat := 0
  nch   : Nat := 0
  spc   : Nat := 0
  hop   : Nat := 0
  deriving DecidableEq, Repr

/-- Bytes 0 to 7 of the header. -/
def eorelHead (e : Eorel) : List Byte :=
  beBytes 1 (16 + e.kind) ++ beBytes 1 (bitAt 7 e.path + bitAt 6 e.last) ++ beBytes 3 (e.flow * 16 + e.fmt)
    ++ beBytes 1 e.nch ++ beBytes 1 e.spc ++ beBytes 1 e.hop

/-- An Eorel frame: DA, header bytes 8 to 31, payload.
[DESIGN CHOICE, safe: log entry 23] -/
def eorelFrame (s : State) (da : Nat) (e : Eorel) (rest payload : List Byte) : List Byte :=
  fPad (beBytes 6 da ++ beBytes 6 (swxMac s) ++ beBytes 2 (swxType s) ++ eorelHead e ++ rest ++ payload)

/-- DA of a flow (R292). -/
def flowDa (s : State) (flow : Nat) : Nat := (lf s 0x400C0004 0 28 ||| 2 ^ 20) * 2 ^ 20 + flow % 2 ^ 20

/-- Fields of a received header at offset o. -/
def eVer (l : List Byte) (o : Nat) : Nat := fB l o / 16
def eKind (l : List Byte) (o : Nat) : Nat := fB l o % 16
def ePath (l : List Byte) (o : Nat) : Bool := nbit (fB l (o + 1)) 7
def eFlow (l : List Byte) (o : Nat) : Nat := fN l (o + 2) 3 / 16
def eFmt (l : List Byte) (o : Nat) : Nat := fN l (o + 2) 3 % 16
def eNch (l : List Byte) (o : Nat) : Nat := fB l (o + 5)
def eSpc (l : List Byte) (o : Nat) : Nat := fB l (o + 6)
def eHop (l : List Byte) (o : Nat) : Nat := fB l (o + 7)
def eSeq (l : List Byte) (o : Nat) : Nat := fN l (o + 8) 2
def ePcyc (l : List Byte) (o : Nat) : Nat := fN l (o + 10) 6
def eMute (l : List Byte) (o : Nat) : Nat := fN l (o + 16) 8
def eConceal (l : List Byte) (o : Nat) : Nat := fN l (o + 24) 8

/-- The header checks of R294 but for the flow-table entry. -/
def eorelOk (l : List Byte) (o : Nat) : Bool :=
  eVer l o == 1 && eKind l o ≤ 6 &&
    (eKind l o != 0 || (eFmt l o ≤ 2 && 1 ≤ eNch l o && eNch l o ≤ 64 && 1 ≤ eSpc l o && eSpc l o ≤ 16))

/-- Is a received payload length what SPC × NCH × size makes it (R116)? A frame padded to 64 bytes is longer. -/
def eorelLenOk (l : List Byte) (o : Nat) : Bool :=
  let n := eSpc l o * eNch l o * fmtSize (eFmt l o)
  l.length == o + 32 + n || (o + 32 + n < 60 && l.length == 60)

/-! ### IPv4 and UDP -/

/-- One's-complement sum of 16-bit words. -/
def sum16 : List Byte → Nat
  | [] => 0
  | [a] => a.toNat * 256
  | a :: b :: t => a.toNat * 256 + b.toNat + sum16 t

/-- Fold to 16 bits. -/
def fold16 (n : Nat) : Nat :=
  let a := n % 65536 + n / 65536
  a % 65536 + a / 65536

/-- The Internet checksum of bytes. -/
def inetSum (l : List Byte) : Nat := 65535 - fold16 (fold16 (sum16 l))

/-- IPv4 with IHL = 5, not fragmented, carrying UDP (R295). -/
def isUdp4 (l : List Byte) : Bool :=
  let o := fOff l
  fType l == 0x800 && fB l o == 0x45 && fN l (o + 6) 2 % 0x4000 == 0 && fB l (o + 9) == 17

def ipDst (l : List Byte) : Nat := fN l (fOff l + 16) 4
def udpDport (l : List Byte) : Nat := fN l (fOff l + 22) 2

/-- Set lengths and checksums of a UDP over IPv4 datagram whose headers begin at o. -/
def udp4Fix (o ident : Nat) (l : List Byte) : List Byte :=
  let n := l.length - o
  let l1 := fPut (o + 10) [0, 0] (fPut (o + 4) (beBytes 2 ident) (fPut (o + 2) (beBytes 2 n) l))
  let l2 := fPut (o + 10) (beBytes 2 (inetSum ((l1.drop o).take 20))) l1
  let l3 := fPut (o + 26) [0, 0] (fPut (o + 24) (beBytes 2 (n - 20)) l2)
  let c := inetSum ((l3.drop (o + 12)).take 8 ++ [0, 17] ++ beBytes 2 (n - 20) ++ l3.drop (o + 20))
  fPut (o + 26) (beBytes 2 (if c = 0 then 65535 else c)) l3

/-- Set lengths and checksum of a UDP over IPv6 datagram whose headers begin at o. -/
def udp6Fix (o : Nat) (l : List Byte) : List Byte :=
  let n := l.length - o - 40
  let l1 := fPut (o + 46) [0, 0] (fPut (o + 44) (beBytes 2 n) (fPut (o + 4) (beBytes 2 n) l))
  let c := inetSum ((l1.drop (o + 8)).take 32 ++ beBytes 4 n ++ [0, 0, 0, 17] ++ l1.drop (o + 40))
  fPut (o + 46) (beBytes 2 (if c = 0 then 65535 else c)) l1

/-! ### PTP (R309 to R311) -/

/-- Offset of the PTP message, if the frame carries one.
[PRESUMED, unsafe: log entry 77] -/
def ptpOff (l : List Byte) : Option Nat :=
  if fType l = 0x88F7 then some (fOff l)
  else if isUdp4 l && (udpDport l == 319 || udpDport l == 320) then some (fOff l + 28)
  else none

/-- MARK: [PRESUMED, unsafe: log entry 77] -/
def ptpType (l : List Byte) (o : Nat) : Nat := fB l o % 16
def ptpDomain (l : List Byte) (o : Nat) : Nat := fB l (o + 4)
def ptpEvent (l : List Byte) (o : Nat) : Bool := ptpType l o ≤ 3
def ptpPdelay (l : List Byte) (o : Nat) : Bool := ptpType l o == 2 || ptpType l o == 3 || ptpType l o == 10
def ptpTwoStep (l : List Byte) (o : Nat) : Bool := nbit (fB l (o + 6)) 1

/-- Add 2^-16 ns units to correctionField; over UDP the checksum becomes 0.
[PRESUMED, unsafe: log entry 77] -/
def ptpAdd (o : Nat) (d : Int) (l : List Byte) : List Byte :=
  let v := unsgn 64 (sgn 64 (fN l (o + 8) 8) + d)
  let l1 := fPut (o + 8) (beBytes 8 v) l
  if isUdp4 l then fPut (o - 2) [0, 0] l1 else l1

/-- Set originTimestamp from an FT and add its fraction to correctionField (R309).
[PRESUMED, unsafe: log entry 77] -/
def ptpOrigin (o ft : Nat) (l : List Byte) : List Byte :=
  let ns := ft / 65536
  let l1 := fPut (o + 34) (beBytes 6 (ns / 1000000000) ++ beBytes 4 (ns % 1000000000)) l
  ptpAdd o ((ft % 65536 : Nat) : Int) l1

end Sys2Proof.Machine
end

