-- ==== Sys2Proof/Machine/Ports.lean ====
section
/-! DEFINITION. Fabric ports: links, gate schedule, queues, transmission, PAUSE and its watchdog, rings
(R66 to R75, R285 to R309). -/

namespace Sys2Proof.Machine

def prtBase (p : Nat) : Nat := 0x40080000 + p * 0x10000
def prtGet (s : State) (p : Nat) : PortSt := tget {} s.swx.port p
def prtPut (p : Nat) (x : PortSt) (s : State) : State := { s with swx.port := tset {} s.swx.port p x }

/-- Count PRT.CNT[i] (R315). -/
def prtCnt (p i : Nat) (s : State) : State := ctrUp (prtBase p + 0x100 + 4 * i) 0 32 s

/-- Set an event of a port: 0 LINK_CHG 1 POL 2 PAUSE_WD 3 QOVF 4 OVERSIZE 5 RX_DROP 6 TXDONE 7 RXFRAME. -/
def prtEvent (p i : Nat) (s : State) : State := evOr (prtBase p + 8) (2 ^ i) s

/-- A port's fault (R453).
[DEDUCED, unsafe: log entry 82] -/
def prtRaise (p ev cls : Nat) (s : State) : State := raise ((8 + p) * 256 + ev) cls 255 0 s

def prtMode (s : State) (p : Nat) : Nat := lf s (prtBase p) 0 2
def prtEn (s : State) (p : Nat) : Bool := lb s (prtBase p) 31

/-- Can port p have a link: enabled, a mode, its domain ON, no safe action? -/
def prtAlive (s : State) (p : Nat) : Bool :=
  prtEn s p && prtMode s p != 0 && domOn s (3 + p / 2) && !blockSafe s (8 + p) && !lb s 0x40000114 (4 + p)

/-! ### The gate schedule (R67, R70 to R75) -/

/-- HYPER and the active bank. -/
def hyper (s : State) : Nat := max 1 (lf s 0x40070020 8 6)
def actBank (s : State) : Nat := lf s 0x40070020 0 1

/-- Address of the schedule entry of port p and cycle k in the active bank. -/
def schedEntry (s : State) (p k : Nat) : Nat := 0x30700000 + p * 0x10000 + actBank s * 0x8000 + k % hyper s * 0x20

/-- Is window w of cycle k open for class c on port p? -/
def gateOpen (s : State) (p c k w : Nat) : Bool :=
  let a := schedEntry s p k
  !s.grat.eccClosed.contains a && bit (wd (mWord s (a + c * 8 + w / 32 * 4))) (w % 32)

/-- Consecutive open windows from window w of cycle k, at most `fuel` of them; a run continues into the next cycle (R74). -/
def runLen (s : State) (p c k : Nat) : Nat → Nat → Nat
  | 0, _ => 0
  | fuel + 1, w => if gateOpen s p c (k + w / 64) (w % 64) then 1 + runLen s p c k fuel (w + 1) else 0

/-- FT of the start of window w of cycle k (R67). -/
def windowFt (s : State) (k w : Nat) : Nat := ceilDiv ((64 * k + w) * secU) (famF s * 64)

/-- One byte time in 1/25 of 2^-16 ns, by mode (R67). -/
def byteU25 : Nat → Nat
  | 1 => 13107200
  | 2 => 1310720
  | _ => 524288

/-- Duration of n byte times on port p, in 2^-16 ns. -/
def byteDur (s : State) (p n : Nat) : Nat := ceilDiv (n * byteU25 (prtMode s p)) 25

/-- Windows that n byte times need on a mode (R67, R331). -/
def windowsFor (s : State) (mode n : Nat) : Nat := ceilDiv (n * byteU25 mode * famF s * 64) (25 * secU)

/-- The earliest FT from `from` to the end of cycle k at which n byte times of class c may start (R74).
[DEDUCED, unsafe: log entry 74] -/
def gateStart (s : State) (p c k n ftMin : Nat) : Option Nat :=
  (List.range 64).findSome? (fun w =>
    let t := max ftMin (windowFt s k w)
    if t < windowFt s k (w + 1) && gateOpen s p c k w then
      (if t + byteDur s p n ≤ windowFt s k (w + runLen s p c k 128 w) then some t else none)
    else none)

/-- Does n byte times fit some run of some phase (R297)?
[DEDUCED, unsafe: log entry 74] -/
def fitsSome (s : State) (p c n : Nat) : Bool :=
  let need := windowsFor s (prtMode s p) n
  (List.range (hyper s)).any (fun h => (List.range 64).any (fun w => need ≤ runLen s p c h need w))

/-! ### Queues (R296) -/

/-- Room of each class queue in bytes. -/
def qRoom : Nat → Nat
  | 0 => 32768
  | 1 => 16384
  | _ => 131072

def qOf (x : PortSt) (c : Nat) : List TxFrame := getAt [] x.q c
def qBytes (l : List TxFrame) : Nat := l.foldl (fun a f => a + fLen f.bytes) 0

/-- Insert a frame in arrival order; a frame whose start lies later comes after the ones before it. -/
def qInsert (f : TxFrame) : List TxFrame → List TxFrame
  | [] => [f]
  | g :: t => if f.due < g.due then f :: g :: t else g :: qInsert f t

def qAdd (c : Nat) (f : TxFrame) (x : PortSt) : PortSt := { x with q := setAt x.q c (qInsert f (qOf x c)) }

/-- Best-effort buffer occupied by the frames that port p received (R303). -/
def rxOcc (s : State) (p : Nat) : Nat :=
  (List.range 4).foldl (fun a e => a + qBytes ((qOf (prtGet s e) 2).filter (fun f => f.src == some p))) 0

/-- A frame of the node itself: it waits where its queue is full. -/
def txOwn (p c : Nat) (f : TxFrame) (s : State) : State :=
  let x := prtGet s p
  if !x.up || lb s 0x40000118 6 then s
  else if qBytes (qOf x c) + fLen f.bytes ≤ qRoom c then prtPut p (qAdd c f x) s
  else prtPut p { x with wait := x.wait ++ [(c, f)] } s

/-- The PAUSE frame with a quanta value (R302, R303). -/
def pauseFrame (s : State) (quanta : Nat) : TxFrame :=
  { bytes := fPad (beBytes 6 0x0180C2000001 ++ beBytes 6 (swxMac s) ++ beBytes 2 0x8808 ++ beBytes 2 1 ++ beBytes 2 quanta),
    pause := true }

/-- LC ticks of a pause time of port p: quanta × 512 bit times (R302). -/
def pauseTicks (s : State) (p quanta : Nat) : Nat := ceilDiv (quanta * 64 * byteU25 (prtMode s p)) (25 * 131072)

/-- Occupancy has moved: above XOFF the port sends QUANTA, below XON quanta 0 (R303). -/
def pauseCheck (p : Nat) (s : State) : State :=
  let b := prtBase p
  let x := prtGet s p
  let occ := rxOcc s p
  if lb s (b + 0x10) 1 && x.up then
    if !x.xoff && lf s (b + 0x14) 16 16 * 1024 < occ then
      txOwn p 1 (pauseFrame s (lf s (b + 0x10) 16 16)) (prtPut p { x with xoff := true, xoffAt := s.time.lc } s)
    else if x.xoff && occ < lf s (b + 0x14) 0 16 * 1024 then
      txOwn p 1 (pauseFrame s 0) (prtPut p { x with xoff := false } s)
    else s
  else s

/-- A forwarded frame joins a queue, or is dropped at the tail (R296). -/
def txForward (p c : Nat) (f : TxFrame) (s : State) : State :=
  let x := prtGet s p
  if !x.up then s
  else if qBytes (qOf x c) + fLen f.bytes ≤ qRoom c then
    let s1 := prtPut p (qAdd c f x) s
    match f.src with
    | some r => if c = 2 then pauseCheck r s1 else s1
    | none => s1
  else
    let s1 := prtEvent p 3 (prtCnt p (8 + c) s)
    whenS (c == 0) (prtRaise p 0x13 1) s1

/-- Waiting frames enter their queues as room comes. -/
def txAdmit (p : Nat) (s : State) : State :=
  let x := prtGet s p
  prtPut p (x.wait.foldl (fun y e =>
    if qBytes (qOf y e.1) + fLen e.2.bytes ≤ qRoom e.1 && !(y.wait.any (fun f => f.1 == e.1)) then qAdd e.1 e.2 y
    else { y with wait := y.wait ++ [e] }) { x with wait := [] }) s

/-! ### Transmission (R74, R297) -/

/-- Drop the head frames of a class that no run can ever hold (R297). -/
def dropGate (p c : Nat) : Nat → State → State
  | 0, s => s
  | n + 1, s =>
    let x := prtGet s p
    match qOf x c with
    | f :: t =>
      if fitsSome s p c (fTimes f.bytes) then s
      else
        let s1 := prtEvent p 4 (prtCnt p 7 (prtPut p { x with q := setAt x.q c t, gateWarn := true } s))
        dropGate p c n (whenS (!x.gateWarn) (prtRaise p 0x14 1) s1)
    | [] => s

/-- Where the head of class c may start in the present cycle.
[DEDUCED, unsafe: log entry 74] -/
def headStart (s : State) (p c : Nat) : Option Nat :=
  let x := prtGet s p
  let busy := match x.cur with
    | some (e, _) => ftOf s.time.offset s.time.rate (max e s.time.lc) 0
    | none => ftNow s
  match qOf x c with
  | f :: _ =>
    if c = 2 && x.paused then none
    else gateStart s p c s.grat.cycle (fTimes f.bytes) (max busy f.due)
  | [] => none

/-- The class whose head starts first; at one instant scheduled, reserved, best effort (R74).
[DEDUCED, unsafe: log entry 74] -/
def pickClass (s : State) (p : Nat) : Option (Nat × Nat) :=
  [0, 1, 2].foldl (fun b c =>
    match headStart s p c, b with
    | some t, some (t0, c0) => if t < t0 then some (t, c) else some (t0, c0)
    | some t, none => some (t, c)
    | none, b => b) none

/-- Transmit timestamp of a frame that starts now (R60). -/
def tsTx (s : State) (p : Nat) : Nat :=
  ((ftNow s : Int) + psToU (lvn s (prtBase p + 0x404)) + psToU (prtGet s p).phaseTx).toNat

/-- What the port writes into a PTP frame as it leaves, and the timestamp it queues (R63, R309, R310). -/
def ptpOut (p : Nat) (f : TxFrame) (s : State) : TxFrame × State :=
  match ptpOff f.bytes with
  | none => (f, s)
  | some o =>
    let ts := tsTx s p
    match f.ptp with
    | 1 => ({ f with bytes := ptpOrigin o ts f.bytes }, s)
    | 2 => ({ f with bytes := ptpAdd o ((ts : Int) - f.ts) f.bytes }, s)
    | 3 =>
      (f, txfPush p { seqId := fN f.bytes (o + 30) 2, domain := ptpDomain f.bytes o, mtype := ptpType f.bytes o, ts := ts } s)
    | 4 => ({ f with bytes := ptpAdd o ((ts : Int) - f.ts) f.bytes }, s)
    | _ => (f, s)

/-- TX_FRAME_START (R74): the first frame that may start in the present cycle starts. -/
def txStart (p : Nat) (s : State) : State :=
  let x := prtGet s p
  if !x.up then s
  else
    let s0 := [0, 1, 2].foldl (fun t c => dropGate p c (qOf x c).length t) s
    match pickClass s0 p with
    | none => s0
    | some (t, c) =>
      let y := prtGet s0 p
      match qOf y c with
      | [] => s0
      | f :: rest =>
        let s1 := atFt t s0
        let (f1, s2) := ptpOut p f s1
        let ends := s2.time.lc + ceilDiv (byteDur s2 p (fTimes f1.bytes)) 131072
        let z := prtGet s2 p
        let left := match z.txDesc with
          | some (r, n) => if f.desc then some (r, n - 1) else some (r, n)
          | none => none
        let s3 := prtPut p { z with q := setAt z.q c rest, cur := some (ends, f1), wire := fPad f1.bytes,
                                    wireBad := f1.stomp, txDesc := left } s2
        let s3 := srvUp (8 + p) (2 + c) 1 (srvUp (8 + p) 5 (fLen f1.bytes) s3)
        let s4 := whenS f1.pause (prtCnt p 12) (whenS f1.stomp (prtCnt p 5) (prtCnt p 4 (txAdmit p s3)))
        match f.src with
        | some r => pauseCheck r s4
        | none => s4

/-- DROP_STALE at boundary k (R297). -/
def dropStale (k p : Nat) (s : State) : State :=
  let x := prtGet s p
  let stale := (qOf x 0).filter (fun f => match f.pcyc with
    | some c => decide (c ≤ k)
    | none => false)
  if stale.isEmpty then s
  else
    let keep := (qOf x 0).filter (fun f => match f.pcyc with
      | some c => decide (k < c)
      | none => true)
    foldS stale (fun _ t => prtCnt p 6 t) (txAdmit p (prtPut p { x with q := setAt x.q 0 keep } s))

/-! ### PAUSE received and the watchdog (R302 to R304) -/

/-- Is the watchdog armed? -/
def wdArmed (s : State) (p : Nat) : Bool :=
  lb s (prtBase p + 0x18) 31 || 256 < lf s 0x400D0018 0 15 || (isSealed s && lb s 0x40020000 2)

/-- Stopped time in LC ticks within the 10 ms before `t`.
[DEDUCED, unsafe: log entry 79] -/
def stopSum (x : PortSt) (t : Nat) : Nat :=
  let from0 := t - 5000000
  let l := if x.paused then x.stops ++ [(x.pauseAt, min t x.pauseEnd)] else x.stops
  l.foldl (fun a e => a + (min t e.2 - max from0 e.1)) 0

/-- End the stop in effect at LC `t`.
[DEDUCED, unsafe: log entry 79] -/
def pauseStop (t : Nat) (x : PortSt) : PortSt :=
  if x.paused then
    { x with paused := false,
             stops := (x.stops.filter (fun e => decide (t ≤ e.2 + 5000000))) ++ [(x.pauseAt, t)] }
  else x

/-- A PAUSE frame is received (R302). -/
def pauseRx (p quanta : Nat) (s : State) : State :=
  let s1 := prtCnt p 11 s
  let x := prtGet s1 p
  if lb s1 (prtBase p + 0x10) 0 && x.holdoff.isNone then
    let x1 := pauseStop s1.time.lc x
    if quanta = 0 then prtPut p x1 s1
    else prtPut p { x1 with paused := true, pauseAt := s1.time.lc, pauseEnd := s1.time.lc + pauseTicks s1 p quanta } s1
  else s1

/-- PAUSE_EXPIRY (R302). -/
def pauseExpiryFx (p : Nat) (s : State) : State :=
  let x := prtGet s p
  if x.paused then prtPut p (pauseStop x.pauseEnd x) (atLc x.pauseEnd s) else s

/-- PAUSE_REPEAT (R303): half a pause time after the last one, while occupancy is above XON. -/
def pauseRepeatFx (p : Nat) (s : State) : State :=
  let b := prtBase p
  let x := prtGet s p
  if x.up && x.xoff && lb s (b + 0x10) 1 && lf s (b + 0x14) 0 16 * 1024 < rxOcc s p then
    let s1 := atLc (x.xoffAt + pauseTicks s p (lf s (b + 0x10) 16 16) / 2) s
    txOwn p 1 (pauseFrame s (lf s (b + 0x10) 16 16)) (prtPut p { x with xoffAt := s1.time.lc } s1)
  else s

/-- PAUSE_WD_TRIP (R304): the sum reaches WD within the stop in effect.
[DEDUCED, unsafe: log entry 79] -/
def pauseTripFx (p : Nat) (s : State) : State :=
  let x := prtGet s p
  let lim := lf s (prtBase p + 0x18) 0 10 * 5000
  if x.paused && wdArmed s p && x.holdoff.isNone then
    match (List.range 1001).find? (fun i => decide (lim ≤ stopSum x (s.time.lc + i * 5000)) &&
        decide (s.time.lc + i * 5000 ≤ x.pauseEnd + 5000)) with
    | some i =>
      let s1 := atLc (s.time.lc + i * 5000) s
      let x1 := { pauseStop s1.time.lc x with holdoff := some (s1.time.lc + lf s (prtBase p + 0x1C) 0 16 * 500000) }
      prtRaise p 0x15 1 (prtCnt p 15 (prtEvent p 2 (prtPut p x1 s1)))
    | none => s
  else s

/-- HOLDOFF_END (R304). -/
def holdoffFx (p : Nat) (s : State) : State :=
  let x := prtGet s p
  match x.holdoff with
  | some t => prtPut p { x with holdoff := none, stops := [] } (atLc t s)
  | none => s

/-! ### Links (R286 to R288) -/

/-- The calibrated latencies of a mode (R62). -/
def calLat (s : State) (p : Nat) : Nat × Nat :=
  match prtMode s p with
  | 1 => (41600, 57200)
  | 2 => (11840, 17280)
  | _ => if lb s (prtBase p) 4 then (60240, 202816) else (5120, 7936)

/-- LINK_UP (R286, R287): LINK_UP itself shows from the next boundary. -/
def linkUpFx (p : Nat) (phTx phRx : Int) (inv : Bool) (anPause : Nat) (s : State) : State :=
  let x := prtGet s p
  let b := prtBase p
  if prtAlive s p && !x.up && !x.upDue then
    let an := prtMode s p = 1 && lb s b 5
    let s1 := prtPut p { x with upDue := true, phaseTx := phTx, phaseRx := phRx, rxInv := inv, anDone := an,
                                anPause := if an then anPause else 0 } s
    let s2 := if lb s1 (b + 0x400) 1 then s1
      else setLv (b + 0x408) (wd (calLat s p).2) (setLv (b + 0x404) (wd (calLat s p).1) s1)
    whenS inv (fun t => prtRaise p 0x12 0 (prtEvent p 1 t)) s2
  else s

/-- The boundary from which a link is up. -/
def linkBoundary (p : Nat) (s : State) : State :=
  let x := prtGet s p
  if x.upDue then
    prtRaise p 0x10 0 (prtEvent p 0 (prtPut p { x with up := true, upDue := false } s))
  else s

/-- The link goes down: every queued frame is discarded (R288). -/
def linkDrop (p : Nat) (s : State) : State :=
  let x := prtGet s p
  if x.up || x.upDue then
    let x1 : PortSt := { txHead := x.txHead, rxHead := x.rxHead, wire := x.wire, wireBad := x.wireBad,
                         txDesc := x.txDesc.map (fun d => (d.1, 0)), holdoff := x.holdoff }
    let s1 := prtPut p x1 s
    if x.up then prtRaise p 0x11 1 (prtEvent p 0 s1) else s1
  else s

/-! ### Transmit rings (R305 to R307, R309) -/

/-- Ring registers of a port; port 4 is the service bus. -/
def ringRegs (p : Nat) : Nat := if p = 4 then 0x400E0040 else prtBase p + 0x40

/-- Template lengths are at most 64 bytes; a UDP template parses as its type (R307). -/
def tplOk (typ : Nat) (t : List Byte) : Bool :=
  let o := fOff t
  t.length ≤ 64 &&
    (match typ with
     | 1 => t.length == o + 28 && fType t == 0x800 && fB t o == 0x45 && fB t (o + 9) == 17
     | 2 => t.length == o + 48 && fType t == 0x86DD && fB t o / 16 == 6 && fB t (o + 6) == 17
     | _ => t.length == o + 32 && eKind t o == 6)

/-- Segment i of a descriptor (R307). -/
def segment (typ ident : Nat) (tpl : List Byte) (i mss n : Nat) (data : List Byte) : List Byte :=
  let o := fOff tpl
  let f := tpl ++ data
  match typ with
  | 1 => udp4Fix o ((ident + i) % 65536) f
  | 2 => udp6Fix o f
  | _ =>
    let f1 := fPut (o + 12) (beBytes 4 (fN tpl (o + 12) 4 + i * mss)) f
    let b1 := fB tpl (o + 1)
    fPut (o + 1) (beBytes 1 (b1 - (if nbit b1 6 then 64 else 0) + bitAt 6 (i + 1 == n))) f1

/-- How a RAW frame's PTP message is handled on the way out (R63, R309). -/
def rawPtp (one : Bool) (l : List Byte) (en : Bool) : Nat :=
  match ptpOff l with
  | none => 0
  | some o =>
    if !ptpEvent l o then 0
    else if one && ptpType l o == 0 && !ptpTwoStep l o then 1
    else if one && ptpType l o == 3 then 2
    else if en then 3 else 0

/-- The frames of the descriptor at address a, or its RESULT (R305 to R307).
[DEDUCED, unsafe: log entry 81] -/
def descFrames (s : State) (a : Nat) (tsEn : Bool) : Except (Nat × Nat) (Nat × List TxFrame) :=
  let w (i : Nat) : Nat := mWord s (a + 4 * i)
  let typ := nfld (w 1) 28 3
  let len := nfld (w 1) 0 17
  let buf := w 0
  let cls := nfld (w 1) 27 1
  if typ > 3 || len = 0 || (typ = 0 && 2172 < len) || 65536 < len then .error (1, 0)
  else if typ != 0 && 64 < nfld (w 3) 0 8 then .error (2, 0)
  else if !dmaOk s buf len false then .error (4, buf)
  else if typ = 0 then
    let l := mBytes s buf len
    .ok (cls, [{ bytes := fPad l, ptp := rawPtp (nbit (w 1) 26) l tsEn, ts := ftOfWords (w 5) (w 6) (w 7), desc := true }])
  else if !dmaOk s (w 2) (nfld (w 3) 0 8) false then .error (4, w 2)
  else
    let tpl := mBytes s (w 2) (nfld (w 3) 0 8)
    let mss := nfld (w 3) 16 16
    if !tplOk typ tpl then .error (2, 0)
    else if mss < 64 || 2176 < tpl.length + min mss len + 4 then .error (3, 0)
    else
      let n := ceilDiv len mss
      .ok (cls, (List.range n).map (fun i =>
        { bytes := fPad (segment typ (nfld (w 4) 0 16) tpl i mss n (mBytes s (buf + i * mss) (min mss (len - i * mss)))),
          desc := true }))

/-- Address of the descriptor at an index of a ring. -/
def ringAddr (s : State) (r idx : Nat) : Nat := lvn s r / 32 * 32 + idx * 32

/-- Ring size; 0 while the ring is off. -/
def ringSize (s : State) (r : Nat) : Nat := if lb s (r + 4) 31 then lf s (r + 4) 0 11 else 0

/-- TX_DESCRIPTOR of a fabric port (R305).
[DEDUCED, unsafe: log entry 81] -/
def txDescFx (p : Nat) (s : State) : State :=
  let x := prtGet s p
  let r := ringRegs p
  let a := ringAddr s r x.txHead
  if ringSize s r = 0 || x.txHead = lf s (r + 8) 0 10 || x.txDesc.isSome then s
  else if !dmaOk s a 32 true then dmaErr a true (prtPut p { x with txDesc := some (4, 0) } s)
  else if !bit (wd (mWord s (a + 4))) 31 then s
  else
    match descFrames s a (lb s (prtBase p + 0x400) 0) with
    | .error (e, bad) =>
      let s1 := prtPut p { x with txDesc := some (e, 0) } s
      if e = 4 then dmaErr bad false s1 else s1
    | .ok (cls, l) =>
      let c := if cls = 1 then 1 else 2
      if x.up then foldS l (fun f t => txOwn p c f t) (prtPut p { x with txDesc := some (0, l.length) } s)
      else prtPut p { x with txDesc := some (0, 0) } s

/-- Write a descriptor's RESULT and clear OWN (R305). -/
def descDone (s0 : State) (a result : Nat) (s : State) : State :=
  if dmaOk s0 a 32 true then
    mStoreW (a + 4) (mWord s (a + 4) % 2 ^ 31) (mStoreW (a + 16) (result * 2 ^ 24 + mWord s (a + 16) % 2 ^ 24) s)
  else s

/-- TX_DESCRIPTOR_COMPLETE of a fabric port (R305).
[DEDUCED, unsafe: log entry 81] -/
def txDoneFx (p : Nat) (s : State) : State :=
  let x := prtGet s p
  let r := ringRegs p
  match x.txDesc with
  | some (res, 0) =>
    let s1 := match x.cur with
      | some (e, f) => if f.desc then atLc e s else s
      | none => s
    let s2 := descDone s (ringAddr s r x.txHead) res s1
    prtEvent p 6 (prtPut p { prtGet s2 p with txDesc := none, txHead := (x.txHead + 1) % max 1 (ringSize s r) } s2)
  | _ => s

/-- Write a received frame to a receive ring (R308): whether an owned descriptor took it. -/
def ringDeliver (r head cls : Nat) (tagged : Bool) (ts : Option Nat) (l : List Byte) (s : State) : Bool × State :=
  let a := ringAddr s r head
  if ringSize s r = 0 || head = lf s (r + 8) 0 10 then (false, s)
  else if !dmaOk s a 32 true then (false, dmaErr a true s)
  else if !bit (wd (mWord s (a + 4))) 31 then (false, s)
  else if !dmaOk s (mWord s a) l.length true then (false, dmaErr (mWord s a) true s)
  else
    let s1 := mStores (mWord s a) l s
    let w1 := bitAt 30 ts.isSome + cls * 2 ^ 29 + bitAt 28 tagged + l.length % 4096
    let s2 := mStoreW (a + 4) w1 s1
    (true, match ts with
      | some t => mStoreWs (a + 20) ((ftWords t).map (fun w => w.toNat)) s2
      | none => s2)

/-- Deliver a frame to port p's receive ring (R308). -/
def rxDeliver (p cls : Nat) (ts : Option Nat) (l : List Byte) (s : State) : State :=
  let x := prtGet s p
  let r := prtBase p + 0x50
  match ringDeliver r x.rxHead cls (fTagged l) ts l s with
  | (true, s1) =>
    prtEvent p 7 (prtPut p { prtGet s1 p with rxHead := (x.rxHead + 1) % max 1 (ringSize s r) } s1)
  | (false, s1) => prtEvent p 5 (prtCnt p 14 s1)

/-- Receive timestamp of a frame of which the last byte has just arrived (R60). -/
def tsRx (s : State) (p : Nat) (l : List Byte) : Nat :=
  let lc := s.time.lc - byteDur s p (fLen l) / 131072
  let ft : Int := ftOf s.time.offset s.time.rate lc 0
  (ft - psToU (lvn s (prtBase p + 0x408)) - psToU (prtGet s p).phaseRx - psToU (lsgn s (prtBase p + 0x40C) 0 32)).toNat

/-- Read-only words of a port (R63, R314, R315). -/
def prtView (s : State) (p o : Nat) : Option Word :=
  let x := prtGet s p
  let b := prtBase p
  match o with
  | 4 =>
    let pend := pendAt s b
    some (wd (bitAt 16 pend + (if x.up || x.upDue then prtMode s p else 0) * 256 + bitAt 7 x.holdoff.isSome
      + bitAt 6 (wdArmed s p) + bitAt 5 x.paused + bitAt 4 x.anDone
      + bitAt 3 ((x.up || x.upDue) && prtMode s p == 3 && lb s b 4) + bitAt 2 x.rxInv + bitAt 1 (x.up || x.upDue) + bitAt 0 x.up))
  | 0x20 => some (wd (stopSum x s.time.lc / 5000 % 1024))
  | 0x24 => some (wd (bitAt 0 x.anDone + x.anPause * 2))
  | 0x4C => some (wd x.txHead)
  | 0x5C => some (wd x.rxHead)
  | 0x410 => some (wd (unsgn 32 x.phaseTx))
  | 0x414 => some (wd (unsgn 32 x.phaseRx))
  | 0x420 => some (wd (tget 0 s.time.txDrop p * 65536 + (tget [] s.time.txf p).length))
  | 0x428 =>
    match tget [] s.time.txf p with
    | e :: _ => some (wd (e.seqId * 65536 + e.domain * 256 + e.mtype))
    | [] => some 0
  | _ => none

end Sys2Proof.Machine
end

