-- ==== Sys2Proof/Machine/Switch.lean ====
section
/-! DEFINITION. The switch core: the flow table, forwarding, duplicate discard, delivery to ingress, the frames this
node sources (R291, R292, R297 to R301, R310 to R313, R327 to R330). -/

namespace Sys2Proof.Machine

def flowAddr (x : Nat) : Nat := 0x30600000 + x * 0x40

/-- A live word of entry x. -/
def flowW (s : State) (x i : Nat) : Nat := (arrLv s (flowAddr x + 4 * i)).toNat

def flowGet (s : State) (x : Nat) : FlowSt := tget {} s.swx.flow x
def flowPut (x : Nat) (f : FlowSt) (s : State) : State := { s with swx.flow := tset {} s.swx.flow x f }

/-- Entries in use in the live table. -/
def flowsLive (s : State) : List Nat :=
  (s.hub.arr.filter (fun e => 0x30600000 ≤ e.1 && e.1 < 0x30640000 && e.1 % 0x40 == 0 && bit e.2 31)).map
    (fun e => e.1 % 0x100000 / 0x40)

def flowSrc (s : State) (x : Nat) : Bool := nbit (flowW s x 0) 30
def flowSink (s : State) (x : Nat) : Bool := nbit (flowW s x 0) 29
def flowAes67 (s : State) (x : Nat) : Bool := nbit (flowW s x 0) 28
def flowIn (s : State) (x : Nat) : Nat := nfld (flowW s x 0) 24 4
def flowId (s : State) (x : Nat) : Nat := nfld (flowW s x 0) 0 20
def flowFwd (s : State) (x : Nat) : Nat := nfld (flowW s x 1) 28 4
def flowL (s : State) (x : Nat) : Nat := nfld (flowW s x 1) 16 7
def flowNch (s : State) (x : Nat) : Nat := nfld (flowW s x 1) 8 7
def flowFmt (s : State) (x : Nat) : Nat := nfld (flowW s x 1) 6 2
def flowSpc (s : State) (x : Nat) : Nat := nfld (flowW s x 1) 0 5
def flowEgr (s : State) (x p : Nat) : Nat := flowW s x (2 + p)

/-- The entry that matches an Eorel audio frame (R327). -/
def flowMatch (s : State) (id p : Nat) : Option Nat :=
  (flowsLive s).find? (fun x => !flowAes67 s x && !flowSrc s x && flowId s x == id && nbit (flowIn s x) p)

/-- The entry that matches an AES67 packet (R295, R328). -/
def flowMatch67 (s : State) (dst dport p : Nat) : Option Nat :=
  (flowsLive s).find? (fun x => flowAes67 s x && !flowSrc s x && flowW s x 8 == dst && flowW s x 9 % 65536 == dport
    && nbit (flowIn s x) p)

/-- Note a match (ACTIVE and IDLE of R328). -/
def flowSeen (x : Nat) (s : State) : State := flowPut x { flowGet s x with last := some s.grat.cycle } s

/-- Count SWX.CNT[i]: 0 NO_FLOW 1 HOP_DROP 2 DUP. -/
def swxCnt (i : Nat) (s : State) : State := ctrUp (0x400C0040 + 4 * i) 0 32 s

/-! ### Forwarding (R297 to R300) -/

/-- Rate order of the modes: is egress port q at or below the rate of ingress port p? -/
def cutThrough (s : State) (p q : Nat) : Bool := prtMode s q ≤ prtMode s p

/-- Forward a scheduled frame to the ports of a mask. `bad`: its FCS or length failed. -/
def fwdScheduled (p mask : Nat) (f : TxFrame) (bad : Bool) (s : State) : State :=
  foldS (bitsOf 4 mask) (fun q t =>
    if cutThrough t p q then srvUp 12 0 1 (srvUp (8 + p) 6 1 (txForward q 0 { f with stomp := bad } t))
    else if bad then t
    else srvUp 12 0 1 (srvUp (8 + p) 7 1 (txForward q 0 f t))) s

/-- Forward an Eorel audio frame by its entry: HOP counts up, up to HOP_LIMIT (R300).
[DEDUCED, unsafe: log entry 76] [DEDUCED, unsafe: log entry 80] -/
def fwdAudio (p x o : Nat) (l : List Byte) (bad : Bool) (s : State) : State :=
  let hop := eHop l o + 1
  let mask := flowFwd s x
  if mask = 0 then s
  else if lf s 0x400C0010 0 8 < hop then evOr 0x400C0018 2 (swxCnt 1 s)
  else
    let l1 := fPut (o + 7) (beBytes 1 hop) l
    fwdScheduled p mask { bytes := l1.take 2172, src := some p, due := ftNow s, pcyc := some (extPcyc s (ePcyc l o)) } bad s

/-! ### Duplicate discard (R301) -/

/-- A sequence number against the state: the new state, or none for a discard. -/
def dupStep (st : Option DupSt) (seq cyc : Nat) : Option DupSt :=
  match st with
  | none => some { h := seq, last := cyc }
  | some d =>
    let k := (seq + 65536 - d.h) % 65536
    if k = 0 then none
    else if k ≤ 32767 then
      some { h := seq, hist := (if k ≤ 64 then (d.hist <<< k ||| 1 <<< (k - 1)) % 2 ^ 64 else 0), last := cyc }
    else if 65472 ≤ k then
      let b := 65536 - k - 1
      if nbit d.hist b then none else some { d with hist := d.hist ||| 2 ^ b, last := cyc }
    else none

/-- DUPLICATE_STATE_TIMEOUT (R301). -/
def dupTimeoutFx (id : Nat) (s : State) : State :=
  match tget none s.swx.dup id with
  | some d => if d.last + 16384 ≤ s.grat.cycle then { s with swx.dup := tset none s.swx.dup id none } else s
  | none => s

/-! ### Consumption -/

/-- Slots that name entry x as their source (R117). -/
def slotsOfFlow (s : State) (x : Nat) : List Nat :=
  (slotsOn s).filter (fun i =>
    (slotKind s i == 1 && lf s (slotBase i + 4) 0 12 == x) ||
    (slotKind s i == 2 && (lf s (slotBase i + 4) 0 12 == x || (lb s (slotBase i + 4) 31 && lf s (slotBase i + 4) 16 12 == x))))

/-- An Eorel audio frame whose FCS is good reaches the sink of entry x (R116, R120, R301). -/
def sinkAudio (x o : Nat) (l : List Byte) (s : State) : State :=
  let slots := (slotsOfFlow s x).filter (fun i => lb s (slotBase i) 31)
  srvUp 12 1 1 <| if !eorelLenOk l o then foldS slots (fun i t => slotHdrErr i t) s
  else
    let f := flowGet s x
    match dupStep (tget none s.swx.dup (flowId s x)) (eSeq l o) s.grat.cycle with
    | none => srvUp 12 2 1 <| swxCnt 2 (flowPut x { f with dup := min (2 ^ 32 - 1) (f.dup + 1) } s)
    | some d =>
      let f1 := if ePath l o then { f with accB := min (2 ^ 32 - 1) (f.accB + 1) } else { f with accA := min (2 ^ 32 - 1) (f.accA + 1) }
      let s1 := flowPut x f1 { s with swx.dup := tset none s.swx.dup (flowId s x) (some d) }
      let n := eSpc l o * eNch l o * fmtSize (eFmt l o)
      let rows := payloadRows (eFmt l o) (eNch l o) (eSpc l o) ((l.drop (o + 32)).take n)
      foldS slots (fun i t => arriveCycle i (extPcyc t (ePcyc l o)) (eSpc l o) (eNch l o) rows (eMute l o) (eConceal l o) t) s1

/-- Header errors of R294. A frame of a flow that feeds slots counts there too. -/
def hdrError (p o : Nat) (l : List Byte) (s : State) : State :=
  let slots := match flowMatch s (eFlow l o) p with
    | some x => if eKind l o = 0 then slotsOfFlow s x else []
    | none => []
  foldS slots (fun i t => slotHdrErr i t) (prtCnt p 2 s)

/-- A received Eorel audio frame (R294, R295, R298, R300). -/
def rxAudioFrame (p o : Nat) (l : List Byte) (fcsOk : Bool) (s : State) : State :=
  match flowMatch s (eFlow l o) p with
  | none => srvUp 12 3 1 (evOr 0x400C0018 1 (swxCnt 0 s))
  | some x =>
    let s1 := flowSeen x s
    let s2 := fwdAudio p x o l (!fcsOk || !eorelLenOk l o) s1
    if fcsOk && flowSink s x then sinkAudio x o l s2 else s2

/-- A received AES67 packet of entry x (R123, R295, R312). -/
def rxRtp (p x : Nat) (l : List Byte) (fcsOk : Bool) (s : State) : State :=
  let s1 := flowSeen x s
  let s2 := fwdScheduled p (flowFwd s x) { bytes := l.take 2172, src := some p, due := ftNow s } (!fcsOk) s1
  if fcsOk && flowSink s x then
    let u := fOff l + 28
    let n := fN l (fOff l + 24) 2 - 8
    let payload := ((l.drop u).take n).drop 12
    let ts := fN l (u + 4) 4
    foldS ((slotsOfFlow s x).filter (fun i => lb s (slotBase i) 31)) (fun i t => arriveRtp i ts payload t) s2
  else s2

/-! ### The frames this node sources (R291, R313, R330) -/

/-- Payload bytes of rows and the clamped samples counted (R116). -/
def payloadOf (fmt : Nat) (rows : List (List Int)) : List Byte × Nat :=
  let c := rows.flatten.map (fromA32 fmt)
  (c.flatMap (fun v => beBytes (fmtSize fmt) (unsgn (8 * fmtSize fmt) v.1)), (c.filter (fun v => v.2)).length)

/-- Sample-major rows of NCH channels from per-channel rows. -/
def toRows (n : Nat) (chans : List (List Int)) : List (List Int) :=
  (List.range n).map (fun j => chans.map (fun c => getAt 0 c j))

/-- What decides how a node sends its flows in this cycle: whether it sends copies, the PATH of a pair member, and
whether every channel is muted (R352, R454). -/
structure SendMode where
  copies : Bool := true
  path   : Option Bool := none
  muted  : Bool := false
  deriving DecidableEq, Repr

/-- Does an egress word schedule a frame in cycle c? -/
def egrDue (w c : Nat) : Bool := nfld w 24 8 != 0 && c % nfld w 24 8 == nfld w 16 8

/-- The Eorel audio frame of egress cycle e of entry x on port p (R291). -/
def audioFrame (s : State) (m : SendMode) (x p e : Nat) (payload : List Byte) (mute conc : Nat) : TxFrame :=
  let path := m.path.getD (nbit (flowW s x 1) (24 + p))
  let h : Eorel := { kind := 0, path := path, flow := flowId s x, fmt := flowFmt s x, nch := flowNch s x, spc := flowSpc s x }
  { bytes := eorelFrame s (flowDa s (flowId s x)) h
      (beBytes 2 (e % 65536) ++ beBytes 6 ((e + flowL s x) % 2 ^ 48) ++ beBytes 8 mute ++ beBytes 8 conc) payload,
    due := windowFt s (e + 1) (nfld (flowEgr s x p) 0 6), pcyc := some (e + flowL s x) }

/-- The AES67 packet from a template (R313): N samples from index n0.
[DEDUCED, unsafe: log entry 78] -/
def rtpFrame (s : State) (tpl n0 n rtpOfs : Nat) (payload : List Byte) : List Byte :=
  let t := mBytes s tpl 64
  let o := fOff t
  let l := t.take (o + 40) ++ payload
  let l1 := fPut (o + 30) (beBytes 2 (n0 / max 1 n % 65536)) (fPut (o + 32) (beBytes 4 ((n0 + rtpOfs) % 2 ^ 32)) l)
  udp4Fix o (n0 / max 1 n % 65536) l1

/-- One source entry at boundary k: the frames of egress cycle k − 1.
[DEDUCED, unsafe: log entry 78] -/
def flowSend (k : Nat) (m : SendMode) (x : Nat) (s : State) : State :=
  let e := k - 1
  let base := nfld (flowW s x 7) 0 11
  let chans := (List.range (flowNch s x)).map (fun c =>
    let d := tget silentChan s.mix.egPrev (base + c)
    if m.muted then { x := [], mute := true } else d)
  let rows := (chans.map (fun c => c.x))
  let due := (List.range 4).filter (fun p => egrDue (flowEgr s x p) k)
  let count (n : Nat) (t : State) : State :=
    let f := flowGet t x
    whenS (n != 0) (evOr 0x400C0018 4) (flowPut x { f with sat := min (2 ^ 32 - 1) (f.sat + n) } t)
  if flowAes67 s x then
    let per := (List.range 4).foldl (fun a p => max a (nfld (flowEgr s x p) 24 8)) 1
    let hist := (flowGet s x).rtp ++ [rows]
    let hist := hist.drop (hist.length - per)
    let s1 := flowPut x { flowGet s x with rtp := hist } s
    if due.isEmpty || !m.copies then s1
    else
      let n := per * spc s
      let n0 := k * spc s - n
      let all := (hist.map (fun cyc => toRows (spc s) cyc)).flatten
      let pay := payloadOf (flowFmt s x) all
      foldS due (fun p t =>
        let path := m.path.getD (nbit (flowW s x 1) (24 + p))
        txOwn p 0 { bytes := rtpFrame t (flowW s x (if path then 12 else 11)) n0 n (flowW s x 10) pay.1,
                    due := windowFt s k (nfld (flowEgr s x p) 0 6) } t) (count pay.2 s1)
  else if due.isEmpty || !m.copies then s
  else
    let pay := payloadOf (flowFmt s x) (toRows (flowSpc s x) rows)
    let bits (f : Chan → Bool) : Nat := maskOf ((chans.zipIdx.filter (fun c => f c.1)).map (fun c => c.2))
    foldS due (fun p t => txOwn p 0 (audioFrame s m x p e pay.1 (bits (fun c => c.mute)) (bits (fun c => c.conc))) t)
      (count pay.2 s)

/-- Every source entry at boundary k.
[DEDUCED, unsafe: log entry 78] -/
def flowsSend (k : Nat) (m : SendMode) (s : State) : State :=
  foldS ((flowsLive s).filter (flowSrc s)) (fun x t => flowSend k m x t) s

/-! ### Local delivery and best effort (R295, R298, R310, R311) -/

/-- Is the DA one this node receives: its MAC, broadcast, or an entry of SWX.MCF? -/
def localDa (s : State) (da : Nat) : Bool :=
  da == swxMac s || da == 2 ^ 48 - 1 ||
    (List.range 16).any (fun m => lb s (0x400C0104 + m * 8) 31 &&
      lvn s (0x400C0100 + m * 8) + lf s (0x400C0104 + m * 8) 0 16 * 2 ^ 32 == da)

/-- The ports to which the topology forwards a frame that no flow-table entry names: the spec gives no rule for the set.
[DESIGN CHOICE, safe: log entry 22] -/
def topoSet (s : State) (p : Nat) : List Nat :=
  (bitsOf 4 (draw .forwardSet p s % 16)).filter (fun q => q != p && (prtGet s q).up)

/-- A best-effort frame: stored, forwarded and delivered only with a good FCS.
[DESIGN CHOICE, safe: log entry 22] -/
def rxBestEffort (p : Nat) (l : List Byte) (s : State) : State :=
  let da := fDa l
  let s1 := if da = swxMac s then s
    else foldS (topoSet s p) (fun q t =>
      srvUp 12 0 1 (srvUp (8 + p) 7 1 (txForward q 2 { bytes := l, src := some p, due := ftNow s } t))) s
  if localDa s da then rxDeliver p 0 none l s1 else s1

/-- Slots of PTP candidates that name a domain (R88). -/
def ptpSlots (s : State) (dom : Nat) : List Nat :=
  (List.range 8).filter (fun n => candPrio s n != 0 && candSrc s n == 0 && lf s (candBase n + 8) 0 8 == dom)

/-- A PTP frame (R309 to R311).
[DESIGN CHOICE, safe: log entry 22] -/
def rxPtp (p o : Nat) (l : List Byte) (s : State) : State :=
  let ts := tsRx s p l
  let dom := ptpDomain l o
  let cands := ptpSlots s dom
  let s1 := if ptpType l o = 0 then
      foldS (cands.filter (fun n => nbit (lf s (candBase n + 8) 8 4) p)) (fun n t =>
        arrive n (keyPeriod t n n) (measGet t n).y (measGet t n).phase 0 t) s
    else s
  let tc := lb s 0x400C0014 0 && dom ≤ 127
  let p2p := lb s 0x400C0014 1
  let fwd := (tc && !(p2p && ptpPdelay l o)) || 128 ≤ dom
  let l1 := if tc && p2p && ptpType l o = 0 then ptpAdd o (psToU (lvn s (prtBase p + 0x30))) l else l
  let s2 := if fwd then
      foldS (topoSet s p) (fun q t =>
        srvUp 12 0 1 <| srvUp (8 + p) 7 1 <| if 128 ≤ dom then txForward q 2 { bytes := l, src := some p, due := ftNow s } t
        else txForward q 1 { bytes := l1, src := some p, due := ftNow s, ptp := if ptpEvent l o then 4 else 0, ts := ts } t) s1
    else s1
  let tsv := if ptpEvent l o && lb s (prtBase p + 0x400) 0 then some ts else none
  if localDa s (fDa l) || ptpPdelay l o || (fwd && !cands.isEmpty) then rxDeliver p 1 tsv l s2 else s2

/-! ### Commits, resets, views -/

/-- An entry whose FLOW_ID or VALID a commit changed clears the duplicate state of its flow (R329); its counters and its
reservation tag stay.
[DEDUCED, unsafe: log entry 80] -/
def flowCommit (x oldW0 : Nat) (s : State) : State :=
  let w := flowW s x 0
  if nfld w 0 20 != nfld oldW0 0 20 || nbit w 31 != nbit oldW0 31 then
    { flowPut x { flowGet s x with last := none, born := s.grat.cycle, rtp := [] } s with swx.dup := tset none (tset none s.swx.dup (nfld oldW0 0 20) none) (nfld w 0 20) none }
  else s

/-- The read-only words 14 and 15 of an entry (R328). -/
def flowView (s : State) (x w : Nat) : Word :=
  let f := flowGet s x
  if w = 14 then wd f.tag
  else match f.last with
    | some c => wd (bitAt 31 (decide (s.grat.cycle < c + 16384)) + min 65535 (s.grat.cycle - c))
    | none => wd (min 65535 (s.grat.cycle - f.born))

/-- Read-only words of SWX. -/
def swxView (s : State) (o : Nat) : Option Word :=
  let x := lf s 0x400C0020 0 12
  let f := flowGet s x
  match o with
  | 0x24 => some (wd f.accA)
  | 0x28 => some (wd f.accB)
  | 0x2C => some (wd f.dup)
  | 0x30 => some (wd f.sat)
  | 0x34 =>
    some (match tget none s.swx.dup (flowId s x) with
      | some d => wd (65536 + d.h)
      | none => 0)
  | _ => none

/-- A read of a per-flow counter clears it (R36). -/
def swxCntClear (o : Nat) (s : State) : State :=
  let x := lf s 0x400C0020 0 12
  let f := flowGet s x
  match o with
  | 0x24 => flowPut x { f with accA := 0 } s
  | 0x28 => flowPut x { f with accB := 0 } s
  | 0x2C => flowPut x { f with dup := 0 } s
  | 0x30 => flowPut x { f with sat := 0 } s
  | _ => s

end Sys2Proof.Machine
end

