-- ==== Sys2Proof/Machine/Gazetteer.lean ====
section
/-! DEFINITION. The Gazetteer: hellos, adjacencies, and what the shipped policy firmware keeps of the topology: the
link-state database, root, zones and addresses (R316 to R326, R339 to R341). -/

namespace Sys2Proof.Machine

def adjBase (p : Nat) : Nat := 0x400D0100 + p * 0x20
def adjGet (s : State) (p : Nat) : AdjSt := tget {} s.gaz.adj p
def adjPut (p : Nat) (x : AdjSt) (s : State) : State := { s with gaz.adj := tset {} s.gaz.adj p x }

/-- The node's unique ID (R316). -/
def ownUid (s : State) : Nat := lvn s 0x40200100 + lvn s 0x40200104 * 2 ^ 32

/-- Cycles of a hello interval (R317). -/
def helloCy (s : State) : Nat := famF s / 1000

/-- The pair link is port 3 of a member whose pair is enabled (R343). -/
def pairPort (s : State) (p : Nat) : Bool := p == 3 && lb s 0x400F0020 31

/-- Policy firmware runs from seal. -/
def policyOn (s : State) : Bool := isSealed s

/-! ### Policy parameters (R339) -/

/-- The default of parameter ID i. -/
def polDefault (i : Nat) : Nat := getAt 0 [0, 10, 60, 86400, 100, 1000, 24, 1, 600] i
def polPar (s : State) (i : Nat) : Nat := tabGet polDefault s.gaz.par i

/-- Cycles of n seconds or milliseconds. -/
def secCy (s : State) (n : Nat) : Nat := n * famF s
def msCy (s : State) (n : Nat) : Nat := n * famF s / 1000

/-! ### Records (R322) -/

def recAge (s : State) (r : DbRec) : Nat := min 65535 ((s.grat.cycle - r.born) / famF s)

/-- The 32 bytes of a record. -/
def recBytes (s : State) (r : DbRec) : List Byte :=
  beBytes 8 r.key ++ beBytes 4 r.seq ++ beBytes 2 (bitAt 15 r.valid + r.addr) ++ beBytes 1 (r.typ * 64 + r.flags)
    ++ beBytes 1 r.prio ++ (List.range 4).flatMap (fun p => beBytes 2 (getAt 0 r.links p)) ++ beBytes 1 r.modes
    ++ beBytes 1 r.nport ++ beBytes 4 r.zkey ++ beBytes 2 (recAge s r)

/-- A record from its bytes; its AGE becomes a birth cycle. -/
def recOf (s : State) (l : List Byte) : DbRec :=
  { typ := fB l 14 / 64, key := fN l 0 8, seq := fN l 8 4, valid := nbit (fN l 12 2) 15, addr := fN l 12 2 % 16384,
    flags := fB l 14 % 64, prio := fB l 15, links := (List.range 4).map (fun p => fN l (16 + 2 * p) 2), modes := fB l 24,
    nport := fB l 25, zkey := fN l 26 4, born := s.grat.cycle - fN l 30 2 * famF s }

/-- Two records with the same content, SEQ and AGE apart. -/
def recSame (a b : DbRec) : Bool :=
  a.typ == b.typ && a.key == b.key && a.valid == b.valid && a.addr == b.addr && a.flags == b.flags && a.prio == b.prio
    && a.links == b.links && a.modes == b.modes && a.nport == b.nport && a.zkey == b.zkey

def recIs (t k : Nat) (r : DbRec) : Bool := r.typ == t && r.key == k
/-- MARK: [DESIGN CHOICE, unsafe: log entry 83] -/
def dbFind (s : State) (t k : Nat) : Option DbRec := s.gaz.db.find? (recIs t k)
def dbNodes (s : State) : List DbRec := s.gaz.db.filter (fun r => r.typ == 0)

/-! ### The region (R321) -/

def dbBase (s : State) : Nat := lf s 0x400D0024 16 16 * 65536
def dbSize (s : State) : Nat := lf s 0x400D0024 0 5
def dbSlots (s : State) : Nat := (dbSize s * 2 - 1) * 1024

/-- The lowest slot that no record holds. -/
def freeSlot (s : State) : Option Nat :=
  let used := s.gaz.db.map (fun r => r.slot)
  (List.range (min (dbSlots s) (used.length + 1))).find? (fun i => !used.contains i)

/-- Write a record's slot and, for a node record, the address map.
[DESIGN CHOICE, unsafe: log entry 83] -/
def dbImage (r : DbRec) (s : State) : State :=
  let s1 := mStores (dbBase s + 32768 + 32 * r.slot) (recBytes s r) s
  whenS (r.typ == 0 && r.valid) (mStores (dbBase s + 2 * r.addr) (leBytes 2 r.slot)) s1

/-- Drop a node's entry of the address map. -/
def dbUnmap (r : DbRec) (s : State) : State :=
  whenS (r.typ == 0 && r.valid) (mStores (dbBase s + 2 * r.addr) [0xFF, 0xFF]) s

/-- GAZ.NODES follows the node records held (R323). -/
def dbCount (s : State) : State := setLv 0x400D0018 (wd (dbNodes s).length) s

/-- Queue a record to the flood buffers of the ports of a list; changed LINK or ADDR content goes first (R323).
[DESIGN CHOICE, unsafe: log entry 83] -/
def dbFlood (ports : List Nat) (first : Bool) (r : DbRec) (s : State) : State :=
  foldS ports (fun p t =>
    let q := (tget [] t.gaz.flood p).filter (fun x => !recIs r.typ r.key x)
    { t with gaz.flood := tset [] t.gaz.flood p (if first then r :: q else q ++ [r]) }) s

/-- Ports whose adjacency is UP. -/
def adjUp (s : State) : List Nat := (List.range 4).filter (fun p => (adjGet s p).st == 2)

/-- Store a record and flood it to the UP ports but one (R323).
[DESIGN CHOICE, unsafe: log entry 83] -/
def dbStore (r : DbRec) (except : Option Nat) (s : State) : State :=
  let old := dbFind s r.typ r.key
  let slot := match old with
    | some o => some o.slot
    | none => freeSlot s
  match slot with
  | none => raise 0x0D20 1 255 0 s
  | some i =>
    let r1 := { r with slot := i }
    let first := match old with
      | some o => o.links != r.links || o.addr != r.addr || o.valid != r.valid
      | none => true
    let db := match old with
      | some _ => s.gaz.db.map (fun x => if recIs r.typ r.key x then r1 else x)
      | none => s.gaz.db ++ [r1]
    let s0 := match old with
      | some o => dbUnmap o s
      | none => s
    dbFlood ((adjUp s).filter (fun p => some p != except)) first r1 (dbCount (dbImage r1 { s0 with gaz.db := db }))

/-! ### Root, zones, bindings (R324 to R326) -/

/-- The record of a list with the lowest (PRIO, UID). -/
def lowest (l : List DbRec) : Option DbRec :=
  l.foldl (fun b r => match b with
    | some o => if r.prio < o.prio || (r.prio == o.prio && r.key < o.key) then some r else some o
    | none => some r) none

/-- Is this node the root? -/
def isRoot (s : State) : Bool :=
  match lowest (dbNodes s) with
  | some r => r.key == ownUid s
  | none => false

def ownZkey (s : State) : Nat := lvn s 0x400D0010

/-- Is this node the leader of its zone? -/
def isLeader (s : State) : Bool :=
  match lowest ((dbNodes s).filter (fun r => r.zkey == ownZkey s)) with
  | some r => r.key == ownUid s
  | none => false

/-- Does this node originate the record (R323)? -/
def ownsRec (s : State) (r : DbRec) : Bool :=
  match r.typ with
  | 0 => r.key == ownUid s
  | 1 => isRoot s
  | _ => isLeader s && r.zkey == ownZkey s

/-- Originate a record: with SEQ + 1 where its content changes (R323). -/
def originate (r : DbRec) (s : State) : State :=
  match dbFind s r.typ r.key with
  | some o =>
    if recSame o r then s
    else dbStore { r with seq := o.seq + 1, born := s.grat.cycle, gone := o.gone, stale := o.stale } none s
  | none => dbStore { r with seq := 1, born := s.grat.cycle } none s

/-- This node's record as it is now. -/
def ownRec (s : State) : DbRec :=
  let adj (p : Nat) := adjGet s p
  { typ := 0, key := ownUid s, valid := lb s 0x400D0014 31, addr := lf s 0x400D0014 0 14,
    flags := bitAt 5 (isRoot s) + bitAt 4 (isLeader s) + bitAt 3 (lb s 0x400D000C 31 || lb s 0x400D000C 23)
      + bitAt 2 (paired s) + bitAt 1 (lb s 0x40070000 0),
    prio := lf s 0x400D0000 8 8,
    links := (List.range 4).map (fun p => if (adj p).st = 2 && (adj p).navalid then 32768 + (adj p).naddr else 0),
    modes := (List.range 4).foldl (fun a p => a + prtMode s p * 4 ^ p) 0,
    nport := (List.range 4).foldl (fun a p => a + (if (adj p).st = 2 then (adj p).nport else 0) * 4 ^ p) 0,
    zkey := ownZkey s }

/-- Zone keys in the order in which their first node record entered the database. -/
def zoneKeys (s : State) : List Nat := (dbNodes s).foldl (fun a r => if a.contains r.zkey then a else a ++ [r.zkey]) []

/-- A node's claim of a pinned zone number: its node record says PINNED, and the number is the node's own to read only
where the record carries it, so a claim of another node is known by its address.
[DEDUCED, unsafe: log entry 84] -/
def pinnedZone (s : State) (key : Nat) : Option Nat :=
  if key = ownZkey s && lb s 0x400D000C 31 then some (lf s 0x400D000C 24 7)
  else match dbFind s 1 key with
    | some z => if nbit z.flags 3 then some (z.addr % 128) else none
    | none => none

/-- Lowest member UID of a key. -/
def lowUid (s : State) (key : Nat) : Nat :=
  ((dbNodes s).filter (fun r => r.zkey == key)).foldl (fun a r => min a r.key) (2 ^ 64)

/-- Zone numbers held by valid zone records.
[DEDUCED, unsafe: log entry 84] -/
def zonesHeld (s : State) : List Nat := (s.gaz.db.filter (fun r => r.typ == 1 && r.valid)).map (fun r => r.addr)

/-- The zone record the root gives key k (R325). -/
def zoneGive (key : Nat) (s : State) : State :=
  let have_ := dbFind s 1 key
  match pinnedZone s key with
  | some n =>
    let other := s.gaz.db.find? (fun r => r.typ == 1 && r.valid && r.addr == n && r.key != key)
    let mine : DbRec := { typ := 1, key := key, valid := true, addr := n, flags := 8 }
    (match other with
     | none => originate mine s
     | some o =>
       if !nbit o.flags 3 then
         let s1 := originate { o with valid := false } s
         let s2 := originate mine s1
         let free := (List.range 128).find? (fun i => !(zonesHeld s2).contains i)
         (match free with
          | some i => originate { o with valid := true, addr := i } s2
          | none => s2)
       else if lowUid s key < lowUid s o.key then originate mine (originate { o with valid := false } s)
       else originate { mine with valid := false } s)
  | none =>
    (match have_ with
     | some _ => s
     | none =>
       match (List.range 128).find? (fun i => !(zonesHeld s).contains i) with
       | some i => originate { typ := 1, key := key, valid := true, addr := i } s
       | none => s)

/-- Node numbers that binding records of a zone hold. -/
def bindHeld (s : State) (z : Nat) : List Nat :=
  (s.gaz.db.filter (fun r => r.typ == 2 && r.zkey == ownZkey s && r.valid && r.addr / 128 == z)).map (fun r => r.addr % 128)

/-- The binding the leader gives node n of zone number z (R326). -/
def bindGive (z : Nat) (n : DbRec) (s : State) : State :=
  let own := n.key == ownUid s && lb s 0x400D000C 23
  match dbFind s 2 n.key with
  | some b =>
    if own && b.addr != z * 128 + lf s 0x400D000C 16 7 then
      originate { b with valid := true, addr := z * 128 + lf s 0x400D000C 16 7, flags := 8, zkey := ownZkey s } s
    else if b.addr / 128 = z && b.zkey = ownZkey s then s
    else originate { b with valid := true, addr := z * 128 + b.addr % 128, zkey := ownZkey s } s
  | none =>
    let want := if own then some (lf s 0x400D000C 16 7) else (List.range 128).find? (fun i => !(bindHeld s z).contains i)
    match want with
    | some i =>
      let clash := own && s.gaz.db.any (fun r => r.typ == 2 && r.valid && r.addr == z * 128 + i && nbit r.flags 3 && r.key < n.key)
      if clash then s
      else originate { typ := 2, key := n.key, valid := true, addr := z * 128 + i, flags := (if own then 8 else 0),
                       zkey := ownZkey s } s
    | none => s

/-- Raise an error of R325 or R326 once while its cause lasts. -/
def policyErr (code : Nat) (on : Bool) (s : State) : State :=
  if on then
    (if s.gaz.errs.contains code then s else raise code 2 255 0 { s with gaz.errs := s.gaz.errs ++ [code] })
  else { s with gaz.errs := dropFrom code s.gaz.errs }

/-- The node takes the address of its binding record (R326). -/
def takeAddr (s : State) : State :=
  let zrec := dbFind s 1 (ownZkey s)
  let s0 := match dbFind s 2 (ownUid s), zrec with
    | some b, some z =>
      setLv 0x400D0014 (if b.valid && z.valid && b.addr / 128 == z.addr then wd (2 ^ 31 + b.addr) else 0) s
    | _, _ => setLv 0x400D0014 0 s
  let rival := match zrec with
    | some z => !z.valid && s.gaz.db.any (fun r => r.typ == 1 && r.valid && r.addr == z.addr && nbit r.flags 3)
    | none => false
  let full := (zrec.isNone && 128 ≤ (zonesHeld s).length) ||
    (match zrec with
     | some z => z.valid && (dbFind s 2 (ownUid s)).isNone && 128 ≤ (bindHeld s z.addr).length
     | none => false)
  let clash := lb s 0x400D000C 23 && (match zrec with
    | some z => s.gaz.db.any (fun r => r.typ == 2 && r.valid && r.addr == z.addr * 128 + lf s 0x400D000C 16 7 && nbit r.flags 3
        && r.key < ownUid s)
    | none => false)
  policyErr 0x0D23 clash (policyErr 0x0D22 full (policyErr 0x0D21 rival s0))

/-- Policy firmware brings every record it originates up to date. -/
def policyUpdate (s : State) : State :=
  if policyOn s && dbSize s != 0 then
    let s1 := originate (ownRec s) s
    let s2 := if isRoot s1 then foldS (zoneKeys s1) zoneGive s1 else s1
    let s3 := if isLeader s2 then
        (match dbFind s2 1 (ownZkey s2) with
         | some z => if z.valid then foldS ((dbNodes s2).filter (fun r => r.zkey == ownZkey s2)) (bindGive z.addr) s2 else s2
         | none => s2)
      else s2
    let s4 := takeAddr s3
    originate (ownRec s4) s4
  else s

/-- A received record (R323). -/
def dbAccept (p : Nat) (r : DbRec) (s : State) : State :=
  if r.typ = 3 then s
  else
    let old := dbFind s r.typ r.key
    let newer := match old with
      | none => true
      | some o => o.seq < r.seq || (o.seq == r.seq && recAge s r < recAge s o)
    if ownsRec s r && (match old with
        | some o => decide (o.seq ≤ r.seq)
        | none => r.typ == 0) then
      (match old with
       | some o => if recSame o r && o.seq == r.seq then s else dbStore { o with seq := r.seq + 1, born := s.grat.cycle } none s
       | none => dbStore { ownRec s with seq := r.seq + 1, born := s.grat.cycle } none s)
    else if newer then
      let keep := match old with
        | some o => { r with gone := o.gone, stale := o.stale }
        | none => r
      let s1 := dbStore keep (some p) s
      if r.typ = 0 then { s1 with gaz.db := s1.gaz.db.map (fun x => if recIs 2 r.key x then { x with gone := none, stale := false } else x) }
      else s1
    else s

/-- RECORD_REFRESH (R323): every record this node originates and has not renewed for REFRESH seconds. -/
def recordRefreshFx (s : State) : State :=
  if policyOn s && dbSize s != 0 then
    foldS (s.gaz.db.filter (fun r => ownsRec s r && !r.stale && decide (polPar s 1 ≤ recAge s r))) (fun r t =>
      dbStore { r with seq := r.seq + 1, born := t.grat.cycle } none t) s
  else s

/-- RECORD_MAXAGE (R323). -/
def recordMaxageFx (typ key : Nat) (s : State) : State :=
  match dbFind s typ key with
  | some r =>
    if policyOn s && polPar s 2 ≤ recAge s r then
      let db := s.gaz.db.filter (fun x => !recIs typ key x)
      let db1 := if typ = 0 then db.map (fun x => if recIs 2 key x then { x with gone := some s.grat.cycle } else x) else db
      policyUpdate (dbCount (dbUnmap r { s with gaz.db := db1 }))
    else s
  | none => s

/-- BIND_HOLD_EXPIRY (R326). -/
def bindHoldFx (key : Nat) (s : State) : State :=
  match dbFind s 2 key with
  | some r =>
    (match r.gone with
     | some c =>
       if policyOn s && c + secCy s (polPar s 3) ≤ s.grat.cycle then
         { s with gaz.db := s.gaz.db.map (fun x => if recIs 2 key x then { x with stale := true } else x) }
       else s
     | none => s)
  | none => s

/-! ### Hellos sent (R317 to R319, R341) -/

/-- Longest reserved run of a port in the active bank, in windows. -/
def longestRun (s : State) (p : Nat) : Nat :=
  (List.range (hyper s)).foldl (fun a h => (List.range 64).foldl (fun b w => max b (runLen s p 1 h 128 w)) a) 0

/-- Do n byte times fit in w windows of port p? -/
def fitsWin (s : State) (p w n : Nat) : Bool := windowsFor s (prtMode s p) n ≤ w

/-- Largest NREC a hello may carry. -/
def nrecMax (s : State) (p want : Nat) : Option Nat :=
  let w := longestRun s p
  ((List.range (min 16 want + 1)).filter (fun n => fitsWin s p w (max 64 (50 + 32 * n) + 20))).getLast?

/-- Bytes 8 to 31 of this node's hello on port p (R318). -/
def helloRest (s : State) (p nrec : Nat) : List Byte :=
  let a := adjGet s p
  beBytes 8 (ownUid s) ++ beBytes 1 (lf s 0x400D0000 8 8)
    ++ beBytes 1 (bitAt 7 (lb s 0x40070000 0) + bitAt 6 (a.st == 1 || a.st == 2) + bitAt 5 (pairPort s p) + p)
    ++ beBytes 2 (bitAt 15 (lb s 0x400D0014 31) + lf s 0x400D0014 0 14) ++ beBytes 4 (ownZkey s) ++ beBytes 1 nrec
    ++ List.replicate 7 0

/-- DA of a link-local frame: the spec names none.
[DESIGN CHOICE, safe: log entry 23] -/
def linkDa (s : State) (p : Nat) : Nat := draw .linkDa p s % 2 ^ 48

/-- One hello on port p (R317, R319, R341). -/
def helloSend (p : Nat) (s : State) : State :=
  let b := adjBase p
  let armed := lf s (b + 0x14) 0 5
  let q := tget [] s.gaz.flood p
  match nrecMax s p (if armed != 0 then armed else q.length) with
  | none => s
  | some n =>
    let buf := lvn s (b + 0x10)
    let ok := dmaOk s buf (32 * n) false
    let recs := if armed != 0 then (if ok then mBytes s buf (32 * n) else List.replicate (32 * n) 0)
      else (q.take n).flatMap (recBytes s)
    let s1 := if armed != 0 && n != 0 && !ok then dmaErr buf false s else s
    let f := eorelFrame s (linkDa s p) { kind := 1 } (helloRest s p n) recs
    let s2 := if armed != 0 then
        whenS (n == armed) (evOr 0x400D001C 4) (setLv (b + 0x14) (wd (armed - n)) (setLv (b + 0x10) (wd (buf + 32 * n)) s1))
      else if n != 0 then
        whenS (n == q.length) (evOr 0x400D001C 4) { s1 with gaz.flood := tset [] s1.gaz.flood p (q.drop n) }
      else s1
    srvUp 13 0 1 (srvUp 13 2 n (txOwn p 1 { bytes := f, due := ftNow s } (ctrUp (b + 0x18) 0 16 s2)))

/-- HELLO_SEND at boundary k. -/
def helloRun (k : Nat) (s : State) : State :=
  if lb s 0x400D0000 0 && k % helloCy s = 0 && domOn s 2 && !blockSafe s 13 then
    foldS (List.range 4) (fun p t => if (prtGet t p).up then helloSend p t else t) s
  else s

/-- FLOOD_ARM: a write of FLOOD_LEN (R341). -/
def floodArmWr (p : Nat) (v : Word) (s : State) : State := setLv (adjBase p + 0x14) (wd (min 16 (fld v 0 5))) s

/-! ### Adjacency (R320) -/

def adjChg (s : State) : State := evOr 0x400D001C 1 s

/-- The adjacency becomes UP: the whole database is queued to the port (R323). -/
def adjBecameUp (p : Nat) (s : State) : State :=
  policyUpdate { s with gaz.flood := tset [] s.gaz.flood p (if policyOn s then s.gaz.db else []) }

/-- The state machine on a received hello whose header begins at o. -/
def adjHello (p o : Nat) (l : List Byte) (s : State) : State :=
  let a := adjGet s p
  let uid := fN l (o + 8) 8
  let fam := nbit (fB l (o + 17)) 7
  let seen := nbit (fB l (o + 17)) 6
  let aw := fN l (o + 18) 2
  let rec_ (st : Nat) : AdjSt :=
    { st := st, nuid := uid, nport := fB l (o + 17) % 4, npair := nbit (fB l (o + 17)) 5, naddr := aw % 16384,
      navalid := nbit aw 15, nkey := fN l (o + 20) 4, heard := s.grat.cycle }
  if fam != lb s 0x40070000 0 then
    raise 0x0D12 1 p 0 (evOr 0x400D001C 2 (adjPut p { a with st := 3, heard := s.grat.cycle } s))
  else if a.st = 0 || a.st = 3 then adjPut p (rec_ 1) s
  else if uid != a.nuid then
    whenS (a.st == 2) (raise 0x0D11 1 p 0) (adjChg (adjPut p (rec_ 1) s))
  else if a.st = 1 && seen then adjBecameUp p (raise 0x0D10 0 p 0 (adjChg (adjPut p (rec_ 2) s)))
  else if a.st = 2 && !seen then raise 0x0D11 1 p 0 (adjChg (adjPut p (rec_ 1) s))
  else adjPut p (rec_ a.st) s

/-- Records of a hello's payload. -/
def helloRecs (s : State) (o : Nat) (l : List Byte) : List DbRec :=
  (List.range (min 16 (fB l (o + 24) % 32))).map (fun i => recOf s ((l.drop (o + 32 + 32 * i)).take 32))

/-- HELLO_RECEIVED (R320, R323): parsed, delivered to the receive ring, its records taken by policy firmware. -/
def helloReceivedFx (p : Nat) (l : List Byte) (s : State) : State :=
  let o := fOff l
  if (prtGet s p).up && lb s 0x400D0000 0 && eorelOk l o && eKind l o == 1 && fType l == swxType s then
    let s0 := srvUp 13 1 1 (evOr 0x400D001C 8 (ctrUp (adjBase p + 0x18) 16 16 s))
    let s1 := if blockSafe s 13 then s0 else adjHello p o l s0
    let s2 := rxDeliver p 1 none l s1
    if policyOn s2 && dbSize s2 != 0 then policyUpdate (foldS (helloRecs s2 o l) (fun r t => dbAccept p r t) s2) else s2
  else if (prtGet s p).up then rxDeliver p 1 none l s
  else s

/-- What an adjacency that goes DOWN leaves (R320). -/
def adjDrop (p : Nat) (s : State) : State :=
  let a := adjGet s p
  if a.st = 0 then s
  else
    let s1 := adjChg (adjPut p { a with st := 0 } s)
    let s2 := ctrUp (adjBase p + 0x1C) 0 16 (whenS (a.st == 2) (raise 0x0D11 1 p 0) s1)
    { s2 with gaz.flood := tset [] s2.gaz.flood p [] }

/-- Is HELLO_DEAD over for port p? -/
def adjDue (s : State) (p : Nat) : Bool :=
  let a := adjGet s p
  a.st != 0 && !blockSafe s 13 && decide (a.heard + lf s 0x400D0000 16 8 * helloCy s ≤ s.grat.cycle)

/-! ### Views (R340, R341) -/

def gazView (s : State) (o : Nat) : Option Word :=
  if o = 4 then some (wd (ownUid s)) else if o = 8 then some (wd (ownUid s / 2 ^ 32))
  else if 0x100 ≤ o && o < 0x180 then
    let a := adjGet s ((o - 0x100) / 0x20)
    match o % 0x20 with
    | 0 => some (wd (bitAt 31 a.navalid + a.naddr * 65536 + a.nport * 256 + bitAt 4 a.npair + a.st))
    | 4 => some (wd a.nuid)
    | 8 => some (wd (a.nuid / 2 ^ 32))
    | 12 => some (wd a.nkey)
    | _ => none
  else none

end Sys2Proof.Machine
end

