-- ==== Sys2Proof/Machine/Reserve.lean ====
section
/-! DEFINITION. Reserving, releasing, rerouting and moving flows, as the shipped policy firmware does it (R330 to R338). -/

namespace Sys2Proof.Machine

/-! ### The shadow of the flow table, as policy firmware reads and writes it -/

def shF (s : State) (x i : Nat) : Nat := mWord s (flowAddr x + 4 * i)

/-- Write a shadow word of an entry; it belongs to the next commit. -/
def setShF (x i v : Nat) (s : State) : State :=
  let a := flowAddr x + 4 * i
  { mStoreW a v s with hub.arrDirty := addTo a s.hub.arrDirty }

/-- Entries with VALID in the shadow. -/
def flowsShadow (s : State) : List Nat :=
  (s.mem.filter (fun c => 0x30600000 ≤ c.1 && c.1 < 0x30640000 && c.1 % 0x40 == 3 && nbit c.2.toNat 7)).map
    (fun c => c.1 % 0x100000 / 0x40)

/-- The shadow entry of a flow for an arrival port. -/
def entryFor (s : State) (flow p : Nat) : Option Nat :=
  (flowsShadow s).find? (fun x => !nbit (shF s x 0) 30 && shF s x 0 % 2 ^ 20 == flow && nbit (shF s x 0) (24 + p))

/-- The source entry of a flow. -/
def srcEntry (s : State) (flow : Nat) : Option Nat :=
  (flowsShadow s).find? (fun x => nbit (shF s x 0) 30 && shF s x 0 % 2 ^ 20 == flow)

/-- The lowest entry unused in both copies.
[DEDUCED, unsafe: log entry 84] -/
def freeEntry (s : State) : Option Nat :=
  let used := flowsShadow s ++ flowsLive s
  (List.range (min 4096 (used.length + 1))).find? (fun x => !used.contains x)

/-- Policy firmware commits the switch core's group at the next boundary (R333). -/
def polCommit (s : State) : State := commitReq (grpOf s 12) 0 s

/-! ### Messages (R331) -/

/-- Operation codes. -/
def opReserve : Nat := 1
def opConfirm : Nat := 2
def opRefuse : Nat := 3
def opRelease : Nat := 4
def opBroken : Nat := 5

/-- Bytes 8 to 31 of a message. -/
def rsvRest (op : Nat) (m : RsvMsg) : List Byte :=
  beBytes 1 op ++ beBytes 1 m.reason ++ beBytes 2 m.srcA ++ beBytes 2 m.dstA ++ beBytes 2 m.bytes ++ beBytes 2 m.lat
    ++ beBytes 1 m.per ++ beBytes 1 m.phase ++ beBytes 1 m.idx ++ beBytes 1 m.route.length
    ++ beBytes 1 (b2n m.path + 2 * b2n m.move) ++ beBytes 1 m.l ++ beBytes 4 m.tag ++ List.replicate 4 0

/-- Send a message out of port q. -/
def rsvSend (q op : Nat) (m : RsvMsg) (s : State) : State :=
  txOwn q 1 { bytes := eorelFrame s (linkDa s q) { kind := 2, path := m.path, flow := m.flow } (rsvRest op m)
                (m.route.map (fun r => BitVec.ofNat 8 r.val)), due := ftNow s } s

def routeAt (m : RsvMsg) (i : Nat) : Nat := getAt 0 (m.route.map (fun r => r.val)) i
def hopRoute (h : RsvHop) : List (Fin 4) := h.route.map (fun r => Fin.ofNat 4 r)

/-- The message that a hop's record amounts to. -/
def hopMsg (h : RsvHop) : RsvMsg :=
  { flow := h.flow, srcA := h.srcA, dstA := h.dstA, bytes := h.bytes, lat := h.lat, per := h.per, phase := h.phase,
    path := h.path, move := h.move, l := h.l, tag := h.tag, route := hopRoute h, idx := h.idx }

def rsvFind (s : State) (tag : Nat) : Option RsvHop := s.gaz.rsv.find? (fun h => h.tag == tag)
def rsvDrop (tag : Nat) (s : State) : State := { s with gaz.rsv := s.gaz.rsv.filter (fun h => h.tag != tag) }
def rsvPut (h : RsvHop) (s : State) : State :=
  { s with gaz.rsv := s.gaz.rsv.filter (fun x => x.tag != h.tag) ++ [h] }

/-! ### Admission (R331, R332) -/

/-- Cable windows of port q. -/
def cableWin (s : State) (q : Nat) : Nat := max 1 (ceilDiv (lvn s (prtBase q + 0x30) * famF s * 64) 1000000000000)

/-- Is index i of the flow open for scheduled frames on port q, in every cycle the flow uses? -/
def idxOpen (s : State) (q per phase i : Nat) : Bool :=
  (List.range (hyper s)).all (fun h => h % per != (phase + i / 64) % per || gateOpen s q 0 h (i % 64))

/-- Windows open before index i, going back at most `fuel`. -/
def openBack (s : State) (q per phase : Nat) : Nat → Nat → Nat
  | 0, _ => 0
  | fuel + 1, i => if i != 0 && idxOpen s q per phase (i - 1) then 1 + openBack s q per phase fuel (i - 1) else 0

/-- Windows open from index i on, at most `fuel`. -/
def openFwd (s : State) (q per phase : Nat) : Nat → Nat → Nat
  | 0, _ => 0
  | fuel + 1, i => if idxOpen s q per phase i then 1 + openFwd s q per phase fuel (i + 1) else 0

/-- First index of the run that holds an open index, counted with `shift` windows before index 0.
[DEDUCED, unsafe: log entry 86] -/
def runFirst (s : State) (q per phase i : Nat) : Nat :=
  let b := openBack s q per phase 64 i
  if b = 64 then i - i % 64 else i - b

/-- BYTES reserved on the run of port q that starts at window w, in the cycles of phase h. -/
def runUsed (s : State) (q w h : Nat) : Nat :=
  let ent := (flowsShadow s).foldl (fun a x =>
    let e := shF s x (2 + q)
    if nfld e 24 8 != 0 && e % 64 == w && h % nfld e 24 8 == nfld e 16 8 then a + shF s x 6 % 65536 else a) 0
  s.gaz.rsv.foldl (fun a r =>
    if r.held && !r.sink && r.q == q && r.run % 64 == w && h % r.per == r.phase then a + r.bytes else a) ent

/-- The earliest run and its d for a flow on port q (R332): first window, d, run length.
[DEDUCED, unsafe: log entry 86] -/
def pickRun (s : State) (q bytes per phase lat : Nat) : Option (Nat × Nat × Nat) :=
  let sh := 64 * hyper s
  let nw := windowsFor s (prtMode s q) bytes
  (List.range 64).findSome? (fun o =>
    let i := lat + o + sh
    if idxOpen s q per phase i && (o == 0 || !idxOpen s q per phase (i - 1)) then
      let f := runFirst s q per phase i
      let len := openFwd s q per phase 64 f
      if nw ≤ openFwd s q per phase 128 i &&
          (List.range (hyper s)).all (fun h => h % per != (phase + i / 64) % per ||
            (runUsed s q (f % 64) h + bytes + polPar s 8) * byteU25 (prtMode s q) * famF s * 64 ≤ len * 25 * secU) then
        some (f - sh, i - sh, min 64 len)
      else none
    else none)

/-- Admit a flow on egress port q from arrival port arr: the hop's record, or the reason of the refusal.
[DEDUCED, unsafe: log entry 85] -/
def admitHop (s : State) (arr : Option Nat) (q : Nat) (m : RsvMsg) : Except Nat RsvHop :=
  let per := max 1 m.per
  let same := match arr with
    | some p => entryFor s m.flow p
    | none => srcEntry s m.flow
  let hop (f d n : Nat) : RsvHop :=
    { tag := m.tag, flow := m.flow, arr := arr, q := q, run := f, nwin := n, d := d, lat := m.lat, bytes := m.bytes,
      per := per, phase := (m.phase + d / 64) % per, path := m.path, move := m.move, l := m.l, srcA := m.srcA,
      dstA := m.dstA, since := s.grat.cycle, route := m.route.map (fun r => r.val), idx := m.idx }
  if !(prtGet s q).up || (adjGet s q).st != 2 || !(adjGet s q).navalid || arr == some q || (q == 3 && paired s) then .error 4
  else
    match same with
    | some x =>
      if nbit (shF s x 1) (28 + q) && !m.move && arr.isSome then
        let e := shF s x (2 + q)
        .ok { hop (e % 64) (max m.lat (e % 64)) (nfld e 8 6) with bytes := 0 }
      else
        (match pickRun s q m.bytes per m.phase m.lat with
         | some (f, d, n) => .ok (hop f d n)
         | none => .error 1)
    | none =>
      let second := (flowsShadow s).any (fun x => shF s x 0 % 2 ^ 20 == m.flow && nbit (shF s x 1) (28 + q))
      if second && !m.move then .error 5
      else if (freeEntry s).isNone then .error 3
      else if hyper s % per != 0 then .error 5
      else
        (match pickRun s q m.bytes per m.phase m.lat with
         | some (f, d, n) => .ok (hop f d n)
         | none => .error 1)

/-- Write the entry of a hop (R328, R332): words that the message gives no value for stay as they are.
[DEDUCED, unsafe: log entry 85] -/
def entryWrite (h : RsvHop) (s : State) : State :=
  let at_ := match h.arr with
    | some p => entryFor s h.flow p
    | none => srcEntry s h.flow
  match (match at_ with
    | some x => some x
    | none => freeEntry s) with
  | none => s
  | some x =>
    let w0 := shF s x 0
    let inb := match h.arr with
      | some p => 2 ^ (24 + p)
      | none => 2 ^ 30
    let w0n := (if at_.isSome then w0 else 0) ||| 2 ^ 31 ||| inb ||| bitAt 29 h.sink ||| h.flow
    let w1 := shF s x 1
    let w1l := w1 - nfld w1 16 7 * 2 ^ 16 + h.l % 128 * 2 ^ 16
    let w1n := if h.sink then w1l else w1l ||| 2 ^ (28 + h.q) ||| (if h.arr.isNone && h.path then 2 ^ (24 + h.q) else 0)
    let s1 := setShF x 1 w1n (setShF x 0 w0n s)
    let s2 := if h.sink || h.bytes = 0 then s1
      else setShF x (2 + h.q) (h.per * 2 ^ 24 + h.phase * 2 ^ 16 + h.nwin % 64 * 2 ^ 8 + h.run % 64) s1
    let s3 := if h.bytes = 0 then s2 else setShF x 6 (h.lat % 65536 * 65536 + h.bytes) s2
    let s4 := setShF x 7 (shF s3 x 7 % 2048 + h.srcA * 65536) s3
    flowPut x { flowGet s4 x with tag := h.tag } s4

/-- Take port q out of FWD; an entry left with no port and no sink is invalidated (R335). -/
def entryUnfwd (x q : Nat) (s : State) : State :=
  let w1 := shF s x 1
  let w1n := if nbit w1 (28 + q) then w1 - 2 ^ (28 + q) else w1
  let s1 := setShF x (2 + q) 0 (setShF x 1 w1n s)
  if nfld w1n 28 4 = 0 && !nbit (shF s x 0) 29 && !nbit (shF s x 0) 30 then setShF x 0 (shF s x 0 % 2 ^ 31) s1 else s1

/-- Take the sink out of an entry. -/
def entryUnsink (x : Nat) (s : State) : State :=
  let w0 := shF s x 0
  let w0n := if nbit w0 29 then w0 - 2 ^ 29 else w0
  setShF x 0 (if nfld (shF s x 1) 28 4 = 0 then w0n % 2 ^ 31 else w0n) s

/-- Remove what a hop holds or has confirmed; another branch on the same port keeps it. -/
def hopRemove (h : RsvHop) (s : State) : State :=
  let s1 := rsvDrop h.tag s
  if h.held then s1
  else
    let shared := s1.gaz.rsv.any (fun r => r.flow == h.flow && r.arr == h.arr && r.q == h.q && r.sink == h.sink)
    if shared then s1
    else
      match (match h.arr with
        | some p => entryFor s1 h.flow p
        | none => srcEntry s1 h.flow) with
      | some x => polCommit (if h.sink then entryUnsink x s1 else entryUnfwd x h.q s1)
      | none => s1

/-! ### Routes (R334, R336) -/

def nodeAt (s : State) (a : Nat) : Option DbRec := (dbNodes s).find? (fun r => r.valid && r.addr == a)

/-- Insert a link, rising by address and port. -/
def insLink (x : Nat × Nat) : List (Nat × Nat) → List (Nat × Nat)
  | [] => [x]
  | y :: t => if x.1 < y.1 || (x.1 == y.1 && decide (x.2 ≤ y.2)) then x :: y :: t else y :: insLink x t

/-- The UP links of a node: neighbour address and port, rising by address. -/
def linksOf (s : State) (excl : List (Nat × Nat)) (a : Nat) : List (Nat × Nat) :=
  match nodeAt s a with
  | none => []
  | some r =>
    let l := (List.range 4).filterMap (fun p =>
      let w := getAt 0 r.links p
      if nbit w 15 && !excl.contains (a, p) then some (w % 16384, p) else none)
    l.foldr insLink []

/-- Breadth-first search; each frontier entry is an address and the ports taken, newest first. -/
def bfs (s : State) (excl : List (Nat × Nat)) (avoid : List Nat) (dst : Nat) :
    Nat → List Nat → List (Nat × List Nat) → Option (List Nat)
  | 0, _, _ => none
  | fuel + 1, seen, front =>
    match front.find? (fun f => f.1 == dst) with
    | some f => some f.2.reverse
    | none =>
      let step := front.foldl (fun (a : List Nat × List (Nat × List Nat)) f =>
        (linksOf s excl f.1).foldl (fun b n =>
          if b.1.contains n.1 || (avoid.contains n.1 && n.1 != dst) then b
          else (n.1 :: b.1, b.2 ++ [(n.1, n.2 :: f.2)])) a) (seen, [])
      if step.2.isEmpty then none else bfs s excl avoid dst fuel step.1 step.2

/-- A route of at most 64 hops.
[DEDUCED, unsafe: log entry 85] -/
def routeTo (s : State) (excl : List (Nat × Nat)) (avoid : List Nat) (dst : Nat) : Option (List Nat) :=
  let a := lf s 0x400D0014 0 14
  if !lb s 0x400D0014 31 then none else bfs s excl avoid dst 65 [a] [(a, [])]

/-- The nodes and links that a route crosses from address a. -/
def routeWalk (s : State) : Nat → List Nat → List (Nat × Nat)
  | _, [] => []
  | a, p :: t =>
    let nxt := match nodeAt s a with
      | some r => getAt 0 r.links p % 16384
      | none => a
    (a, p) :: routeWalk s nxt t

/-- Both ends of a link, so that neither direction is used. -/
def bothEnds (s : State) (l : Nat × Nat) : List (Nat × Nat) :=
  match nodeAt s l.1 with
  | some r => [l, (getAt 0 r.links l.2 % 16384, r.nport / 4 ^ l.2 % 4)]
  | none => [l]

/-! ### The source (R334, R336 to R338) -/

def srcFind (s : State) (flow : Nat) (path : Bool) : Option SrcFlow :=
  s.gaz.srcs.find? (fun f => f.flow == flow && f.path == path)
def srcPut (f : SrcFlow) (s : State) : State :=
  { s with gaz.srcs := s.gaz.srcs.filter (fun x => !(x.flow == f.flow && x.path == f.path)) ++ [f] }

/-- The route of the other copy of a flow, which a second path must not share. -/
def otherLinks (s : State) (flow : Nat) (path : Bool) : List (Nat × Nat) :=
  match srcFind s flow (!path) with
  | some f =>
    (match rsvFind s f.tag with
     | some h => (routeWalk s (lf s 0x400D0014 0 14) h.route).flatMap (bothEnds s)
     | none => [])
  | none => []

/-- The source computes a route and sends RESERVE (R334, step 1).
[DEDUCED, unsafe: log entry 85] [DEDUCED, unsafe: log entry 87] -/
def srcReserve (m0 : RsvMsg) (excl : List (Nat × Nat)) (s : State) : State :=
  let m : RsvMsg := if paired s then { m0 with path := lb s 0x400F0000 0 } else m0
  let f := (srcFind s m.flow m.path).getD { flow := m.flow, path := m.path }
  let dual := otherLinks s m.flow m.path
  let r := match routeTo s (excl ++ dual) (dual.map (fun l => l.1)) m.dstA with
    | some r => some r
    | none => routeTo s (excl ++ dual) [] m.dstA
  let hasOther := (srcFind s m.flow (!m.path)).isSome
  let fail (t : State) : State :=
    whenS (hasOther && !f.degraded) (raise 0x0D25 1 255 0)
      (srcPut { f with degraded := true, pend := none, retryAt := t.grat.cycle + secCy t (polPar t 7), msg := some m } t)
  match r with
  | none => fail s
  | some [] => s
  | some (q :: t) =>
    let tag := s.gaz.nextTag
    let m1 : RsvMsg := { m with tag := tag, idx := 0, lat := 0, reason := 0, route := (q :: t).map (Fin.ofNat 4),
                                srcA := lf s 0x400D0014 0 14 }
    match admitHop s none q m1 with
    | .error _ => fail s
    | .ok h =>
      let s1 := srcPut { f with pend := some tag, msg := some m1 } (rsvPut h { s with gaz.nextTag := (tag + 1) % 2 ^ 32 })
      rsvSend q opReserve { m1 with idx := 1, lat := h.d + cableWin s q } s1

/-- RELEASE along the route of a source's record. -/
def srcRelease (h : RsvHop) (s : State) : State :=
  rsvSend h.q opRelease { hopMsg h with idx := 1 } (hopRemove h s)

/-- The link at which a message's route, cut after the failing hop, ends. -/
def failedLink (s : State) (m : RsvMsg) : List (Nat × Nat) :=
  match (routeWalk s (lf s 0x400D0014 0 14) (m.route.map (fun r => r.val))).getLast? with
  | some l => bothEnds s l
  | none => []

/-- CONFIRM at the source (R334 step 5, R338 step 3). -/
def srcConfirm (h : RsvHop) (s : State) : State :=
  let f := (srcFind s h.flow h.path).getD { flow := h.flow, path := h.path }
  let s1 := entryWrite h (rsvPut { h with held := false } s)
  let s2 := commitReq (grpOf s 12) (s.grat.cycle + 2) s1
  srcPut { f with tag := h.tag, pend := none, degraded := false,
                  oldTag := if h.move && f.tag != h.tag then some f.tag else none, moveAt := s.grat.cycle } s2

/-- A refusal reaches the source, or RSV_HOLD is over there (R334 to R338). -/
def srcRefused (h : RsvHop) (reason : Nat) (excl : List (Nat × Nat)) (s : State) : State :=
  let s1 := srcRelease h s
  let f := (srcFind s1 h.flow h.path).getD { flow := h.flow, path := h.path }
  let s2 := srcPut { f with pend := none } s1
  if h.move then s2
  else if reason = 4 then srcReserve (hopMsg h) excl s2
  else
    let dual := (srcFind s2 h.flow (!h.path)).isSome
    whenS (dual && !f.degraded) (raise 0x0D25 1 255 0)
      (srcPut { f with pend := none, degraded := true, retryAt := s2.grat.cycle + secCy s2 (polPar s2 7), msg := some (hopMsg h) } s2)

/-- BROKEN at the source: the path is reserved anew (R337). -/
def srcBroken (h : RsvHop) (excl : List (Nat × Nat)) (s : State) : State :=
  let f := (srcFind s h.flow h.path).getD { flow := h.flow, path := h.path, tag := h.tag }
  let dual := (srcFind s h.flow (!h.path)).isSome
  let s1 := srcPut { f with degraded := dual, tag := 0, retryAt := s.grat.cycle + secCy s (polPar s 7) } (hopRemove h s)
  srcReserve { hopMsg h with move := false } excl (whenS (dual && !f.degraded) (raise 0x0D25 1 255 0) s1)

/-! ### The messages' rows -/

/-- Refuse toward the source: out of the arrival port.
[DEDUCED, unsafe: log entry 85] -/
def refuseOut (p reason : Nat) (m : RsvMsg) (s : State) : State :=
  rsvSend p opRefuse { m with reason := reason, idx := m.idx - 1 } s

/-- RESERVE at the sink (R333).
[DEDUCED, unsafe: log entry 86] -/
def reserveSink (p : Nat) (m : RsvMsg) (s : State) : State :=
  let own := lb s 0x400D0014 31 && lf s 0x400D0014 0 14 == m.dstA
  let fits := decide (m.lat + windowsFor s (prtMode s p) m.bytes ≤ (m.l - 1) * 64)
  if !own then refuseOut p 4 m s
  else if !fits then raise 0x0D24 1 255 0 (refuseOut p 2 m s)
  else if (entryFor s m.flow p).isNone && (freeEntry s).isNone then refuseOut p 3 m s
  else
    let h : RsvHop :=
      { tag := m.tag, flow := m.flow, arr := some p, lat := m.lat, bytes := m.bytes, per := max 1 m.per, phase := m.phase,
        path := m.path, move := m.move, l := m.l, srcA := m.srcA, dstA := m.dstA, held := false, sink := true,
        fwdC := some s.grat.nextCycle, since := s.grat.cycle, idx := m.idx, route := m.route.map (fun r => r.val) }
    polCommit (entryWrite h (rsvPut h s))

/-- RESERVE (R332, R333). -/
def reserveFx (p : Nat) (m : RsvMsg) (s : State) : State :=
  if !policyOn s || !(prtGet s p).up then s
  else if m.idx = m.route.length then reserveSink p m s
  else if m.route.length < m.idx then s
  else
    let q := routeAt m m.idx
    match admitHop s (some p) q m with
    | .error e => refuseOut p e { m with route := m.route.take (m.idx + 1) } s
    | .ok h => rsvSend q opReserve { m with idx := m.idx + 1, lat := h.d + 2 + cableWin s q } (rsvPut h s)

/-- CONFIRM (R333): the entry is written and committed; CONFIRM goes on when the commit has applied. -/
def confirmFx (p : Nat) (m : RsvMsg) (s : State) : State :=
  if !policyOn s || !(prtGet s p).up then s
  else
    match rsvFind s m.tag with
    | none => s
    | some h =>
      if !h.held then s
      else if h.arr.isNone then srcConfirm h s
      else polCommit (entryWrite h (rsvPut { h with held := false, fwdC := some s.grat.nextCycle } s))

/-- REFUSE (R333). -/
def refuseFx (p : Nat) (m : RsvMsg) (s : State) : State :=
  if !policyOn s || !(prtGet s p).up then s
  else
    match rsvFind s m.tag with
    | none => s
    | some h =>
      match h.arr with
      | none => srcRefused h m.reason (failedLink s m) s
      | some a => rsvSend a opRefuse { m with idx := h.idx - 1 } (hopRemove h s)

/-- RELEASE (R335). -/
def releaseFx (p : Nat) (m : RsvMsg) (s : State) : State :=
  if !policyOn s || !(prtGet s p).up then s
  else
    let s1 := match rsvFind s m.tag with
      | some h => hopRemove h s
      | none => s
    if m.idx < m.route.length then rsvSend (routeAt m m.idx) opRelease { m with idx := m.idx + 1 } s1 else s1

/-- BROKEN (R337). -/
def brokenFx (p : Nat) (m : RsvMsg) (s : State) : State :=
  if !policyOn s || !(prtGet s p).up then s
  else
    match rsvFind s m.tag with
    | none => s
    | some h =>
      match h.arr with
      | none => srcBroken h (failedLink s m) s
      | some a => rsvSend a opBroken { m with idx := h.idx - 1 } s

/-- RSV_HOLD_EXPIRY (R334). -/
def rsvHoldFx (tag : Nat) (s : State) : State :=
  match rsvFind s tag with
  | some h =>
    if policyOn s && h.held && h.since + msCy s (polPar s 4) ≤ s.grat.cycle then
      (if h.arr.isNone then srcRefused h 0 [] s else hopRemove h s)
    else s
  | none => s

/-- FLOW_IDLE_EXPIRY (R335).
[DEDUCED, unsafe: log entry 84] -/
def flowIdleFx (x : Nat) (s : State) : State :=
  let idle := match (flowGet s x).last with
    | some c => s.grat.cycle - c
    | none => s.grat.cycle - (flowGet s x).born
  if policyOn s && nbit (flowW s x 0) 31 && !flowSrc s x && msCy s (polPar s 5) < idle then
    polCommit (setShF x 0 (shF s x 0 % 2 ^ 31)
      { s with gaz.rsv := s.gaz.rsv.filter (fun h =>
          !(h.flow == flowId s x && !h.held && (match h.arr with
            | some p => nbit (flowIn s x) p
            | none => false))) })
  else s

/-- MOVE_OVERLAP_EXPIRY (R338). -/
def moveOverlapFx (flow : Nat) (s : State) : State :=
  foldS (s.gaz.srcs.filter (fun f => f.flow == flow)) (fun f t =>
    match f.oldTag with
    | some o =>
      if policyOn t && f.moveAt + polPar t 6 ≤ t.grat.cycle then
        (match rsvFind t o with
         | some h => srcPut { f with oldTag := none } (srcRelease h t)
         | none => srcPut { f with oldTag := none } t)
      else t
    | none => t) s

/-- RETRY_EXPIRY (R336). -/
def retryFlowFx (flow : Nat) (s : State) : State :=
  foldS (s.gaz.srcs.filter (fun f => f.flow == flow)) (fun f t =>
    match f.msg with
    | some m =>
      if policyOn t && f.degraded && f.pend.isNone && f.retryAt ≤ t.grat.cycle then srcReserve m [] t else t
    | none => t) s

/-- Confirmations due at boundary k, after its commits (R333).
[DEDUCED, unsafe: log entry 87] -/
def rsvBoundary (k : Nat) (s : State) : State :=
  foldS (s.gaz.rsv.filter (fun h => match h.fwdC with
      | some c => decide (c ≤ k)
      | none => false)) (fun h t =>
    match h.arr with
    | some a => rsvSend a opConfirm { hopMsg h with idx := h.idx - 1 } (rsvPut { h with fwdC := none } t)
    | none => rsvPut { h with fwdC := none } t) s

/-! ### A link fails (R320, R337) -/

/-- A reservation whose egress port is lost: refused while held, broken once confirmed (R337). -/
def hopLeft (p : Nat) (h : RsvHop) (t : State) : State :=
  let m : RsvMsg := { hopMsg h with route := (hopRoute h).take (h.idx + 1), idx := h.idx - 1 }
  match h.arr, h.held with
  | some a, true => rsvSend a opRefuse { m with reason := 4 } (hopRemove h t)
  | some a, false => rsvSend a opBroken m (hopRemove h t)
  | none, true => srcRefused h 4 (bothEnds t (lf t 0x400D0014 0 14, p)) t
  | none, false => srcBroken h (bothEnds t (lf t 0x400D0014 0 14, p)) t

/-- A forwarded flow whose egress port is lost: its entry is cut and BROKEN goes back (R337). -/
def flowLeft (p x : Nat) (t : State) : State :=
  let m : RsvMsg := { flow := shF t x 0 % 2 ^ 20, srcA := nfld (shF t x 7) 16 14, bytes := shF t x 6 % 65536,
                      lat := shF t x 6 / 65536, l := nfld (shF t x 1) 16 7, tag := (flowGet t x).tag,
                      per := nfld (shF t x (2 + p)) 24 8, phase := nfld (shF t x (2 + p)) 16 8 }
  foldS (bitsOf 4 (nfld (shF t x 0) 24 4)) (fun a u => rsvSend a opBroken m u) (entryUnfwd x p t)

/-- Policy firmware's answer when port p's adjacency leaves UP. -/
def adjLeft (p : Nat) (s : State) : State :=
  if policyOn s then
    let s1 := foldS (s.gaz.rsv.filter (fun h => !h.sink && h.q == p)) (hopLeft p) s
    let left := (flowsShadow s1).filter (fun x => nbit (shF s1 x 1) (28 + p) && !nbit (shF s1 x 0) 30)
    let s2 := foldS left (flowLeft p) s1
    policyUpdate (if left.isEmpty then s2 else polCommit s2)
  else s

/-- HELLO_RECEIVED with what leaving UP brings. -/
def helloFx (p : Nat) (l : List Byte) (s : State) : State :=
  let t := helloReceivedFx p l s
  whenS ((adjGet s p).st == 2 && (adjGet t p).st != 2) (adjLeft p) t

/-- The adjacency goes DOWN, with what that brings. -/
def adjDown (p : Nat) (s : State) : State :=
  whenS ((adjGet s p).st == 2) (adjLeft p) (adjDrop p s)

/-- ADJACENCY_DEAD (R320). -/
def adjDeadFx (p : Nat) (s : State) : State := if adjDue s p then adjDown p s else s

end Sys2Proof.Machine
end

