-- ==== Sys2Proof/Machine/ServiceBus.lean ====
section
/-! DEFINITION. The service bus: the alarm window, access, collisions, PLCA, its rings (R367 to R377). -/

namespace Sys2Proof.Machine

def svbB : Nat := 0x400E0000
def svbEn (s : State) : Bool := lb s svbB 31 && domOn s 5 && !blockSafe s 14
def svbMode (s : State) : Nat := lf s svbB 0 2
def svbAlarm (s : State) : Bool := lb s svbB 9 && svbMode s == 0
def svbPriv (s : State) : Bool := isSealed s && lb s (svbB + 4) 0
def svbCnt (i : Nat) (s : State) : State := ctrUp (svbB + 0x100 + 4 * i) 0 32 s
def svbEvent (i : Nat) (s : State) : State := evOr (svbB + 0x14) (2 ^ i) s

/-- The seed of the LFSR (R369). -/
def svbSeed (s : State) : Nat :=
  let v := lvn s 0x40200100 ^^^ lvn s 0x40200104
  if v = 0 then 1 else v

/-- Is lease traffic sent on the service bus (R355)? -/
def svbBackup (s : State) : Bool := lb s 0x400F0020 1 && paired s

/-- Wire time in LC ticks: frame, preamble and gap at 0.8 µs a byte (R372). -/
def svbTicks (f : List Byte) : Nat := (fLen f + 20) * 400

/-- LC ticks of n 2^-16 ns units. -/
def uTicks (u : Nat) : Nat := ceilDiv u 131072

/-- A frame whose end has passed leaves the bus (R372).
[PRESUMED, unsafe: log entry 92] -/
def svbDone (s : State) : State :=
  match s.svb.cur with
  | some (f, e) =>
    if e ≤ s.time.lc then
      let x := s.svb
      let lease := f.priv && !f.desc && (fB f.bytes (fOff f.bytes + 8) == 1 || fB f.bytes (fOff f.bytes + 8) == 2)
      let s1 := srvUp 14 0 1 <| srvUp 14 3 (b2n f.priv) <| srvUp 15 3 (b2n lease) <| whenS f.priv (svbCnt 5) (svbCnt 2 { s with svb.cur := none, svb.tries := 0 })
      if f.desc then { s1 with svb.desc := some 0, svb.frame := none }
      else if x.lease == some f then { s1 with svb.lease := none } else s1
    else s
  | none => s

/-- A lease message of the pair controller (R374). -/
def svbLease (s : State) (op cyc : Nat) : SvbFrame :=
  { bytes := eorelFrame s (2 ^ 48 - 1) { kind := 3 }
      (beBytes 1 op ++ beBytes 1 (b2n (lb s 0x400F0000 0) + 2) ++ beBytes 6 cyc ++ beBytes 8 (ownUid s) ++ List.replicate 8 0) [],
    priv := true }

/-- The next window start: a whole millisecond not yet opened and not yet passed (R371). -/
def svbNextMs (s : State) : Nat := max s.svb.winNext (ceilDiv (ftNow s) 65536000000)

/-- ALARM_WINDOW_OPEN (R371, R374). -/
def alarmOpenFx (s0 : State) : State :=
  let s := svbDone s0
  if svbEn s && svbAlarm s && !s.svb.win then
    let ms := svbNextMs s
    let s1 := atFt (ms * 65536000000) s
    let s2 := { s1 with svb.win := true, svb.winNext := ms + 1, svb.winFt := ms * 65536000000,
                        svb.guard := lf s1 (svbB + 8) 0 7 }
    if svbBackup s2 && svbPriv s2 then
      let k := cycleOfFt s2 (ms * 65536000000)
      if s2.svb.relinq then { s2 with svb.lease := some (svbLease s2 3 k), svb.relinq := false }
      else if s2.pair.role = 1 then { s2 with svb.lease := some (svbLease s2 1 k) }
      else match s2.svb.ackCyc with
        | some c => { s2 with svb.lease := some (svbLease s2 2 c), svb.ackCyc := none }
        | none => s2
    else s2
  else s

/-- The privileged frame that may start next (R373). -/
def svbHeadPriv (s : State) : Option SvbFrame :=
  if svbPriv s then
    match s.svb.lease, s.svb.frame with
    | some f, _ => some f
    | none, some f => if f.priv then some f else none
    | none, none => none
  else none

/-- ALARM_WINDOW_CLOSE (R371 to R374): a privileged frame still waiting counts in WIN_BUSY; a lease message not started
is discarded.
[PRESUMED, unsafe: log entry 92] -/
def alarmCloseFx (s0 : State) : State :=
  if s0.svb.win then
    let s := svbDone (atFt (s0.svb.winFt + 32 * 65536000) s0)
    let going := match s.svb.cur with
      | some (f, _) => f.priv
      | none => false
    let waits := (svbHeadPriv s).isSome && !going && s.svb.backoff.isNone
    let s1 := whenS waits (fun t => svbEvent 4 (svbCnt 6 t)) s
    let started := match s.svb.cur with
      | some (f, _) => s.svb.lease == some f
      | none => false
    { s1 with svb.win := false, svb.lease := if started then s1.svb.lease else none }
  else s0

/-- May an ordinary frame start now (R372)? -/
def svbOrdOk (s : State) (f : SvbFrame) : Bool :=
  if svbAlarm s then
    !s.svb.win &&
      (let ft := ftNow s
       let next := svbNextMs s * 65536000000
       decide (ft + svbTicks f.bytes * 131072 + s.svb.guard * 65536000 ≤ next))
  else true

/-- The frame that may start under the access rules (R370 to R373). -/
def svbPick (s : State) : Option SvbFrame :=
  if s.svb.win && svbAlarm s then svbHeadPriv s
  else match s.svb.frame with
    | some f => if (f.priv && svbPriv s && svbAlarm s) then none else if svbOrdOk s f then some f else none
    | none => none

/-- Start a frame. -/
def svbStart (f : SvbFrame) (s : State) : State := { s with svb.cur := some (f, s.time.lc + svbTicks f.bytes) }

/-- Is access by PLCA in force (R370)? -/
def svbPlca (s : State) : Bool := svbMode s == 1 && !s.svb.fallback

/-- SVB_TX_START (R369 to R373): also a further frame of a PLCA burst. -/
def svbTxFx (s0 : State) : State :=
  let s := svbDone s0
  if !svbEn s || s.svb.cur.isSome || s.svb.backoff.isSome then s
  else
    match svbPick s with
    | none => s
    | some f =>
      if svbPlca s then
        (if 0 < s.svb.burst then svbStart f { s with svb.burst := s.svb.burst - 1 } else s)
      else svbStart f s

/-- PLCA_TX_OPPORTUNITY (R370). -/
def plcaFx (s0 : State) : State :=
  let s := svbDone s0
  if svbEn s && svbPlca s && s.svb.cur.isNone then
    match s.svb.frame with
    | some f => svbStart f { s with svb.burst := lf s (svbB + 0xC) 8 8 }
    | none => { s with svb.burst := 0 }
  else s

/-- SVB_COLLISION (R369, R372): the draw from the LFSR is a free value, its seed is not.
[DESIGN CHOICE, safe: log entry 17] [PRESUMED, unsafe: log entry 92] -/
def svbCollFx (s : State) : State :=
  match s.svb.cur with
  | none => s
  | some (f, e) =>
    if e ≤ s.time.lc then svbDone s
    else
      let n := s.svb.tries + 1
      let s1 := srvUp 14 2 1 (svbCnt 3 { s with svb.cur := none, svb.tries := n })
      if 16 ≤ n then
        let s2 := svbEvent 3 (svbCnt 4 { s1 with svb.tries := 0, svb.backoff := none })
        let s3 := if f.desc then { s2 with svb.desc := some 4, svb.frame := none } else { s2 with svb.lease := none }
        whenS f.priv (raise 0x0E11 1 255 0) s3
      else
        let d := draw .backoff n s
        let wait := if f.priv then 6400 + d % 4 * 1600 else d % 2 ^ min n 10 * 25600
        { s1 with svb.backoff := some (s.time.lc + wait), svb.lfsr := draw .backoff (n + 64) s % 2 ^ 32 }

/-- SVB_BACKOFF_EXPIRY (R369). -/
def svbBackoffFx (s : State) : State :=
  match s.svb.backoff with
  | some t => { atLc t s with svb.backoff := none }
  | none => s

/-- BEACON_LOST (R370). -/
def beaconLostFx (s : State) : State :=
  if svbEn s && svbMode s = 1 && lf s (svbB + 0xC) 0 8 != 0 && s.svb.plca then
    svbEvent 5 { s with svb.plca := false, svb.fallback := true }
  else s

/-- BEACON_RECEIVED (R370). -/
def beaconFx (s : State) : State :=
  if svbEn s && svbMode s = 1 then { s with svb.plca := true, svb.fallback := false } else s

/-- TX_DESCRIPTOR of the service bus (R376). -/
def svbDescFx (s : State) : State :=
  let r := ringRegs 4
  let a := ringAddr s r s.svb.txHead
  if !svbEn s || ringSize s r = 0 || s.svb.txHead = lf s (r + 8) 0 10 || s.svb.desc.isSome || s.svb.frame.isSome then s
  else if !dmaOk s a 32 true then dmaErr a true { s with svb.desc := some 4 }
  else
    let w1 := mWord s (a + 4)
    let buf := mWord s a
    let len := nfld w1 0 17
    if !nbit w1 31 then s
    else
      let priv := nbit w1 27 && svbPriv s
      let long := lb s svbB 9 && !priv && (968 - lf s (svbB + 8) 0 7) * 10 < (max 64 (len + 4) + 20) * 8
      if nfld w1 28 3 != 0 || len = 0 || 1514 < len || long then { s with svb.desc := some 1 }
      else if !dmaOk s buf len false then dmaErr buf false { s with svb.desc := some 4 }
      else { s with svb.frame := some { bytes := fPad (mBytes s buf len), priv := priv, desc := true }, svb.tries := 0 }

/-- TX_DESCRIPTOR_COMPLETE of the service bus. -/
def svbDescDoneFx (s0 : State) : State :=
  let s := match s0.svb.cur with
    | some (f, e) => if f.desc then svbDone (atLc e s0) else svbDone s0
    | none => s0
  let r := ringRegs 4
  match s.svb.desc with
  | some res =>
    let s1 := descDone s (ringAddr s r s.svb.txHead) res s
    svbEvent 1 { s1 with svb.desc := none, svb.frame := none, svb.txHead := (s.svb.txHead + 1) % max 1 (ringSize s r) }
  | none => s

/-- Did a frame that has just ended start inside an alarm window (R376)? -/
def svbInWin (s : State) (l : List Byte) : Bool :=
  svbAlarm s &&
    (let st := ftNow s - (fLen l + 8) * 400 * 131072
     decide (s.svb.winFt ≤ st) && decide (st < s.svb.winFt + 32 * 65536000) && s.svb.winFt != 0)

/-- What every received frame does: counts, polarity (R368). -/
def svbRxCount (fcsOk reversed : Bool) (s : State) : State :=
  let first := !s.svb.polSeen
  let s1 := srvUp 14 1 1 (svbCnt 0 { s with svb.polSeen := true })
  let s2 := if first && reversed then raise 0x0E10 0 255 0 (svbEvent 0 { s1 with svb.polRev := true }) else s1
  whenS (!fcsOk) (svbCnt 1) s2

/-- Delivery to the receive ring (R375, R376). -/
def svbDeliver (l : List Byte) (s : State) : State :=
  if localDa s (fDa l) then
    let r := svbB + 0x50
    match ringDeliver r s.svb.rxHead (b2n (svbInWin s l)) (fTagged l) none l s with
    | (true, s1) => svbEvent 2 { s1 with svb.rxHead := (s.svb.rxHead + 1) % max 1 (ringSize s r) }
    | (false, s1) => svbCnt 7 s1
  else s

/-- A commit that changes EN (R368, R377): STOP fields apply. -/
def svbCommit (s : State) : State :=
  let s1 := pendApply (svbB + 0xC) (pendApply svbB s)
  if lb s svbB 31 then { s1 with svb.polSeen := false, svb.polRev := false }
  else { s1 with svb.win := false, svb.lease := none, svb.backoff := none, svb.plca := false, svb.fallback := false }

/-- Per-function reset or safe action (R377). -/
def svbReset (s : State) : State := { s with svb := { lfsr := svbSeed s } }

/-- Read-only words of SVB. -/
def svbView (s : State) (o : Nat) : Option Word :=
  let x := s.svb
  let busy := match x.cur with
    | some (_, e) => decide (s.time.lc < e)
    | none => false
  match o with
  | 0x10 => some (wd (bitAt 4 x.win + bitAt 3 (pendAt s svbB || pendAt s (svbB + 0xC)) + bitAt 2 x.polRev + bitAt 1 x.plca
      + b2n (lb s svbB 31 || busy)))
  | 0x4C => some (wd x.txHead)
  | 0x5C => some (wd x.rxHead)
  | _ => none

end Sys2Proof.Machine
end

