-- ==== Sys2Proof/Machine/Pair.lean ====
section
/-! DEFINITION. Windward and leeward pairs: forming, the lease, digests and the step state, mirrored inputs, the shared
sense stream, resync, switch-back (R342 to R366). -/

namespace Sys2Proof.Machine

def pairB : Nat := 0x400F0000
def pairSide (s : State) : Bool := lb s pairB 0
def pairEn (s : State) : Bool := paired s && lb s (pairB + 0x20) 31
def peerUid (s : State) : Nat := lvn s (pairB + 4) + lvn s (pairB + 8) * 2 ^ 32
def leaseCy (s : State) : Nat := lf s (pairB + 0x24) 0 8
def guardCy (s : State) : Nat := lf s (pairB + 0x24) 8 4
def svbLeaseCy (s : State) : Nat := lf s (pairB + 0x24) 16 8

/-- SEL_GAP in LC ticks. -/
def selGap (s : State) : Nat := ceilDiv (lf s (pairB + 0x2C) 0 10) 2

/-- EVENT bits: 0 ROLE_CHG 1 IN_STEP 2 OUT_OF_STEP 3 MISMATCH 4 LINK_CHG 5 CLAIM 6 RELEASE 7 RESYNC_DONE 8 RESYNC_FAIL
9 SWB_REFUSED 10 OVERLAP. -/
def pairEvent (i : Nat) (s : State) : State := evOr (pairB + 0x44) (2 ^ i) s
def pairRaise (code cls : Nat) (s : State) : State := raise code cls 255 0 s

/-- Count PAIR.CNT: 24 MISMATCH, 16 MISSING, 8 SENSE_LOCAL, 0 FOREIGN. -/
def pairCnt (lo : Nat) (s : State) : State := ctrUp (pairB + 0x50) lo 8 s

/-- The LC tick of the boundary of cycle k at the RATE in force (R353). -/
def lcOfCycle (s : State) (k : Nat) : Nat := lcForFt s (cycleFt s k)

/-! ### Frames (R346, R347) -/

/-- Send a frame on the pair link. -/
def pairSend (kind : Nat) (rest payload : List Byte) (due : Nat) (s : State) : State :=
  txOwn 3 1 { bytes := eorelFrame s (linkDa s 3) { kind := kind } rest payload, due := due } s

/-- A lease message: 1 RENEW 2 ACK 3 RELINQUISH 4 HANDOVER 5 HANDOVER_ACK 6 CLAIMED. -/
def leaseSend (op cyc : Nat) (s : State) : State :=
  pairSend 3 (beBytes 1 op ++ beBytes 1 (b2n (pairSide s)) ++ beBytes 6 cyc ++ beBytes 8 (ownUid s) ++ List.replicate 8 0) []
    (ftNow s) s

/-- Bytes 8 to 31 of a STATE frame. -/
def stateRest (sub part parts cyc arg arg2 : Nat) : List Byte :=
  beBytes 1 sub ++ beBytes 1 (part * 16 + (parts - 1)) ++ beBytes 6 cyc ++ beBytes 8 arg ++ beBytes 4 arg2 ++ List.replicate 4 0

def stateSend (sub cyc arg arg2 : Nat) (payload : List Byte) (due : Nat) (s : State) : State :=
  pairSend 5 (stateRest sub 0 1 cyc arg arg2) payload due s

/-- The FORM message of this node (R344, R347). -/
def formSend (s : State) : State :=
  stateSend 7 s.grat.cycle
    (lf s pairB 8 16 * 2 ^ 48 + s.pair.role * 2 ^ 32 + bitAt 31 s.pair.own + bitAt 30 (pairSide s)) 0 [] (ftNow s) s

/-- RELINQUISH on both paths (R355, R357). -/
def relinquishSend (s : State) : State :=
  let s1 := leaseSend 3 s.grat.cycle s
  if svbBackup s1 then { s1 with svb.relinq := true } else s1

/-! ### Roles and the step state (R345, R351) -/

/-- A role change. A resync in progress fails with it (R363). -/
def setRole (r : Nat) (s : State) : State :=
  if s.pair.role = r then s
  else pairEvent 0 { s with pair.role := r }

/-- RESYNC_REQ leaves the leeward (R360 step 1). -/
def resyncStart (s : State) : State :=
  stateSend 4 s.grat.cycle 0 0 [] (ftNow s) { s with pair.step := 4, pair.rphase := 1, pair.ready := none, pair.retryAt := none }

/-- Entry into OUT_OF_STEP (R351): an ERROR on the leeward, which resyncs at once with RESYNC_AUTO. -/
def outOfStep (err : Bool) (s : State) : State :=
  let s1 := pairEvent 2 { s with pair.step := 3, pair.mis := 0, pair.matchN := 0 }
  let s2 := whenS (err && s1.pair.role == 2) (pairRaise 0x0F30 2) s1
  if s2.pair.role = 2 && lb s2 (pairB + 0x20) 2 && err then resyncStart s2 else s2

/-- A resync fails (R363): with RESYNC_AUTO another request follows one second later. -/
def resyncFail (s : State) : State :=
  if s.pair.rphase = 0 then s
  else
    let s1 := pairRaise 0x0F25 1 (pairEvent 8 (outOfStep false
      { s with pair.rphase := 0, pair.ready := none, pair.log := [], pair.logBytes := 0, pair.caught := [] }))
    if s1.pair.role = 2 && lb s1 (pairB + 0x20) 2 then { s1 with pair.retryAt := some (s1.grat.cycle + famF s1) } else s1

/-- A role change in the course of a resync ends it. -/
def toRole (r : Nat) (s : State) : State := setRole r (if s.pair.role != r then resyncFail s else s)

/-- The step state starts to sync. -/
def stepSyncing (s : State) : State := { s with pair.step := 1, pair.matchN := 0, pair.mis := 0 }

/-- FORMING resolves once the link is verified (R345).
[DEDUCED, unsafe: log entry 88] -/
def formResolve (s : State) : State :=
  if pairEn s && s.pair.role = 3 && s.pair.link then
    if s.pair.peer || s.pair.peerRole = 1 then pairRaise 0x0F10 0 (stepSyncing (toRole 2 s))
    else if !s.pair.own then
      if pairSide s then pairRaise 0x0F10 0 (stepSyncing (toRole 2 s))
      else pairRaise 0x0F10 0 (stepSyncing { s with pair.claimDue := true })
    else s
  else s

/-- The pair link is verified (R344).
[DEDUCED, unsafe: log entry 88] -/
def linkVerified (s : State) : Bool :=
  pairEn s && (adjGet s 3).st == 2 && (adjGet s 3).nuid == peerUid s && s.pair.formOk

/-- Follow what the adjacency of port 3 and FORM messages say about the link (R344, R351). -/
def pairSync (s : State) : State :=
  if !pairEn s then s
  else
    let up := (adjGet s 3).st == 2
    let good := (adjGet s 3).nuid == peerUid s
    let s1 := if up && !s.pair.adjUp then
        let t := { s with pair.adjUp := true, pair.formOk := false, pair.mism := !good }
        if good then formSend t else pairRaise 0x0F33 2 t
      else if !up && s.pair.adjUp then { s with pair.adjUp := false, pair.formOk := false, pair.mism := false }
      else if up && !good && !s.pair.mism then pairRaise 0x0F33 2 { s with pair.mism := true, pair.formOk := false }
      else s
    let l := linkVerified s1
    if l == s1.pair.link then formResolve s1
    else if l then
      let s2 := pairEvent 4 { s1 with pair.link := true }
      formResolve (if s2.pair.step = 5 then stepSyncing s2 else s2)
    else
      let s2 := pairRaise 0x0F21 1 (pairEvent 4 { s1 with pair.link := false })
      let s3 := resyncFail s2
      if s3.pair.step = 1 || s3.pair.step = 2 then { s3 with pair.step := 5, pair.matchN := 0, pair.mis := 0 } else s3

/-- A commit of PAIR.CFG in which EN changed (R345).
[DEDUCED, unsafe: log entry 88] -/
def pairEnCommit (s : State) : State :=
  if pairEn s then
    pairSync (formSend (pairEvent 0 { s with pair := { role := 3, formAt := s.grat.cycle, peer := s.pair.peer,
                                                       peerAt := s.pair.peerAt, peerRose := s.pair.peer } }))
  else { s with pair := { peer := s.pair.peer, peerAt := s.pair.peerAt } }

/-! ### The lease (R353 to R356) -/

/-- A lease message comes from the partner, else it is counted as foreign (R347).
[DEDUCED, unsafe: log entry 91] -/
def leaseFrom (m : LeaseMsg) (f : State → State) (s : State) : State :=
  if !pairEn s then s
  else if m.uid.toNat != peerUid s then pairCnt 0 s
  else f { s with pair.svbPath := m.svb }

/-- What a message says of the partner's role (R359). -/
def peerSays (r : Nat) (s : State) : State :=
  let bad := s.pair.peer && r == 2
  { s with pair.peerRole := r,
           pair.stuckAt := if bad then (if s.pair.stuckAt.isSome then s.pair.stuckAt else some s.grat.cycle) else none,
           pair.stuckErr := bad && s.pair.stuckErr }

/-- LEASE_RENEW (R353, R355).
[DEDUCED, unsafe: log entry 91] -/
def leaseRenewFx (m : LeaseMsg) (s : State) : State :=
  leaseFrom m (fun t0 =>
    let t := peerSays 1 { t0 with pair.bar := false }
    if t.pair.role != 2 then formResolve t
    else if m.svb then { t with svb.ackCyc := some m.cyc.toNat }
    else
      let k := m.cyc.toNat
      srvUp 15 3 1 <| leaseSend 2 k { t with pair.dl := some (lcOfCycle t (k + leaseCy t)), pair.relinq := false }) s

/-- LEASE_ACK (R353, R355). -/
def leaseAckFx (m : LeaseMsg) (s : State) : State :=
  leaseFrom m (fun t0 =>
    let t := peerSays 2 t0
    if t.pair.role != 1 then t
    else if m.svb then { t with pair.acked := true, pair.dwSvb := some (lcOfCycle t (m.cyc.toNat + svbLeaseCy t)) }
    else { t with pair.acked := true, pair.dw := some (lcOfCycle t (m.cyc.toNat + leaseCy t)) }) s

/-- LEASE_RELINQUISH (R354, R357). -/
def relinquishFx (m : LeaseMsg) (s : State) : State :=
  leaseFrom m (fun t0 =>
    let t := peerSays 2 t0
    if t.pair.role = 2 then { t with pair.relinq := true } else t) s

/-- LEASE_HANDOVER (R364). -/
def handoverFx (m : LeaseMsg) (s : State) : State :=
  leaseFrom m (fun t =>
    if t.pair.role = 2 && t.pair.step = 2 then
      leaseSend 5 m.cyc.toNat { t with pair.handW := some m.cyc.toNat }
    else t) s

/-- HANDOVER_ACK (R364). -/
def handoverAckFx (m : LeaseMsg) (s : State) : State :=
  leaseFrom m (fun t =>
    if t.pair.role = 1 && t.pair.swb = some m.cyc.toNat then { t with pair.swbAck := true } else t) s

/-- LEASE_CLAIMED (R354). -/
def claimedFx (m : LeaseMsg) (s : State) : State := leaseFrom m (fun t => formResolve (peerSays 1 t)) s

/-- LEASE_OWN falls. -/
def dropOwn (s : State) : State :=
  if s.pair.own then
    pairEvent 6 { s with pair.own := false, pair.acked := false, pair.dw := none, pair.dwSvb := none, pair.bothAt := none,
                         pair.overlapped := false, pair.peerRose := s.pair.peer, pair.swb := none, pair.swbAck := false }
  else s

/-- The lease of a windward runs out at this LC, if it holds an acknowledged one (R353, R355).
[DEDUCED, unsafe: log entry 88] -/
def leaseEnd (s : State) : Option Nat :=
  match s.pair.dw, s.pair.dwSvb with
  | some a, some b => some (if svbBackup s then max a b else a)
  | some a, none => some a
  | none, some b => if svbBackup s then some b else none
  | none, none => none

/-- LEASE_EXPIRY (R353). -/
def leaseExpiryFx (s : State) : State :=
  match leaseEnd s with
  | some e =>
    if s.pair.role = 1 && s.pair.acked then
      let s1 := atLc e s
      let t := dropOwn s1
      pairRaise 0x0F23 1 (toRole 2 { t with pair.bar := true,
                                            pair.barAt := lcForFt t (ftOf t.time.offset t.time.rate e 0 + ceilDiv ((leaseCy t + 2 * guardCy t) * secU) (famF t)) })
    else s
  | none => s

/-- LC from which a leeward's claim conditions can hold, if they can (R354, R364). -/
def claimFrom (s : State) : Option Nat :=
  if s.pair.bar then (if s.pair.peerRose then none else some s.pair.barAt)
  else if s.pair.relinq then some 0
  else
    let h := s.pair.handW.map (fun w => lcOfCycle s w)
    let d := s.pair.dl.map (fun e => lcForFt s (ftOf s.time.offset s.time.rate e 0 + ceilDiv (guardCy s * secU) (famF s)))
    match h, d with
    | some a, some b => some (min a b)
    | some a, none => some a
    | none, b => b

/-- The first gate-window start at or after an FT (R67). -/
def windowAfter (s : State) (ft : Nat) : Nat :=
  let c := cycleOfFt s ft
  let w := ceilDiv ((ft * famF s - c * secU) * 64) secU
  windowFt s c w

/-- The claim itself at the present instant (R354). -/
def claimNow (s : State) : State :=
  let reclaim := s.pair.bar
  let hand := match s.pair.handW with
    | some w => decide (w ≤ s.grat.cycle)
    | none => false
  let s1 := toRole 1 s
  let s2 := pairEvent 5 { s1 with pair.own := true, pair.bar := false, pair.relinq := false, pair.handW := none,
                                  pair.acked := false, pair.dl := none, pair.claimDue := false,
                                  pair.bothAt := if s1.pair.peer then some s1.time.lc else none }
  let s3 := leaseSend 1 s2.grat.cycle (leaseSend 6 s2.grat.cycle s2)
  let s4 := if reclaim then pairRaise 0x0F31 2 s3 else if hand then pairRaise 0x0F13 0 s3 else pairRaise 0x0F22 1 s3
  whenS (s4.pair.step != 2 && !hand) (pairRaise 0x0F27 1) s4

/-- CLAIM (R354): at the first window start at which the conditions hold. -/
def claimFx (s : State) : State :=
  if pairEn s && s.pair.role = 2 && !s.flt.safe && !s.pair.peer then
    match claimFrom s with
    | some lc =>
      let t := max s.time.lc (max lc (s.pair.peerAt + selGap s))
      claimNow (atFt (windowAfter s (ftOf s.time.offset s.time.rate t 0)) s)
    | none => s
  else s

/-- FORMING_TIMEOUT (R345). -/
def formingFx (s : State) : State :=
  let need := if pairSide s then leaseCy s + 3 * guardCy s + 1 else leaseCy s + guardCy s
  if pairEn s && s.pair.role = 3 && !s.pair.link && !s.pair.peerRose && !s.pair.peer && !s.flt.safe
      && s.pair.formAt + need ≤ s.grat.cycle then
    let t := claimNow s
    { t with pair.step := 5 }
  else s

/-- PEER_OWN_CHANGE (R354, R356). -/
def peerOwnFx (level : Bool) (s : State) : State :=
  if level == s.pair.peer then s
  else
    let s1 := { s with pair.peer := level, pair.peerAt := s.time.lc }
    if level then
      formResolve (peerSays s1.pair.peerRole
        { s1 with pair.peerRose := true, pair.bar := false, pair.bothAt := if s1.pair.own then some s1.time.lc else none })
    else { s1 with pair.bothAt := none, pair.overlapped := false, pair.stuckAt := none, pair.stuckErr := false }

/-- OVERLAP (R356). -/
def overlapFx (s : State) : State :=
  match s.pair.bothAt with
  | some t =>
    if s.pair.own && s.pair.peer && !s.pair.overlapped && pairEn s then
      let s1 := pairEvent 10 { atLc (t + selGap s + 1) s with pair.overlapped := true }
      if s1.pair.acked then pairRaise 0x0F32 2 s1 else pairRaise 0x0F40 3 s1
    else s
  | none => s

/-- PEER_OWN_STUCK (R359). -/
def stuckFx (s : State) : State :=
  match s.pair.stuckAt with
  | some c =>
    if pairEn s && s.pair.peer && !s.pair.stuckErr && c + leaseCy s ≤ s.grat.cycle then
      pairRaise 0x0F34 2 { s with pair.stuckErr := true }
    else s
  | none => s

/-- FORM (R344, R345). -/
def formFx (tag role : Nat) (own side : Bool) (s : State) : State :=
  if pairEn s && (adjGet s 3).st = 2 && (adjGet s 3).nuid = peerUid s then
    if tag = lf s pairB 8 16 && side != pairSide s then
      pairSync (peerSays (if own then 1 else role) { s with pair.formOk := true })
    else
      let s1 := whenS (!s.pair.mism) (pairRaise 0x0F33 2) s
      pairSync { s1 with pair.mism := true, pair.formOk := false }
  else s

/-! ### Copies (R352, R454) -/

/-- Does this node send its copies of the fabric flows? -/
def txCopies (s : State) : Bool :=
  if !paired s then true
  else if s.flt.safe then !s.pair.peer
  else s.pair.own || (s.pair.role == 2 && (s.pair.step == 2 || (s.pair.step == 5 && !s.pair.peer)))

def sendMode (s : State) : SendMode :=
  { copies := txCopies s, path := if paired s then some (pairSide s) else none, muted := s.flt.safe }

/-! ### Digests (R350, R351) -/

/-- One bit of the CRC-64. -/
def crcBit (c : Nat) (b : Bool) : Nat :=
  let top := nbit c 63 != b
  let sh := c * 2 % 2 ^ 64
  if top then sh ^^^ 0x42F0E1EBA9EA3693 else sh

/-- One byte, most significant bit first. -/
def crcByte (c : Nat) (b : Byte) : Nat := [7, 6, 5, 4, 3, 2, 1, 0].foldl (fun a i => crcBit a (nbit b.toNat i)) c

/-- CRC-64 with the ECMA-182 polynomial, initial value 0 (R350). -/
def crc64 (l : List Byte) : Nat := l.foldl crcByte 0

/-- Destinations with a source, ascending (R141, R350). -/
def egrLive (s : State) : List Nat :=
  (s.hub.live.filter (fun e => 0x40114000 ≤ e.1 && e.1 < 0x40114000 + 2344 * 4 && egrKind e.2.toNat != 0)).map
    (fun e => e.1 % 0x4000 / 4)

/-- Digest of the last egress cycle, and its sample count. -/
def digestOf (s : State) : Nat × Nat :=
  let l := egrLive s
  (crc64 (l.flatMap (fun d =>
     (List.range (spc s)).flatMap (fun j => beBytes 4 (unsgn 32 (getAt 0 (tget silentChan s.mix.egPrev d).x j))))), l.length * spc s)

/-- DIGEST (R350): the partner's digest arrives. -/
def digestFx (cyc dig nsamp : Nat) (s : State) : State :=
  if pairEn s && s.pair.link && s.grat.cycle ≤ cyc + 2 then
    { s with pair.theirs := tset (0, 0) s.pair.theirs cyc (dig + 1, nsamp) }
  else s

/-- A match decided. -/
def decideMatch (s : State) : State :=
  let n := min (2 ^ 32 - 1) (s.pair.matchN + 1)
  let s1 := srvUp 15 0 1 { s with pair.matchN := n, pair.mis := 0 }
  if s1.pair.step = 1 && lf s1 (pairB + 0x28) 16 16 ≤ n then pairRaise 0x0F11 0 (pairEvent 1 { s1 with pair.step := 2 })
  else s1

/-- A mismatch decided. -/
def decideMismatch (e mine theirs : Nat) (s : State) : State :=
  let s0 := srvUp 15 1 1 (pairEvent 3 (pairCnt 24 s))
  let s1 := { s0 with pair.matchN := 0, pair.mis := s0.pair.mis + 1,
                      pair.digRec := if s0.pair.digRec.isSome then s0.pair.digRec else some (e, mine, theirs) }
  let s2 := whenS (s1.pair.step == 2 && s1.pair.mis == 1) (pairRaise 0x0F20 1) s1
  if (s2.pair.step = 1 || s2.pair.step = 2) && lf s2 (pairB + 0x28) 0 8 ≤ s2.pair.mis then outOfStep true s2 else s2

/-- DIGEST_DECISION at boundary k on cycle k − 2 (R350, R351). During RESYNC no decision changes the state. -/
def digestDecide (k : Nat) (s : State) : State :=
  if !pairEn s || s.pair.role = 3 || k < 2 then s
  else
    let e := k - 2
    let a := tget (0, 0) s.pair.mine e
    let b := tget (0, 0) s.pair.theirs e
    let s1 := { s with pair.mine := tkeep (fun c => decide (k - 2 < c)) s.pair.mine,
                       pair.theirs := tkeep (fun c => decide (k - 2 < c)) s.pair.theirs }
    if s1.pair.step = 4 then s1
    else if b.1 = 0 || a.1 = 0 then srvUp 15 2 1 (pairCnt 16 { s1 with pair.matchN := 0 })
    else if a.1 = b.1 then decideMatch s1
    else decideMismatch e (a.1 - 1) (b.1 - 1) s1

/-- The digest of egress cycle k − 1 is sent (R346). -/
def digestSend (k : Nat) (s : State) : State :=
  let d := digestOf s
  let s1 := { s with pair.mine := tset (0, 0) s.pair.mine (k - 1) (d.1 + 1, d.2) }
  pairSend 4 (beBytes 2 0 ++ beBytes 6 (k - 1) ++ beBytes 8 d.1 ++ beBytes 4 d.2 ++ List.replicate 4 0) [] (ftNow s) s1

/-! ### Mirrored inputs (R348) -/

/-- The samples captured in cycle c for a local slot, where all of them are there. -/
def capturedRows (s : State) (i c : Nat) : Option (List (List Int)) := cycleRows (slotGet s i) (slotS s i) (c + slotL s i)

/-- One entry of the MIRROR record of capture cycle c. `dirs` are the slips applied at boundary c + 1, by source. -/
def mirrorEntry (s : State) (c : Nat) (dirs : Tab Int) (i : Nat) : List Byte :=
  let rows := capturedRows s i c
  let g := slotGroup s i
  let grp := g != 0 && lb s (0x40100100 + g * 4) 0 && lb s (0x40100100 + g * 4) 1 &&
    (slotsOn s).any (fun m => slotGroup s m == g && slotPart s m (c + slotL s m) && (slotSource s m).isSome && (capturedRows s m c).isNone)
  let conceal := rows.isNone || grp
  let d := tget 0 dirs ((slotSource s i).getD 99)
  let slip := if d > 0 then 1 else if d < 0 then 2 else 0
  let data := match rows with
    | some r => r.flatten
    | none => List.replicate (slotNch s i * slotS s i) 0
  beBytes 4 (bitAt 31 conceal + slip * 2 ^ 29 + i * 65536 + slotNch s i) ++ data.flatMap (fun v => beBytes 4 (unsgn 32 v))

/-- Pack entries into parts of at most 2,126 payload bytes; an entry never spans two (R347). -/
def mirrorParts : List (List Byte) → List Byte → List (List Byte)
  | [], cur => [cur]
  | e :: t, cur => if cur.length + e.length ≤ 2126 then mirrorParts t (cur ++ e) else cur :: mirrorParts t e

/-- The payload parts of the record of cycle c, as boundary c + 1 finds the slots. -/
def mirrorRecord (s : State) (c : Nat) (dirs : Tab Int) : List (List Byte) :=
  let l := (slotsOn s).filter (fun i => (slotSource s i).isSome && lb s (slotBase i) 31 && (slotGet s i).running)
  if l.isEmpty then [] else mirrorParts (l.map (mirrorEntry s c dirs)) []

/-- Send the MIRROR record of cycle c. -/
def mirrorSend (c : Nat) (parts : List (List Byte)) (s : State) : State :=
  foldS parts.zipIdx (fun e t => pairSend 5 (stateRest 1 e.2 (min 16 parts.length) c 0 0) e.1 (ftNow t) t) s

/-- One entry arrives at the kind 5 slots that name the owner's slot (R348).
[DEDUCED, unsafe: log entry 89] -/
def mirrorIn (c : Nat) (e : MirrorEntry) (s : State) : State :=
  let l := (slotsOn s).filter (fun i => slotKind s i == 5 && lf s (slotBase i + 4) 0 12 == e.slot.val && lb s (slotBase i) 31)
  foldS l (fun i t =>
    let sp := slotS t i
    let rows := (List.range sp).map (fun j => (List.range e.nch).map (fun ch => (getAt 0 e.samples (j * e.nch + ch)).toInt))
    let t1 := if e.conceal then t else arriveCycle i (c + slotL t i) sp e.nch rows 0 0 t
    if e.slip = 0 then t1
    else
      let x := slotGet t1 i
      let y := ringSlip (e.slip == 1) ((t1.grat.cycle + 1) * sp) x.v x
      -- after a skip the top position holds the frame taken in addition, which the record does not carry
      let top := (c + slotL t1 i) * sp + sp - 1
      let free := (List.range (slotNch t1 i)).map (fun ch => sgn 32 (draw .slipFill (i * 64 + ch) t1))
      let y1 := if e.slip = 1 && !e.conceal then ringPut top free y else y
      slotErr i 24 16 (slotPut i y1 t1)) s

/-- MIRROR (R348).
[DESIGN CHOICE, safe: log entry 20] [DEDUCED, unsafe: log entry 89] -/
def mirrorFx (c : Nat) (entries : List MirrorEntry) (s : State) : State :=
  if pairEn s && s.pair.link then foldS entries (mirrorIn c) s else s

/-! ### The shared sense stream (R349) -/

/-- SENSE (R349). -/
def senseFx (c : Nat) (rows : List SenseIn) (s : State) : State :=
  if streamRemote s then
    { s with out.senseStr := tset [] s.out.senseStr c
              (rows.map (fun r => { ch := r.ch.val, v := r.v.map (fun w => w.toInt), i := r.i.map (fun w => w.toInt) })) }
  else s

/-- TRIP_RECORD (R247, R349). -/
def tripRecordFx (c mask : Nat) (s : State) : State :=
  if streamRemote s then
    squallCount (bitsOf 32 mask) { s with out.tripStr := tset 0 s.out.tripStr c (tget 0 s.out.tripStr c ||| mask) }
  else s

/-- TRIP with the windward's TRIP record in the window after it (R245, R349). -/
def tripPairFx (n : Nat) (src : TripSrc) (lenNs : Nat) (s : State) : State :=
  let t := tripFx n src lenNs s
  let c := tripCycle s
  if tget 0 t.out.tripLoc c != tget 0 s.out.tripLoc c && pairEn s && s.pair.role = 1 then
    stateSend 3 c (2 ^ n * 2 ^ 32) 0 [] (windowAfter t (ftNow t)) t
  else t

/-- The windward's SENSE record of cycle c (R347, R349). -/
def senseSend (c : Nat) (s : State) : State :=
  let rows := tget [] s.out.senseLoc c
  let asc := (List.range 32).filterMap (fun n => rows.find? (fun r => r.ch == n))
  let word (l : List Int) : List Byte := (List.range 4).flatMap (fun j => beBytes 4 (unsgn 32 (getAt 0 l j)))
  stateSend 2 c 0 (maskOf (asc.map (fun r => r.ch))) (asc.flatMap (fun r => word r.v ++ word r.i)) (ftNow s) s

/-! ### Resync (R360 to R363) -/

/-- The transfer and log areas: base bus address and size in bytes. -/
def poolArea (s : State) (a : Nat) : Nat × Nat := (0x10000000 + lf s a 16 15 * 1024, lf s a 0 12 * 1024)

/-- The persistent regions in cluster and region order: base and length in bytes (R223). -/
def psRegions (s : State) : List (Nat × Nat) :=
  (List.range 4).flatMap (fun c => (List.range 8).filterMap (fun r =>
    let n := lf s (clBase c + 0x204 + r * 8) 0 14 * 256
    if n = 0 then none else some (lvn s (clBase c + 0x200 + r * 8), n)))

def psTotal (s : State) : Nat := (psRegions s).foldl (fun a r => a + r.2) 0

/-- Copy the regions into the transfer area, or back. -/
def psCopy (out : Bool) (s : State) : State :=
  ((psRegions s).foldl (fun (a : State × Nat) r =>
    let x := (poolArea s (pairB + 0xC)).1 + a.2
    (if out then mStores x (mBytes a.1 r.1 r.2) a.1 else mStores r.1 (mBytes a.1 x r.2) a.1, a.2 + r.2)) (s, 0)).1

/-- Granules of one cluster's regions. -/
def psGranules (s : State) (c : Nat) : Nat := (List.range 8).foldl (fun a r => a + lf s (clBase c + 0x204 + r * 8) 0 14) 0

/-- PSNAP_START at boundary s of a windward: values as they stand at the release of cycle s (R223). -/
def psnapStart (s : State) : State :=
  let s1 := psCopy true s
  let s2 := foldS (List.range 4) (fun c t =>
    let n := psGranules t c
    if n = 0 then t else clPut c { clGet t c with psnap := some n } t) s1
  { s2 with pair.xferLen := psTotal s2 }

/-- PSNAP_DONE (R223). -/
def psnapDoneFx (c stalls : Nat) (s : State) : State :=
  match (clGet s c).psnap with
  | some _ =>
    let a := clBase c + 0x28
    srvUp (21 + c) 6 stalls <| clEvent c 6 (clPut c { clGet s c with psnap := none } (setLv a (wd (min (2 ^ 32 - 1) (lvn s a + stalls))) s))
  | none => s

/-- RESYNC_REQ (R360 step 2): s is the first boundary at least 8 cycles after receipt. -/
def resyncReqFx (s : State) : State :=
  if pairEn s && s.pair.link && s.pair.role = 1 then
    let k := cycleOfFt s (ftNow s + ceilDiv (8 * secU) (famF s) - 1) + 1
    stateSend 5 k 0 0 [] (ftNow s) { s with pair.step := 4, pair.rphase := 2, pair.snapS := k }
  else s

/-- RESYNC_GO (R360 step 3). -/
def resyncGoFx (cyc : Nat) (s : State) : State :=
  if pairEn s && s.pair.link && s.pair.role = 2 && s.pair.rphase = 1 then
    { s with pair.rphase := 2, pair.snapS := cyc, pair.log := [], pair.logBytes := 0, pair.caught := [] }
  else s

/-- XFER_SENT (R360 steps 4 and 5): the transfer area leaves as bulk frames of 2,048 bytes, then RESYNC_DONE.
[DESIGN CHOICE, unsafe: log entry 90] -/
def xferSentFx (s : State) : State :=
  let busy := (List.range 4).any (fun c => (clGet s c).psnap.isSome)
  if pairEn s && s.pair.role = 1 && s.pair.rphase = 2 && s.pair.snapS ≤ s.grat.cycle && !busy then
    let base := (poolArea s (pairB + 0xC)).1
    let n := s.pair.xferLen
    let segs := List.range (ceilDiv n 2048)
    let s1 := srvUp 15 4 n <| foldS segs (fun i t =>
      let l := mBytes t (base + i * 2048) (min 2048 (n - i * 2048))
      let h : Eorel := { kind := 6, last := i + 1 == segs.length }
      txOwn 3 2 { bytes := eorelFrame t (linkDa t 3) h (beBytes 4 t.pair.snapS ++ beBytes 4 (i * 2048) ++ List.replicate 16 0) l,
                  due := ftNow t } t) s
    stepSyncing (stateSend 6 s1.pair.snapS (crc64 (mBytes s1 base n)) n [] (ftNow s1) { s1 with pair.rphase := 0 })
  else s

/-- A bulk segment of the partner's transfer arrives (R293, R360).
[DESIGN CHOICE, unsafe: log entry 90] -/
def bulkIn (off : Nat) (l : List Byte) (s : State) : State :=
  let x := poolArea s (pairB + 0xC)
  if off + l.length ≤ x.2 then mStores (x.1 + off) l s else s

/-- RESYNC_DONE (R360 step 6): the buffer is checked.
[DESIGN CHOICE, unsafe: log entry 90] -/
def resyncDoneFx (count crc : Nat) (blk : BlockSnap) (s : State) : State :=
  if pairEn s && s.pair.role = 2 && s.pair.rphase = 2 then
    let base := (poolArea s (pairB + 0xC)).1
    if count = psTotal s && crc64 (mBytes s base count) = crc then { s with pair.ready := some blk } else resyncFail s
  else s

/-- Bytes that one logged cycle takes (R362). -/
def logCost (s : State) : Nat :=
  1024 + (List.range 4).foldl (fun a c =>
    if (clGet s c).running then
      (((streamsLive s c).filter (fun e => !seOut e)).foldl (fun b e => b + seCount e * spc s * 4) a)
    else a) 0

/-- The leeward's log of boundary k (R362): the buses that IN entries deliver, and the stream records.
[DESIGN CHOICE, unsafe: log entry 90] -/
def resyncLog (k : Nat) (s : State) : State :=
  if s.pair.role = 2 && 2 ≤ s.pair.rphase && s.pair.snapS ≤ k then
    let n := s.pair.logBytes + logCost s
    if (poolArea s (pairB + 0x10)).2 < n then resyncFail s
    else
      { s with pair.logBytes := n,
               pair.log := s.pair.log ++ [{ k := k, buses := s.mix.buses, trips := tripsFor s k, sense := (senseFor k s).1 }] }
  else s

/-- The restored OUT channels and silence groups (R361).
[DESIGN CHOICE, unsafe: log entry 90] -/
def blockRestore (a : Nat) (b : BlockSnap) (s : State) : State :=
  let s1 := foldS b.chans (fun c t =>
    let x := outGet t c.ch.val
    let w := softW t
    let on := c.st.val == 3 || c.st.val == 4 || c.st.val == 7 || c.st.val == 8
    let y := { x with st := c.st.val, since := c.since, retry := c.retry.val, diagOk := c.diagOk, t1 := c.t1, t2 := c.t2,
                      thGain := c.thGain.toNat, exGain := c.exGain.toNat,
                      c := if c.st.val = 3 then { n0 := 0, n1 := 1, start := c.since, len := w * spc t }
                        else constRamp (b2n on),
                      g := if c.st.val = 3 then { n0 := 0, n1 := 1, start := c.since, len := w * spc t }
                        else constRamp (b2n (c.st.val == 4)) }
    let base := outBase c.ch.val
    foldS ((([0x50, 0x58, 0x80, 0x84] : List Nat).zip c.rh)) (fun e u => setLv (base + e.1) (wd e.2.toNat) u)
      (outPut c.ch.val y t)) s
  let s2 := foldS s1.pair.log (fun l t =>
    if l.k < a then
      outStep l.k { t with out.tripStr := tset 0 t.out.tripStr (l.k - 1) l.trips }
    else t) s1
  foldS b.grps (fun g t =>
    let own := grpGet t g.1.val
    if own.hold < a - t.pair.snapS then t
    else grpPut g.1.val { st := g.2.1.val, hold := min (grpHoldLen t g.1.val) (g.2.2 + (a - t.pair.snapS)) } t) s2

/-- RESYNC_RESTORE at boundary a (R360 step 6). -/
def resyncRestore (a : Nat) (s : State) : State :=
  match s.pair.ready with
  | some b =>
    if s.pair.rphase = 2 then blockRestore a b (psCopy false { s with pair.rphase := 3, pair.ready := none }) else s
  | none => s

/-- Are the leeward's clusters held for a restore or in catch-up? -/
def catching (s : State) : Bool := s.pair.role == 2 && (s.pair.rphase == 3 || s.pair.rphase == 4)

/-- RESTORE_COMPLETE (R362). -/
def restoreDoneFx (s : State) : State :=
  if s.pair.role = 2 && s.pair.rphase = 3 then { s with pair.rphase := 4, pair.caught := [] } else s

/-- Logged cycles that cluster c has not run. -/
def catchLeft (s : State) (c : Nat) : Nat := s.pair.log.length - tget 0 s.pair.caught c

/-- Has every enabled core of cluster c reached WAIT_CYCLE? -/
def allWaiting (s : State) (c : Nat) : Bool := (coresOn s c).all (fun j => (coreGet s (c * 8 + j)).st != 2)

/-- CORE_RELEASE, with the releases of catch-up, which take their data from the log (R199, R362). -/
def releaseFxAll (c : Nat) (s : State) : State :=
  if s.pair.role = 2 && s.pair.rphase = 3 then s
  else if s.pair.role = 2 && s.pair.rphase = 4 then
    match s.pair.log[tget 0 s.pair.caught c]? with
    | some l =>
      if (clGet s c).running && allWaiting s c then
        let keep := s.mix.buses
        let s1 := { s with mix.buses := l.buses }
        let s2 := foldS ((streamsLive s1 c).filter (fun e => !seOut e)) (fun e t => streamIn c e t) s1
        let s3 := { s2 with mix.buses := keep, pair.caught := tset 0 s2.pair.caught c (tget 0 s2.pair.caught c + 1) }
        coreReleaseFx c (clPut c { clGet s3 c with inRes := true } s3)
      else s
    | none => s
  else coreReleaseFx c s

/-- CORE_BUDGET_EXPIRY; in catch-up it also fails the resync (R363). -/
def budgetFxAll (k : Nat) (s : State) : State :=
  let t := budgetExpiryFx k s
  if catching s && coreBusyRun s k then resyncFail t else t

/-- Catch-up ends at the first boundary at which the last logged cycle has been run (R362). -/
def catchEnd (s : State) : State :=
  if s.pair.role = 2 && s.pair.rphase = 4 &&
      (List.range 4).all (fun c => !(clGet s c).running || (catchLeft s c == 0 && allWaiting s c)) then
    pairRaise 0x0F12 0 (pairEvent 7 (stepSyncing { s with pair.rphase := 0, pair.log := [], pair.logBytes := 0, pair.caught := [] }))
  else s

/-- RESYNC_RETRY (R363). -/
def resyncRetryFx (s : State) : State :=
  match s.pair.retryAt with
  | some c =>
    if pairEn s && s.pair.role = 2 && s.pair.step = 3 && lb s (pairB + 0x20) 2 && c ≤ s.grat.cycle then resyncStart s else s
  | none => s

/-! ### Commands by commit, and the boundary (R354, R360, R364) -/

def swbRefuse (s : State) : State := pairRaise 0x0F26 1 (pairEvent 9 { s with pair.swb := none, pair.swbAck := false })

/-- PAIR.CMD of a commit in which it was written. -/
def pairCommand (s : State) : State :=
  if !pairEn s then s
  else
    let cmd := lvn s (pairB + 0x30)
    let s1 := if nbit cmd 0 && s.pair.role = 2 && s.pair.step = 3 then resyncStart s else s
    if nbit cmd 1 && s1.pair.role = 1 then
      let w := lvn s1 (pairB + 0x34) + lvn s1 (pairB + 0x38) * 2 ^ 32
      if s1.pair.step != 2 || !s1.pair.link || w < s1.grat.cycle + 4 then swbRefuse s1
      else leaseSend 4 w { s1 with pair.swb := some w, pair.swbAck := false }
    else s1

/-- SWITCHBACK_RELEASE at boundary k (R364). -/
def switchback (k : Nat) (s : State) : State :=
  match s.pair.swb with
  | some w =>
    if k + 1 = w && !s.pair.swbAck then swbRefuse s
    else if w ≤ k then
      if s.pair.swbAck then pairRaise 0x0F13 0 (toRole 2 { dropOwn s with pair.bar := false }) else swbRefuse s
    else s
  | none => s

/-- The pair controller at boundary k, ahead of the samples. -/
def pairBoundary (k : Nat) (s : State) : State :=
  if !pairEn s then s
  else
    let s1 := switchback k s
    let s2 := if s1.pair.claimDue && !s1.pair.peer && !s1.flt.safe then claimNow s1 else s1
    digestDecide k s2

/-- What the pair controller sends in cycle k (R346). -/
def pairFrames (k : Nat) (parts : List (List Byte)) (s : State) : State :=
  if !pairEn s then s
  else
    let s1 := if s.pair.role = 1 then srvUp 15 3 1 (leaseSend 1 k s) else s
    let s2 := mirrorSend (k - 1) parts (digestSend k s1)
    if s2.pair.role = 1 then senseSend (k - 1) s2 else s2

/-- The node safe state at the pair controller (R454, R351, R357). -/
def pairSafe (s : State) : State :=
  if !pairEn s then s
  else
    let s1 := if s.pair.own then relinquishSend (dropOwn s) else s
    let s2 := toRole 2 s1
    if s2.pair.step = 3 then s2 else outOfStep false s2

/-- Read-only words of PAIR (R365, R366).
[DEDUCED, unsafe: log entry 88] -/
def pairView (s : State) (o : Nat) : Option Word :=
  let x := s.pair
  let dig := x.digRec.getD (0, 0, 0)
  let role := if paired s && x.role = 0 then 3 else x.role
  let step := if role = 3 || role = 0 then 0 else x.step
  match o with
  | 0x40 => some (wd (bitAt 31 x.own + bitAt 30 x.peer + bitAt 29 x.link + bitAt 28 x.svbPath + bitAt 27 x.acked
      + bitAt 26 x.bar + bitAt 25 (paired s && txCopies s) + bitAt 24 x.swb.isSome + role * 256 + step))
  | 0x4C => some (wd x.matchN)
  | 0x54 =>
    let left := (List.range 4).foldl (fun a c => if (clGet s c).running then max a (catchLeft s c) else a) 0
    some (wd (bitAt 31 (x.rphase != 0) + x.rphase * 2 ^ 24 + min 65535 left))
  | 0x58 => some (wd x.snapS)
  | 0x5C => some (wd (x.snapS / 2 ^ 32))
  | 0x60 => some (wd dig.1)
  | 0x64 => some (wd (dig.1 / 2 ^ 32))
  | 0x68 => some (wd dig.2.1)
  | 0x6C => some (wd (dig.2.1 / 2 ^ 32))
  | 0x70 => some (wd dig.2.2)
  | 0x74 => some (wd (dig.2.2 / 2 ^ 32))
  | _ => none

/-- The read of PAIR.CNT frees the record of the first mismatch (R365). -/
def pairCntRead (s : State) : State := { s with pair.digRec := none }

end Sys2Proof.Machine
end

