-- ==== Sys2Proof/Machine/Receive.lean ====
section
/-! DEFINITION. Received frames: classification and the blocks they reach (R288, R295, R347, R375). -/

namespace Sys2Proof.Machine

/-! ### The pair controller's frames (R347) -/

/-- Entries of a MIRROR payload; `sp` samples per channel. -/
def mirrorParse (sp : Nat) : Nat → List Byte → List MirrorEntry
  | 0, _ => []
  | fuel + 1, l =>
    let h := fN l 0 4
    let nch := h % 128
    let n := nch * sp
    if nch = 0 || l.length < 4 + 4 * n then []
    else
      { slot := Fin.ofNat 512 (nfld h 16 9), conceal := nbit h 31, slip := Fin.ofNat 3 (nfld h 29 2), nch := nch,
        samples := (List.range n).map (fun j => wd (fN l (4 + 4 * j) 4)) } :: mirrorParse sp fuel (l.drop (4 + 4 * n))

/-- Rows of a SENSE payload for the channels of a mask. -/
def senseParse (mask : Nat) (l : List Byte) : List SenseIn :=
  ((bitsOf 32 mask).zipIdx).map (fun e =>
    { ch := Fin.ofNat 32 e.1, v := (List.range 4).map (fun j => wd (fN l (e.2 * 32 + 4 * j) 4)),
      i := (List.range 4).map (fun j => wd (fN l (e.2 * 32 + 16 + 4 * j) 4)) })

/-- A LEASE frame. -/
def pairLeaseIn (o : Nat) (l : List Byte) (svb : Bool) (s : State) : State :=
  let m : LeaseMsg := { cyc := BitVec.ofNat 48 (fN l (o + 10) 6), uid := BitVec.ofNat 64 (fN l (o + 16) 8), svb := svb }
  match fB l (o + 8) with
  | 1 => leaseRenewFx m s
  | 2 => leaseAckFx m s
  | 3 => relinquishFx m s
  | 4 => handoverFx m s
  | 5 => handoverAckFx m s
  | 6 => claimedFx m s
  | _ => s

/-- A STATE frame. RESYNC_DONE acts by its own command, which carries the block state. -/
def pairStateIn (o : Nat) (l : List Byte) (s : State) : State :=
  let c := extPcyc s (fN l (o + 10) 6)
  let arg := fN l (o + 16) 8
  let pay := l.drop (o + 32)
  match fB l (o + 8) with
  | 1 => mirrorFx c (mirrorParse (spc s) 64 pay) s
  | 2 => senseFx c (senseParse (fN l (o + 24) 4) pay) s
  | 3 => tripRecordFx c (arg / 2 ^ 32) s
  | 4 => resyncReqFx s
  | 5 => resyncGoFx c s
  | 7 => formFx (arg / 2 ^ 48) (nfld arg 32 2) (nbit arg 31) (nbit arg 30) s
  | _ => s

/-- A frame of kind 3, 4 or 5 on port p. -/
def pairIn (p o : Nat) (l : List Byte) (s : State) : State :=
  if !paired s || p != 3 then s
  else match eKind l o with
    | 3 => pairLeaseIn o l false s
    | 4 => digestFx (extPcyc s (fN l (o + 10) 6)) (fN l (o + 16) 8) (fN l (o + 24) 4) s
    | _ => pairStateIn o l s

/-! ### Fabric ports -/

/-- An Eorel frame that has passed the header checks. -/
def rxEorel (p o : Nat) (l : List Byte) (fcsOk : Bool) (s : State) : State :=
  let k := eKind l o
  if k = 0 then rxAudioFrame p o l fcsOk s
  else if !fcsOk then s
  else if k = 1 then helloFx p l s
  else if k = 2 then rxDeliver p 1 none l s
  else if k ≤ 5 then pairIn p o l s
  else if p = 3 && s.pair.role = 2 && s.pair.rphase = 2 then
    bulkIn (fN l (o + 12) 4) ((l.drop (o + 32)).take (psTotal s - fN l (o + 12) 4)) s
  else rxBestEffort p l s

/-- MAC control frames: PAUSE is consumed, others are dropped, PFC is counted (R295, R302). -/
def rxMacCtl (p : Nat) (l : List Byte) (s : State) : State :=
  match fN l (fOff l) 2 with
  | 1 => pauseRx p (fN l (fOff l + 2) 2) s
  | 0x101 => prtCnt p 13 s
  | _ => s

/-- RX_FRAME (R289, R294, R295).
[DESIGN CHOICE, unsafe: log entry 75] [DEDUCED, unsafe: log entry 76] -/
def rxFrameFx (p : Nat) (l : List Byte) (fcsOk : Bool) (s : State) : State :=
  if !(prtGet s p).up || !domOn s 2 || lb s 0x40000118 6 then s
  else
    let s0 := srvUp (8 + p) 0 1 (srvUp (8 + p) 1 (l.length + 4) (prtCnt p 0 s))
    if 2176 < l.length + 4 then
      -- its head was forwarded before its length was known; the egress ports end it as an error
      let s1 := prtEvent p 4 (prtCnt p 3 s0)
      let o := fOff l
      if fType l = swxType s1 then
        (if !eorelOk l o then hdrError p o l s1
         else if eKind l o = 0 then rxAudioFrame p o l false s1
         else s1)
      else if (ptpOff l).isNone && isUdp4 l then
        (match flowMatch67 s1 (ipDst l) (udpDport l) p with
         | some x => rxRtp p x l false s1
         | none => s1)
      else s1
    else
      let s1 := whenS (!fcsOk) (prtCnt p 1) s0
      let ty := fType l
      if ty = 0x8808 then (if fcsOk then rxMacCtl p l s1 else s1)
      else if ty = swxType s1 then
        let o := fOff l
        if eorelOk l o then pairSync (rxEorel p o l fcsOk s1) else hdrError p o l s1
      else match ptpOff l with
        | some o => if fcsOk then rxPtp p o l s1 else s1
        | none =>
          match (if isUdp4 l then flowMatch67 s1 (ipDst l) (udpDport l) p else none) with
          | some x => rxRtp p x l fcsOk s1
          | none => if fcsOk then rxBestEffort p l s1 else s1

/-- HELLO_RECEIVED (R320). -/
def helloRxFx (p : Nat) (l : List Byte) (s : State) : State := pairSync (helloFx p l s)

/-- ADJACENCY_DEAD (R320). -/
def adjacencyDeadFx (p : Nat) (s : State) : State := pairSync (adjDeadFx p s)

/-- LINK_DOWN, with what it brings to the adjacency and the pair (R288, R320, R344). -/
def linkDownFx (p : Nat) (s : State) : State :=
  let up := (prtGet s p).up || (prtGet s p).upDue
  if up then pairSync (adjDown p (linkDrop p s)) else s

/-! ### The service bus -/

/-- SVB_RX_FRAME (R368, R375).
[DESIGN CHOICE, unsafe: log entry 75] -/
def svbRxFx (l : List Byte) (fcsOk reversed : Bool) (s0 : State) : State :=
  let s := svbDone s0
  if !svbEn s then s
  else
    let s1 := svbRxCount fcsOk reversed s
    let o := fOff l
    if !fcsOk then s1
    else if fType l = swxType s1 && eKind l o = 3 && eVer l o = 1 then
      (if paired s1 then pairSync (pairLeaseIn o l true s1) else s1)
    else svbDeliver l s1

end Sys2Proof.Machine
end

