-- ==== Sys2Proof/Machine/Settle.lean ====
section
/-! DEFINITION. The fault manager: placement of faults, the Zephyr log, the node safe state, the watchdog
(R442 to R455). Every command ends with `settle`, which places the faults it detected. -/

namespace Sys2Proof.Machine

def fltB : Nat := 0x40010000
def zepB : Nat := 0x40200000
def fltEvent (i : Nat) (s : State) : State := evOr (fltB + 4) (2 ^ i) s
def slotRec (s : State) (c : Nat) : Option FaultRec := tget none s.flt.slots c
def setSlot (c : Nat) (r : Option FaultRec) (s : State) : State := { s with flt.slots := tset none s.flt.slots c r }

/-- The class of the current record: the highest occupied slot (R443). -/
def curClass (s : State) : Option Nat := [3, 2, 1, 0].find? (fun c => (slotRec s c).isSome)

/-- The words of a record (R442). -/
def recWords (r : FaultRec) : List Word :=
  [wd (r.code * 65536 + r.rep * 4096 + r.cls * 256 + r.inst % 256), r.arg, wd r.cycle,
   wd (min 65535 r.ns * 65536 + r.cycle / 2 ^ 32 % 65536)]

/-- Are two faults merged (R445)? -/
def sameFault (a b : FaultRec) : Bool := a.code == b.code && a.cls == b.cls && a.inst == b.inst
def merged (r : FaultRec) : FaultRec := { r with rep := min 15 (r.rep + 1) }

/-- Service order of the queue: class, then arrival (R444). -/
def queueIns (r : FaultRec) : List FaultRec → List FaultRec
  | [] => [r]
  | x :: t => if x.cls < r.cls then r :: x :: t else x :: queueIns r t

/-- A fault of class c is dropped (R448). -/
def faultDrop (c : Nat) (s : State) : State :=
  let s1 := ctrUp (fltB + 0x10) (8 * c) (if c = 3 then 7 else 8) (evOr (fltB + 0x10) 0x80000000 s)
  srvUp 1 5 1 (fltEvent 1 s1)

/-- The newest non-FATAL entry of the queue.
[DEDUCED, unsafe: log entry 104] -/
def newestLow (q : List FaultRec) : Option FaultRec :=
  (q.filter (fun x => x.cls < 3)).foldl (fun a x =>
    match a with
    | none => some x
    | some y => if y.seq < x.seq then some x else some y) none

/-- Join the queue, or find it full (R444, R448). -/
def queueJoin (r0 : FaultRec) (s0 : State) : State :=
  let r := { r0 with seq := s0.flt.arrivals }
  let s := { s0 with flt.arrivals := s0.flt.arrivals + 1 }
  if s.flt.queue.length < 16 then { s with flt.queue := queueIns r s.flt.queue }
  else if r.cls = 3 then
    match newestLow s.flt.queue with
    | some x => faultDrop x.cls { s with flt.queue := queueIns r (s.flt.queue.filter (fun y => y.seq != x.seq)) }
    | none => faultDrop 3 s
  else faultDrop r.cls s

/-- The node enters its safe state (R454).
[DEDUCED, unsafe: log entry 105] -/
def enterSafe (s : State) : State :=
  if s.flt.safe then s else pairSafe (fltEvent 2 { s with flt.safe := true })

/-- Take slot c and become current. -/
def takeSlot (r : FaultRec) (s : State) : State := fltEvent 0 (setSlot r.cls (some r) s)

/-- Placement of one fault (R444, R445, R448). -/
def placeFault (r : FaultRec) (s : State) : State :=
  match s.flt.slots.find? (fun e => (e.2.map (sameFault r)).getD false) with
  | some e => srvUp 1 4 1 (setSlot e.1 (e.2.map merged) s)
  | none =>
    if s.flt.queue.any (sameFault r) then
      srvUp 1 4 1 { s with flt.queue := s.flt.queue.map (fun x => if sameFault r x then merged x else x) }
    else
      match curClass s with
      | none => takeSlot r s
      | some c => if c < r.cls then takeSlot r s else queueJoin r s

/-- The Zephyr log takes a fault at or above LOG_CLASS (R451). -/
def zephyrLog (r : FaultRec) (s : State) : State :=
  if lf s (zepB + 0x14) 0 2 ≤ r.cls then
    srvUp 32 1 1 { s with flt.zlog := tset none s.flt.zlog s.flt.zNext (some r), flt.zNext := (s.flt.zNext + 1) % 32,
                          flt.zCount := min 32 (s.flt.zCount + 1), flt.zValid := true }
  else s

/-- HOST.ATN.FAULT (R389). -/
def hostFault (r : FaultRec) (s : State) : State := whenS (lf s 0x40040010 8 2 ≤ r.cls) (evOr 0x4004000C 1) s

/-- One detected fault: logged, placed, and acted on when FATAL. -/
def takeFault (r : FaultRec) (s : State) : State :=
  let s1 := placeFault r (hostFault r (zephyrLog r (srvUp 1 r.cls 1 s)))
  if r.cls = 3 then enterSafe s1 else s1

/-- The order of faults of one clock (R447). -/
def faultBefore (a b : FaultRec) : Bool :=
  b.cls < a.cls || (a.cls == b.cls && (a.code < b.code || (a.code == b.code && a.inst < b.inst)))

/-- MARK: [DEDUCED, unsafe: log entry 104] -/
def faultIns (r : FaultRec) : List FaultRec → List FaultRec
  | [] => [r]
  | x :: t => if faultBefore r x then r :: x :: t else x :: faultIns r t

/-- Place what has been detected; entering the safe state may detect more.
[DEDUCED, unsafe: log entry 104] -/
def settleRun : Nat → State → State
  | 0, s => s
  | n + 1, s =>
    if s.flt.fresh.isEmpty then s
    else settleRun n (foldS (s.flt.fresh.foldl (fun l r => faultIns r l) []) takeFault { s with flt.fresh := [] })

/-- The end of every command: its faults are placed, and the next command draws fresh free values. -/
def settle (s : State) : State :=
  let t := settleRun 3 s
  { t with free := t.free + 1 }

/-- What a command answers: its effect with its faults placed, and the queue as it was.
[DESIGN CHOICE, unsafe: log entry 1] [DEDUCED, safe: log entry 110] -/
def finish (s t : State) : Host.Outcome State Fault Refusal := .next { settle t with pending := s.pending }

/-- FLT.ACK (R446). -/
def faultAck (s : State) : State :=
  match curClass s with
  | none => s
  | some c =>
    let s1 := setSlot c none s
    match curClass s1, s1.flt.queue with
    | some cs, q :: rest =>
      if q.cls ≤ cs then fltEvent 0 s1 else takeSlot q { s1 with flt.queue := rest }
    | some _, [] => fltEvent 0 s1
    | none, q :: rest => takeSlot q { s1 with flt.queue := rest }
    | none, [] => s1

/-- FLT.RAISE by policy firmware (R449). -/
def raiseWr (v : Nat) (s : State) : State :=
  raise (v / 65536) (nfld v 8 2) (v % 256) (lvn s (fltB + 0x34)) (setLv (fltB + 0x30) (wd (v &&& 0xFFFF03FF)) s)

/-! ### The watchdog (R450) -/

def wdogPeriod (s : State) : Nat := lf s (fltB + 0x40) 0 16

/-- The count starts from zero: WDOG written, a kick, or a warm reset. -/
def wdogStart (s : State) : State := { s with flt.wdogOn := wdogPeriod s != 0, flt.wdogAt := s.time.lc }

def watchdogFx (s0 : State) : State :=
  if s0.flt.wdogOn then
    let s := atLc (s0.flt.wdogAt + wdogPeriod s0 * 500000) s0
    raise 0x0110 3 255 0 { s with flt.wdogOn := false }
  else s0

/-- ZEP.FLOG_CLR (R451). -/
def flogClear (s : State) : State := { s with flt.zlog := [], flt.zNext := 0, flt.zCount := 0 }

/-! ### Registers (R467) -/

/-- Word w of a record, 0 for none. -/
def recWord (r : Option FaultRec) (w : Nat) : Word :=
  match r with
  | some x => getAt 0 (recWords x) w
  | none => 0

/-- A record register at an offset of FLT or ZEP, with its word. -/
def recAt (s : State) (a : Nat) : Option (Option FaultRec × Nat) :=
  let o := offOf a
  let w := o % 16 / 4
  if winOf a = 1 then
    if 0x20 ≤ o && o < 0x30 then some ((curClass s).bind (slotRec s), w)
    else if 0x100 ≤ o && o < 0x140 then some (slotRec s ((o - 0x100) / 16), w)
    else if 0x200 ≤ o && o < 0x300 then some (s.flt.queue[(o - 0x200) / 16]?, w)
    else none
  else if winOf a = 32 && 0x400 ≤ o && o < 0x600 then some (tget none s.flt.zlog ((o - 0x400) / 16), w)
  else none

/-- FLT.STAT and ZEP.FLOG_STAT. -/
def fltView (s : State) (o : Nat) : Option Word :=
  if o = 0 then
    let slots := maskOf ([0, 1, 2, 3].filter (fun c => (slotRec s c).isSome))
    some (wd (bitAt 31 s.flt.safe + s.flt.queue.length * 2 ^ 24 + slots * 2 ^ 16 + (curClass s).getD 0 * 256
      + b2n (curClass s).isSome))
  else none

/-- MARK: [PRESUMED, unsafe: log entry 109] -/
def zepView (s : State) (o : Nat) : Option Word :=
  if o = 0x10 then some (wd (bitAt 31 s.flt.zValid + s.flt.zNext * 256 + s.flt.zCount)) else none

end Sys2Proof.Machine
end

