-- ==== Sys2Proof/Machine/Power.lean ====
section
/-! DEFINITION. Power domains, the Gust limiter, droop, sleep and throttling (R395 to R413). -/

namespace Sys2Proof.Machine

def pwrB : Nat := 0x401D0000
def domReg (d : Nat) : Nat := pwrB + 0x100 + d * 0x10
def pwrEvent (i : Nat) (s : State) : State := evOr (pwrB + 4) (2 ^ i) s

/-- The wake priority (R405), and the place of a domain in it. -/
def wakeOrder : List Nat := [1, 2, 3, 4, 8, 0, 6, 7, 9, 10, 11, 12, 13, 5, 14]
def wakeRank (d : Nat) : Nat := wakeOrder.findIdx (fun x => x == d)

/-- Power-up time in LC ticks from a level (R399). -/
def upTicks (d frm : Nat) : Nat :=
  if d = 5 then 30000 else if frm = 2 then 1000 else if frm = 1 then 30000 else 100000

/-- Time of a lowering in LC ticks (R402). -/
def downTicks (goal : Nat) : Nat := if goal = 2 then 500 else if goal = 1 then 2500 else 5000

/-- The level a domain is at, or left when its transition began. -/
def domLevel (s : State) (d : Nat) : Nat := if (domGet s d).st ≤ 3 then (domGet s d).st else (domGet s d).held

/-! ### Contents of a domain that goes OFF (R398, R400) -/

/-- Does a register word keep its value while its domain is OFF: the RK and W1 copies of the hub? -/
def keptOff (a : Nat) : Bool :=
  match rowOf a with
  | some r => r.acc == .rk || r.acc == .w1
  | none => false

/-- The words chosen by `p` go to their reset values, RK and W1 apart, and their shadows with them. -/
def wordsReset (p : Nat → Bool) (s : State) : State :=
  { s with hub.live := tkeep (fun a => !p a || keptOff a) s.hub.live,
           hub.shadow := tkeep (fun a => !p a) s.hub.shadow,
           hub.dirty := s.hub.dirty.filter (fun a => !p a),
           hub.pend := tkeep (fun a => !p a) s.hub.pend,
           hub.liveBad := s.hub.liveBad.filter (fun a => !p a || keptOff a),
           hub.shadowBad := s.hub.shadowBad.filter (fun a => !p a),
           hub.badFound := s.hub.badFound.filter (fun a => !p a) }

/-- The words of the listed windows, and their safe actions. -/
def winsReset (wins : List Nat) (s : State) : State :=
  let t := wordsReset (fun a => isReg a && wins.contains (winOf a)) s
  { t with hub.safeUnits := t.hub.safeUnits.filter (fun u => !wins.contains (u / 256)) }

/-- The memories of a domain return to their reset contents.
[DESIGN CHOICE, unsafe: log entry 49] -/
def memsReset (d : Nat) (s : State) : State :=
  let inD := fun a => memDom s a == some d
  { s with mem := s.mem.filter (fun e => !inD e.1),
           eccBad := s.eccBad.filter (fun a => !inD a),
           hub.arr := tkeep (fun a => !inD a) s.hub.arr,
           hub.arrDirty := s.hub.arrDirty.filter (fun a => !inD a) }

/-- The logic of a domain's blocks at its reset values. -/
def logicReset (d : Nat) (s : State) : State :=
  if d = 2 then
    { s with swx.dup := [], swx.flow := [], gaz.adj := [], gaz.flood := [],
             pair := { peer := s.pair.peer, peerAt := s.pair.peerAt } }
  else if d = 3 || d = 4 then
    { s with swx.port := tkeep (fun p => p / 2 + 3 != d) s.swx.port,
             time.txf := tkeep (fun p => p / 2 + 3 != d) s.time.txf,
             time.txDrop := tkeep (fun p => p / 2 + 3 != d) s.time.txDrop }
  else if d = 5 then svbReset s
  else if d = 6 then { s with mix := {}, sil := {} }
  else if d = 7 then { s with eqs := {}, str := {} }
  else if 9 ≤ d && d ≤ 12 then
    { s with core := tkeep (fun k => k / 8 + 9 != d || k = 32) s.core, cl := tkeep (fun c => c + 9 != d) s.cl,
             sil.gated := s.sil.gated.filter (fun c => c + 9 != d) }
  else if d = 13 then { s with ser := {} }
  else if d = 14 then { s with out := {} }
  else s

/-- A domain loses its contents, its Survey counters with them (R400, R469).
[DEDUCED, unsafe: log entry 96] -/
def domLose (d : Nat) (s : State) : State :=
  let t := logicReset d (memsReset d (winsReset (domWins d) s))
  { t with srv.ctr := tkeep (fun i => !(domWins d).contains (i / 8)) t.srv.ctr,
           srv.core := tkeep (fun i => !(9 ≤ d && d ≤ 12 && i / 64 + 9 == d && i < 256)) t.srv.core }

/-! ### Transitions -/

/-- Join the admission queue in priority order (R405).
[DEDUCED, unsafe: log entry 96] -/
def queueAdd (d : Nat) : List Nat → List Nat
  | [] => [d]
  | x :: t => if wakeRank d < wakeRank x then d :: x :: t else x :: queueAdd d t

/-- Begin a lowering; `after` is the LC at which earlier lowerings of the same commit end (R402).
[DEDUCED, unsafe: log entry 96] -/
def domLower (d goal after : Nat) (s : State) : State :=
  domPut d { domGet s d with st := 6, held := domLevel s d, goal := goal, next := none,
                             endLc := max s.time.lc after + downTicks goal } s

/-- A TARGET takes effect; lowerings begin no earlier than `after`. -/
def domTarget (d goal after : Nat) (s : State) : State :=
  let x := domGet s d
  if x.st = 5 || x.st = 6 then domPut d { x with next := some goal } s
  else if x.st = 4 then
    if goal ≤ x.held then
      let s1 := domPut d { x with st := x.held } { s with pwr.queue := dropFrom d s.pwr.queue }
      if goal < x.held then domLower d goal after s1 else s1
    else domPut d { x with goal := goal, reqLc := s.time.lc } s
  else if x.st < goal then
    domPut d { x with st := 4, held := x.st, goal := goal, reqLc := s.time.lc, next := none }
      { s with pwr.queue := queueAdd d s.pwr.queue }
  else if goal < x.st then domLower d goal after s
  else s

/-- TARGETs committed together: raises join the queue, lowerings follow each other in reverse priority (R402). -/
def domTargets (l : List (Nat × Nat)) (s : State) : State :=
  (wakeOrder.reverse.filterMap (fun d => l.find? (fun e => e.1 == d))).foldl
    (fun a e =>
      let t := domTarget e.1 e.2 a.1 a.2
      (if (domGet t e.1).st = 6 then max a.1 (domGet t e.1).endLc else a.1, t)) (0, s) |>.2

/-- The declared ramp current of a domain. -/
def domRamp (s : State) (d : Nat) : Nat := lf s (domReg d + 4) 0 12
/-- MARK: [DESIGN CHOICE, unsafe: log entry 5] -/
def rampBudget (s : State) : Nat := lf s (pwrB + 0x20) 0 16

/-- Ramp current of the domains in progress (R404). -/
def rampUsed (s : State) : Nat :=
  s.pwr.dom.foldl (fun a e => if e.2.st = 5 then a + e.2.ramp else a) 0

/-- Admit the head of the queue while it fits (R404).
[DEDUCED, unsafe: log entry 96] -/
def gustRun : Nat → State → State
  | 0, s => s
  | n + 1, s =>
    match s.pwr.queue with
    | [] => s
    | d :: rest =>
      let r := domRamp s d
      let used := rampUsed s
      let fits := decide (used + r ≤ rampBudget s)
      let big := decide (rampBudget s < r) && used == 0
      if fits || big then
        let x := domGet s d
        let w := min 65535 ((s.time.lc - x.reqLc) / 500)
        let s1 := domPut d { x with st := 5, ramp := r, endLc := s.time.lc + upTicks d x.held } { s with pwr.queue := rest }
        let mx := max (lf s (domReg d + 0xC) 0 16) w
        let s2 := setLv (domReg d + 0xC) (wd (w * 65536 + mx)) s1
        let s3 := srvUp 29 1 w (srvUp 29 0 1 s2)
        gustRun n (whenS (big && !fits) (raise 0x1D11 1 255 0) s3)
      else s

/-- GUST_ADMIT: the evaluation on the next whole microsecond. -/
def gustAdmitFx (s0 : State) : State :=
  let s := atLc (ceilDiv s0.time.lc 500 * 500) s0
  let s1 := if s.pwr.paused then s else gustRun 15 s
  whenS (!s1.pwr.queue.isEmpty) (pwrEvent 1) s1

/-- The TARGET kept for the end of a transition, applied (R402). -/
def domFollow (d : Nat) (next : Option Nat) (s : State) : State :=
  match next with
  | some t => domTarget d t 0 s
  | none => s

/-- DOMAIN_UP: the first clock of a domain in progress.
[DESIGN CHOICE, unsafe: log entry 49] [DEDUCED, unsafe: log entry 96] -/
def domainUpFx (d : Nat) (s0 : State) : State :=
  let x := domGet s0 d
  if x.st = 5 then
    let s := atLc x.endLc s0
    domFollow d x.next (domPut d { x with st := x.goal, held := x.goal, next := none, ramp := 0,
                                          cold := x.cold || x.held == 0 } s)
  else s0

/-- DOMAIN_DOWN: a lowering completes. -/
def domainDownFx (d : Nat) (s0 : State) : State :=
  let x := domGet s0 d
  if x.st = 6 then
    let s := atLc x.endLc s0
    let s1 := domPut d { x with st := x.goal, held := x.goal, next := none } s
    domFollow d x.next (if x.goal = 0 then domLose d (domPut d { domGet s1 d with cold := false } s1) else s1)
  else s0

/-- The first commit of a group that holds a window of a domain clears COLD (R400). -/
def coldClear (g : Nat) (s : State) : State :=
  foldS (List.range 15) (fun d t =>
    whenS ((domGet t d).cold && (domWins d).any (fun b => grpOf t b == g)) (domPut d { domGet t d with cold := false }) t) s

/-- Does a delay line run? -/
def lineRuns (s : State) : Bool := (linesLive s).any (fun l => lb s (lineBase l) 31 || (lineGet s l).running)

/-- Is a channel in a state other than OFF, LATCHED_OFF, DC_FAULT or SAFE? -/
def outInUse (s : State) : Bool := (List.range 32).any (fun n => !([0, 9, 10, 12].contains (outGet s n).st))

/-- Why TARGET below ON is refused (R401). -/
def domInUse (s : State) (d : Nat) : Bool :=
  if d = 0 || d = 1 then true
  else if d = 2 then (List.range 4).any (prtEn s)
  else if d = 3 then prtEn s 0 || prtEn s 1
  else if d = 4 then prtEn s 2 || prtEn s 3
  else if d = 5 then lb s 0x400E0000 31
  else if d = 6 then (slotsLive s).any (fun i => (lb s (slotBase i) 31 && slotKind s i != 0) || (slotGet s i).running)
    || (List.range 32).any (fun g => lb s (grpBase g) 31)
  else if d = 7 then (chainsLive s).any (fun c => lb s (chainBase c) 31 || (chainGet s c).running) || lineRuns s
  else if d = 8 then lineRuns s || s.pair.rphase != 0
  else if d ≤ 12 then lb s (clBase (d - 9)) 31
  else if d = 13 then
    (List.range 8).any (fun n => (tdmGet s n).running || (tdmGet s n).wait) || (List.range 4).any (fun r => (rxGet s r).running)
      || (List.range 4).any (fun t => (txGet s t).running || (txGet s t).wait)
  else outInUse s

/-! ### Supply -/

/-- VSYS is below 92 % of its boot value (R406). -/
def droopLow (s : State) (v : Nat) : Bool := v * 100 < 92 * s.pwr.vsysBoot

/-- PWR.VSYS and VSYS_MIN take a reading (R395). -/
def vsysRead (v : Nat) (s : State) : State :=
  setLv (pwrB + 0x18) (wd (min (lf s (pwrB + 0x18) 0 16) (min 65535 v))) { s with pwr.vsys := v }

def droopFx (v : Nat) (s0 : State) : State :=
  let s := vsysRead v s0
  if droopLow s v then
    srvUp 29 2 (b2n (!s.pwr.paused)) (pwrEvent 0 { s with pwr.paused := true, pwr.okSince := some s.time.lc })
  else s

/-- DROOP_RECOVERY: 100 µs since the last reading below the level.
[DEDUCED, unsafe: log entry 97] -/
def droopOverFx (v : Nat) (s0 : State) : State :=
  let s := vsysRead v s0
  if s.pwr.paused && !droopLow s v then
    let t := atLc (s.pwr.okSince.getD s.time.lc + 50000) s
    { t with pwr.paused := false, pwr.okSince := none }
  else s

/-- RAMP_BUDGET from the declared supply (R403): the budget and whether it is at its minimum. -/
def budgetOf (supply vboot : Nat) : Nat × Bool :=
  let b := supply - ceilDiv 13500000 (max 1 vboot)
  if supply = 0 || b < 250 then (250, true) else (b, false)

/-- Compute the budget and report a low one. -/
def budgetSet (s : State) : State :=
  let r := budgetOf (lf s (pwrB + 0x1C) 0 16) s.pwr.vsysBoot
  let s1 := setLv (pwrB + 0x20) (wd (min 65535 r.1)) { s with pwr.budgetLow := r.2 }
  whenS r.2 (fun t => raise 0x1D10 1 255 0 (pwrEvent 3 t)) s1

/-! ### Sleep (R407 to R409) -/

/-- The states of a channel that R401 allows for lowering OUT. -/
def sleepRefused (s : State) (v : Nat) : Bool :=
  v == 3 || outInUse s || lb s (pairB + 0x20) 31
    || (v == 1 && lf s (domReg 8) 4 2 == 1 && lineRuns s)

/-- A write of PWR.SLEEP. -/
def sleepStrobe (v : Nat) (s : State) : State :=
  let v := v % 4
  if v = 0 then s
  else if sleepRefused s v then pwrEvent 4 s
  else { s with pwr.sleepReq := v }

def listenPort (s : State) : Nat := lf s (pwrB + 0x34) 4 2

/-- Entry into a requested sleep at a boundary.
[DEDUCED, unsafe: log entry 97] -/
def sleepEnter (s : State) : State :=
  if s.pwr.sleepReq = 0 then s
  else
    let v := s.pwr.sleepReq
    let lp := listenPort s
    let ports := (List.range 4).filter (fun p => v = 2 || p != lp)
    let s1 := foldS ports (fun p t => if (prtGet t p).up then linkDownFx p t else t) s
    let s2 := whenS (v = 1) enterHoldover s1
    let lows := (List.range 15).filterMap (fun d =>
      if v = 2 then (if d ≤ 1 then none else some (d, 0))
      else if d ≤ 1 || d = 3 + lp / 2 then none else some (d, min (lf s (domReg d) 4 2) (domLevel s d)))
    let s3 := domTargets lows s2
    let last := s3.pwr.dom.foldl (fun a e => if e.2.st = 6 then max a e.2.endLc else a) s3.time.lc
    let s4 := if v = 2 then domTarget 1 0 last s3 else s3
    let last4 := s4.pwr.dom.foldl (fun a e => if e.2.st = 6 then max a e.2.endLc else a) last
    let s5 := domTarget 0 (if v = 2 then 0 else 1) last4 s4
    { s5 with pwr.sleep := v, pwr.sleepReq := 0, pwr.sleepLc := s.time.lc,
              pwr.wakeCfg := lvn s (pwrB + 0x34), pwr.alarm := lvn s (pwrB + 0x40) }

/-- A wake event of a node in LISTEN: the cause is held, and SUP rises. -/
def wakeListen (cause : Nat) (s : State) : State :=
  domTarget 0 3 0 { s with pwr.sleep := 0, pwr.wakeSrc := cause }

/-- Is a wake source enabled?
[DEDUCED, unsafe: log entry 97] -/
def wakeOn (s : State) (i : Nat) : Bool := nbit s.pwr.wakeCfg i

/-- The addresses a wake frame may carry (R408). -/
def wakeDa (s : State) (da : Nat) : Bool :=
  da == swxMac s || (lb s (pwrB + 0x3C) 31 && da == lvn s (pwrB + 0x38) + lf s (pwrB + 0x3C) 0 16 * 2 ^ 32)

def wakeFrameFx (p : Nat) (l : List Byte) (fcsOk : Bool) (s : State) : State :=
  if s.pwr.sleep = 1 && p == listenPort s && (prtGet s p).up && fcsOk && wakeOn s 3 && fType l == swxType s && wakeDa s (fDa l) then
    srvUp 32 0 1 (wakeListen 8 s)
  else s

/-! ### Temperature (R411) -/

def thBase (s : State) : Nat := lf s (pwrB + 0x2C) 0 2

/-- A new clock step, in force from the next boundary. -/
def stepTo (n : Nat) (s : State) : State :=
  if n = s.pwr.nextStep then s else pwrEvent 2 { s with pwr.nextStep := n, pwr.stepLc := s.time.lc }

/-- THERMAL_SAMPLE: the reading of the next whole millisecond. -/
def thermalSampleFx (temp : Int) (s0 : State) : State :=
  let s := atLc ((s0.time.lc / 500000 + 1) * 500000) s0
  let s1 := { s with pwr.temp := temp,
                     pwr.hotSince := if 1550 ≤ temp then (s.pwr.hotSince.orElse (fun _ => some s.time.lc)) else none,
                     pwr.hot150 := decide (1500 ≤ temp),
                     pwr.throttled := s.pwr.throttled && decide (thBase s < s.pwr.nextStep) }
  let s2 := srvUp 29 3 (b2n (decide (thBase s < s.pwr.step))) s1
  if 1500 ≤ temp then
    let s3 := whenS (!s.pwr.hot150) (raise 0x1D13 2 255 0) s2
    stepTo 3 s3
  else s2

/-- THROTTLE_STEP: one step down after 10 ms, or up after 100 ms.
[DEDUCED, unsafe: log entry 97] -/
def throttleFx (s0 : State) : State :=
  let n := s0.pwr.nextStep
  if 1400 ≤ s0.pwr.temp && n < 3 then
    let s := atLc (s0.pwr.stepLc + 5000000) s0
    let s1 := whenS (!s.pwr.throttled) (raise 0x1D12 1 255 0) s
    stepTo (n + 1) { s1 with pwr.throttled := true }
  else if s0.pwr.temp ≤ 1350 && thBase s0 < n then
    stepTo (n - 1) (atLc (s0.pwr.stepLc + 50000000) s0)
  else s0

/-- THERMAL_FATAL. -/
def thermalFatalFx (s0 : State) : State :=
  match s0.pwr.hotSince with
  | some t => raise 0x1D14 3 255 0 { atLc (t + 500000) s0 with pwr.hotSince := none }
  | none => s0

/-- A committed BASE holds the step at or above it.
[DEDUCED, unsafe: log entry 97] -/
def baseCommit (s : State) : State := if s.pwr.nextStep < thBase s then stepTo (thBase s) s else s

/-- The step a change has set takes effect at a boundary. -/
def stepBoundary (s : State) : State := { s with pwr.step := s.pwr.nextStep }

/-- The RO words of PWR. -/
def pwrView (s : State) (o : Nat) : Option Word :=
  if o = 0 then
    some (wd (bitAt 31 s.pwr.paused + bitAt 30 s.pwr.budgetLow + min 15 s.pwr.queue.length * 2 ^ 24 + s.pwr.step * 2 ^ 16))
  else if o = 0x10 then some (wd (s.pwr.vsysBoot % 65536))
  else if o = 0x14 then some (wd (s.pwr.vsys % 65536))
  else if o = 0x24 then some (wd (rampUsed s % 65536))
  else if o = 0x28 then some (wd (unsgn 16 s.pwr.temp))
  else if o = 0x44 then some (wd s.pwr.wakeSrc)
  else if 0x100 ≤ o && o < 0x1F0 && o % 0x10 = 8 then
    let d := (o - 0x100) / 0x10
    let x := domGet s d
    some (wd (bitAt 9 (9 ≤ d && d ≤ 12 && s.sil.gated.contains (d - 9)) + bitAt 8 x.cold + x.st))
  else none

end Sys2Proof.Machine
end

