-- ==== Sys2Proof/Machine/Resets.lean ====
section
/-! DEFINITION. Per-function reset (R456 to R460, with R110, R226, R256, R268, R283, R288, R377, R392).
Functions are numbered 0-31 for FRST0, 32-63 for FRST1, 64-74 for FRST2. -/

namespace Sys2Proof.Machine

/-- The domain of a function (R460). -/
def fnDom (fn : Nat) : Nat :=
  if fn < 32 then 9 + fn / 8
  else if fn < 36 then 9 + (fn - 32)
  else if fn < 40 then 3 + (fn - 36) / 2
  else if fn < 56 then 13
  else if fn < 60 then 14
  else getAt 0 [6, 7, 7, 6, 6, 1, 2, 2, 5, 0, 0] (fn - 64)

/-- Is there such a function? -/
def fnOk (fn : Nat) : Bool := fn < 60 || (64 ≤ fn && fn < 75)

/-- Does the function's own register block hold the word (R31, R460)? -/
def fnHas (fn a : Nat) : Bool :=
  let w := winOf a
  let o := offOf a % 0x8000
  isReg a &&
    (if fn < 32 then w == 21 + fn / 8 && 0x800 + fn % 8 * 0x40 ≤ o && o < 0x840 + fn % 8 * 0x40
     else if fn < 36 then w == 21 + (fn - 32)
     else if fn < 40 then w == 8 + (fn - 36)
     else if fn < 48 then w == 25 && o / 0x1000 == fn - 40
     else if fn < 56 then w == 26 && o / 0x100 == fn - 48
     else if fn < 60 then
       (w == 27 && o / 0x2000 == fn - 56 && !(0x300 ≤ o && o < 0x400))
         || (w == 28 && 0x100 ≤ o && (o - 0x100) / 0x100 == fn - 56)
     else w == getAt 99 [17, 18, 19, 16, 20, 5, 12, 13, 14, 4, 30] (fn - 64))

/-- SYS.FRST_STAT bit of a function. -/
def fnStat (fn : Nat) : Nat := 0x40000110 + fn / 32 * 4
def fnBusy (s : State) (fn : Nat) : Bool := lb s (fnStat fn) (fn % 32)

/-- Is a register word of a function in reset: accesses to it are held (R457)? -/
def fnHolds (s : State) (a : Nat) : Bool := s.frst.jobs.any (fun j => fnHas j.fn a)

/-- The key of a master's read latch and holding register (R50, R51): one per cluster for cores and stream DMA. -/
def latchKey (m : Master) : Nat :=
  match m with
  | .dma c => 5 + c.val
  | m => masterId m

/-- Clear the latches and holding registers of a function's masters. -/
def latchClear (key : Nat) (s : State) : State :=
  { s with hub.latch := tkeep (fun k => k != key) s.hub.latch, hub.hold := tkeep (fun k => k != key) s.hub.hold }

def fnLatch (fn : Nat) : Nat :=
  if fn < 32 then 5 + fn / 8 else if fn < 36 then 5 + (fn - 32) else if fn = 73 then 10 else if fn = 74 then 12 else 9

/-- A core in reset does nothing more; its posted stores and its load are discarded (R458). -/
def coreOff (k : Nat) (s : State) : State :=
  corePut k { coreAbandon (coreGet s k) with st := 4, posted := [], load := none, restart := false } s

/-- Every queued frame of every port is discarded (R460, SWX). -/
def queuesDrop (s : State) : State :=
  foldS (List.range 4) (fun p t => prtPut p { prtGet t p with q := [[], [], []], wait := [] } t) s

/-- Step 1: the outside effects that the reset stops.
[DEDUCED, unsafe: log entry 103] -/
def frstBegin (fn : Nat) (s : State) : State :=
  if fn < 32 then coreOff fn s
  else if fn < 36 then foldS (List.range 8) (fun j t => coreOff ((fn - 32) * 8 + j) t) s
  else if fn < 40 then linkDownFx (fn - 36) s
  else if fn < 48 then tdmHalt (fn - 40) s
  else if fn < 52 then s
  else if fn < 56 then txPut (fn - 52) {} s
  else if fn < 60 then outGroupGatesOff (fn - 56) s
  else if fn = 64 then mtxReset s.grat.cycle s
  else if fn = 70 then queuesDrop s
  else s

/-- FUNCTION_RESET of one function: ignored while it runs or while the domain is below ON (R456, R459).
[DEDUCED, unsafe: log entry 103] -/
def frstStart (fn : Nat) (s : State) : State :=
  if !fnOk fn || fnBusy s fn || !domOn s (fnDom fn) then s
  else
    let job : FrstJob := { fn := fn, defaults := lb s 0x4000011C 0, start := s.grat.cycle }
    frstBegin fn (evOr (fnStat fn) (2 ^ (fn % 32)) { s with frst.jobs := s.frst.jobs ++ [job] })

/-- A write of SYS.FRST0 to FRST2. -/
def frstStrobe (r v : Nat) (s : State) : State := foldS (bitsOf 32 v) (fun i t => frstStart (32 * r + i) t) s

/-- The DEFAULTS reload of a function: its words, and the state that follows them (R456).
[DEDUCED, unsafe: log entry 103] -/
def frstDefaults (fn : Nat) (s0 : State) : State :=
  let s := wordsReset (fnHas fn) s0
  if 56 ≤ fn && fn < 60 then
    let m := 0xFF * 2 ^ (8 * (fn - 56))
    let clr := fun (w : Word) => w &&& ~~~(wd m)
    { setLv 0x401C0000 (clr (lv s 0x401C0000)) s with
        hub.shadow := tabSet resetOf s.hub.shadow 0x401C0000 (clr (shv s 0x401C0000)) }
  else if fn = 64 then { s with mix.outMute := [], mix.egr := [] }
  else if fn = 65 then { s with eqs.chain := [] }
  else if fn = 66 then { s with str.line := [] }
  else if fn = 67 then { s with mix.slot := [] }
  else if fn = 68 then { s with sil.grp := [] }
  else if 36 ≤ fn && fn < 40 then prtPut (fn - 36) {} s
  else if fn = 73 then
    let ad := lv s0 0x40040000
    if bit ad 30 then setLv 0x40040000 ad s else { s with host.enumOut := false, host.rise := false }
  else s

/-- HOST is reset: a transaction in progress ends (R392). -/
def hostReset (s : State) : State :=
  { s with host.phase := 3, host.form := 0, host.todo := [], host.resp := [], host.who := none, host.rise := false }

/-- Survey counters are cleared and the freeze released (R478). -/
def srvReset (s : State) : State := { s with srv.ctr := [], srv.core := [], srv.frozen := false }

/-- The logic of a function at its reset values (step 3). -/
def frstLogic (fn : Nat) (s : State) : State :=
  if fn < 32 then coreReset fn s
  else if fn < 36 then
    let c := fn - 32
    let s1 := clusterReset c s
    let s2 := { s1 with frst.jobs := s1.frst.jobs.filter (fun j => !(j.fn < 32 && j.fn / 8 == c)) }
    let s3 := lvClr 0x40000110 (0xFF * 2 ^ (8 * c)) s2
    if (clGet s c).psnap.isSome then resyncFail s3 else s3
  else if fn < 40 then s
  else if fn < 48 then tdmHalt (fn - 40) s
  else if fn < 52 then rxReset (fn - 48) s
  else if fn < 56 then txPut (fn - 52) {} s
  else if fn < 60 then outGroupReset s.grat.cycle (fn - 56) s
  else if fn = 64 then mtxReset s.grat.cycle s
  else if fn = 65 then { s with eqs.hist := [], eqs.hPrev := [], eqs.out := [] }
  else if fn = 66 then { s with str.out := [] }
  else if fn = 67 then ingReset s
  else if fn = 68 then silReset s
  else if fn = 69 then cmpRestart s
  else if fn = 70 then { queuesDrop s with swx.dup := [] }
  else if fn = 71 then
    foldS (List.range 4) (fun p t =>
      setLv (adjBase p + 0x14) 0 (setLv (adjBase p + 0x18) 0 (setLv (adjBase p + 0x1C) 0 t))) { s with gaz.flood := [] }
  else if fn = 72 then svbReset s
  else if fn = 73 then hostReset s
  else if fn = 74 then srvReset s
  else s

/-- The units of SYS.BLK.SAFE a function's reset ends (R55, R459). -/
def fnUnits (fn : Nat) : List Nat :=
  if fn < 32 then []
  else if fn < 36 then [(21 + (fn - 32)) * 256 + 255]
  else if fn < 40 then [(8 + (fn - 36)) * 256 + 255]
  else if fn < 48 then [25 * 256 + (fn - 40)]
  else if fn < 56 then [26 * 256 + (fn - 48)]
  else if fn < 60 then (List.range 16).map (fun i => (27 + i / 8) * 256 + (fn - 56) * 8 + i % 8)
  else [getAt 99 [17, 18, 19, 16, 20, 5, 12, 13, 14, 4, 30] (fn - 64) * 256 + 255]

/-- FUNCTION_RESET_DRAIN_END: steps 3 and 4 of R457. -/
def frstDrainEnd (fn : Nat) (s0 : State) : State :=
  match s0.frst.jobs.find? (fun j => j.fn == fn) with
  | none => s0
  | some j =>
    let s := latchClear (fnLatch fn) s0
    let s1 := if j.defaults then frstDefaults fn s else s
    let s2 := frstLogic fn s1
    let s3 := { s2 with frst.jobs := s2.frst.jobs.filter (fun x => x.fn != fn), frst.done := addTo fn s2.frst.done,
                        hub.safeUnits := s2.hub.safeUnits.filter (fun u => !(fnUnits fn).contains u) }
    lvClr (fnStat fn) (2 ^ (fn % 32)) s3

/-- Step 5 at boundary k: pending STOP fields of the function apply, and it resumes.
[DEDUCED, unsafe: log entry 103] -/
def frstResume (k : Nat) (s : State) : State :=
  foldS s.frst.done (fun fn t =>
    let t1 := foldS (t.hub.pend.map (fun e => e.1)) (fun a u => if fnHas fn a then pendApply a u else u) t
    if 40 ≤ fn && fn < 48 then tdmBoundary k true (fn - 40) t1
    else if 52 ≤ fn && fn < 56 then txBoundary k true (fn - 52) t1
    else if fn = 65 then eqsReset t1
    else if fn = 66 then strReset k t1
    else t1) { s with frst.done := [] }

end Sys2Proof.Machine
end

