-- ==== Sys2Proof/Machine/Limits.lean ====
section
/-! DEFINITION. The legal ranges that a commit is held to, as conditions over the words that would be live (R48, R509).
Each condition names its fields; a field is refused by the conditions that name it. -/

namespace Sys2Proof.Machine

/-- The words that would be live, by address. -/
abbrev View := Nat → Nat

/-- One legal range: the fields it binds, as word address and mask, and the test. -/
structure Cond where
  flds : List (Nat × Nat)
  ok   : View → Bool

/-- A field as address and mask. -/
def fm (a lo n : Nat) : Nat × Nat := (a, (2 ^ n - 1) <<< lo)

/-- A field of a view. -/
def vf (v : View) (a lo n : Nat) : Nat := nfld (v a) lo n

/-- One field between two bounds. -/
def rng (a lo n least most : Nat) : Cond :=
  { flds := [fm a lo n], ok := fun v => decide (least ≤ vf v a lo n) && decide (vf v a lo n ≤ most) }

/-- Ranges of single fields: offset, low bit, width, least and greatest value. -/
abbrev RangeRow := Nat × Nat × Nat × Nat × Nat

/-- The ranges of the rows at offset o of a block at base. -/
def rangesAt (base o : Nat) (l : List RangeRow) : List Cond :=
  (l.filter (fun r => r.1 == o)).map (fun r => rng (base + o) r.2.1 r.2.2.1 r.2.2.2.1 r.2.2.2.2)

/-- Two half-open intervals are disjoint. -/
def apart (a n b m : Nat) : Bool := decide (a + n ≤ b) || decide (b + m ≤ a)

/-! ### Compass (R87, R112, R113) -/

def cmpRows : List RangeRow := [
  (0x00, 4, 2, 0, 2), (0x20, 0, 32, 1, 3600), (0x24, 0, 32, 1, 200000), (0x28, 0, 32, 1, 200000),
  (0x2C, 0, 32, 1, 3600), (0x30, 0, 32, 1, 200000), (0x34, 0, 32, 1, 100000), (0x38, 0, 32, 1, 1000000),
  (0x3C, 0, 32, 1, 3600), (0x40, 0, 32, 10, 1000), (0x44, 0, 32, 1, 1000000), (0x48, 0, 32, 10, 60000),
  (0x4C, 0, 32, 60, 3600), (0x54, 0, 32, 10, 3600), (0x58, 0, 32, 1, 1000000), (0x5C, 0, 32, 10, 100000),
  (0x60, 0, 32, 1, 255), (0x64, 0, 32, 10, 100000), (0x68, 0, 32, 10, 100000) ]

def cmpConds (o : Nat) : List Cond :=
  let b := 0x40050000
  if o < 0x200 then
    rangesAt b o cmpRows ++
      (if o = 0x28 || o = 0x30 then
        [{ flds := [fm (b + 0x28) 0 32, fm (b + 0x30) 0 32], ok := fun v => decide (v (b + 0x28) ≤ v (b + 0x30)) }]
       else [])
  else
    let c := b + o / 0x40 * 0x40
    if o % 0x40 = 0 then
      [rng c 8 4 0 4,
       { flds := [fm c 8 4, fm c 12 3], ok := fun v => vf v c 8 4 != 2 || decide (vf v c 12 3 ≤ 3) }]
    else if o % 0x40 = 4 then [rng (c + 4) 0 32 32000 192000]
    else if o % 0x40 = 8 then
      [{ flds := [fm (c + 8) 12 4],
         ok := fun v => let e := sgn 4 (vf v (c + 8) 12 4); decide (-7 ≤ e) && decide (e ≤ 1) },
       rng (c + 8) 0 8 0 127]
    else []

/-! ### Ingress (R117 to R129) -/

/-- AES67 packet time in cycles (R121).
[DEDUCED, unsafe: log entry 30] -/
def ptCy (p : Nat) : Nat := getAt 24 [3, 6, 8, 24] p

/-- Does the node mirror its local inputs to a partner, in a view of PAIR.CFG? -/
def mirrors (s : State) (v : View) : Bool := paired s && nbit (v 0x400F0020) 31

/-- The least L of a slot (R121). -/
def slotMinL (s : State) (v : View) (i : Nat) : Nat :=
  let b := slotBase i
  let base := match vf v b 0 3 with
    | 1 => 2
    | 2 => ptCy (vf v (b + 0x14) 0 2) + 1
    | 3 => if mirrors s v then 2 else 1
    | 4 => if mirrors s v then 2 else 1
    | 5 => 2
    | _ => 0
  if vf v b 0 3 = 0 then 0 else base + (if vf v b 8 3 = 0 then 0 else 1)

/-- Ring of a slot in 64-byte granules: its offset and length (R119). -/
def slotRing (s : State) (v : View) (i : Nat) : Nat × Nat :=
  (vf v (slotBase i + 0xC) 0 14, ceilDiv (vf v (slotBase i + 8) 16 7 * spc s * 4 * vf v (slotBase i + 0xC) 16 7) 64)

/-- The conditions of one slot. -/
def slotConds (s : State) (i : Nat) : List Cond :=
  let b := slotBase i
  let kind := fm b 0 3
  let ch := [fm (b + 8) 0 11, fm (b + 8) 16 7]
  let buf := [fm (b + 0xC) 0 14, fm (b + 0xC) 16 7, fm (b + 8) 16 7]
  [ rng b 0 3 0 5, rng b 8 3 0 4, rng b 4 2 0 2, rng b 24 7 0 64, rng (b + 8) 16 7 1 64, rng (b + 0xC) 16 7 1 64,
    { flds := [fm b 8 3], ok := fun v => [2, 4, 8].contains (convS (spc s) (vf v b 8 3)) },
    { flds := ch, ok := fun v => decide (vf v (b + 8) 0 11 + vf v (b + 8) 16 7 ≤ nIn s) },
    { flds := [kind, fm (b + 8) 27 5, fm (b + 8) 16 7],
      ok := fun v =>
        let n := vf v (b + 8) 27 5 + vf v (b + 8) 16 7
        (vf v b 0 3 != 3 || decide (n ≤ 32)) && (vf v b 0 3 != 4 || decide (n ≤ 2)) },
    { flds := [kind, fm b 24 7, fm b 8 3, fm (b + 0x14) 0 2, fm 0x400F0020 31 1],
      ok := fun v => decide (slotMinL s v i ≤ vf v b 24 7) },
    { flds := [fm b 24 7, fm (b + 0xC) 16 7], ok := fun v => decide (vf v b 24 7 ≤ vf v (b + 0xC) 16 7) },
    { flds := kind :: buf,
      ok := fun v => vf v b 0 3 == 0 || decide ((slotRing s v i).1 + (slotRing s v i).2 ≤ lf s 0x40100000 0 5 * 1024)
                     && lf s 0x40100000 0 5 != 0 } ]

/-- The conditions between two slots (R118, R119, R129). -/
def slotPair (s : State) (i j : Nat) : List Cond :=
  let a := slotBase i
  let b := slotBase j
  let both (v : View) : Bool := vf v a 0 3 != 0 && vf v b 0 3 != 0
  [ { flds := [fm a 0 3, fm b 0 3, fm (a + 8) 0 11, fm (a + 8) 16 7, fm (b + 8) 0 11, fm (b + 8) 16 7],
      ok := fun v => !both v || apart (vf v (a + 8) 0 11) (vf v (a + 8) 16 7) (vf v (b + 8) 0 11) (vf v (b + 8) 16 7) },
    { flds := [fm a 0 3, fm b 0 3, fm (a + 8) 16 7, fm (a + 0xC) 0 14, fm (a + 0xC) 16 7,
               fm (b + 8) 16 7, fm (b + 0xC) 0 14, fm (b + 0xC) 16 7],
      ok := fun v => !both v || apart (slotRing s v i).1 (slotRing s v i).2 (slotRing s v j).1 (slotRing s v j).2 },
    { flds := [fm a 0 3, fm b 0 3, fm a 16 6, fm b 16 6],
      ok := fun v => !both v || vf v a 16 6 == 0 || vf v a 16 6 != vf v b 16 6
                     || classF (vf v a 0 3) == classF (vf v b 0 3) } ]

/-! ### Matrix (R142, R146) -/

def mtxConds (s : State) (o : Nat) : List Cond :=
  let a := 0x40110000 + o
  if o = 0x10 then [rng a 0 32 1 4096]
  else if 0x4000 ≤ o then
    [ rng a 29 3 0 3, rng a 24 3 0 3,
      { flds := [fm a 29 3, fm a 0 11],
        ok := fun v =>
          match vf v a 29 3 with
          | 1 => decide (vf v a 0 11 ≤ 255)
          | 2 => decide (vf v a 0 11 ≤ 255)
          | 3 => decide (vf v a 0 11 < nIn s)
          | _ => true } ]
  else []

/-! ### EQ chains (R149, R155) -/

def chainConds (s : State) (c : Nat) : List Cond :=
  let b := chainBase c
  [ rng b 16 9 0 256, rng (b + 4) 29 3 0 2, rng (b + 4) 24 3 0 3,
    { flds := [fm b 0 15, fm b 16 9], ok := fun v => decide (vf v b 0 15 + vf v b 16 9 ≤ eqCap s) } ]

/-- MARK: [DEDUCED, unsafe: log entry 30] -/
def chainPair (c d : Nat) : List Cond :=
  let a := chainBase c
  let b := chainBase d
  let flds (x : Nat) : List (Nat × Nat) := [fm x 0 15, fm x 16 9, fm (x + 4) 29 3, fm (x + 4) 24 3, fm (x + 4) 0 8]
  [ { flds := flds a ++ flds b,
      ok := fun v => vf v (a + 4) 29 3 == 0 || vf v (b + 4) 29 3 == 0
        || apart (vf v a 0 15) (vf v a 16 9) (vf v b 0 15) (vf v b 16 9) } ]

/-! ### Delay lines (R156 to R164) -/

/-- D of a line in a view: INT and FRAC with LOOK, in 1/1024 sample. -/
def lineDV (s : State) (v : View) (l : Nat) : Nat :=
  nfld (v (lineTab l)) 0 28 + vf v (lineBase l) 16 8 * spc s * 1024

/-- SRC and BUF of a line: a failing condition keeps the whole of each (R160). -/
def lineSrc (b : Nat) : List (Nat × Nat) := [fm (b + 4) 29 3, fm (b + 4) 24 3, fm (b + 4) 0 8]
def lineBuf (b : Nat) : List (Nat × Nat) := [fm (b + 8) 16 15, fm (b + 8) 0 11]

/-- The conditions of one line at boundary k. `starts`: RUN = 1 is committed to a line that does not run. -/
def lineConds (s : State) (k l : Nat) (starts : Bool) : List Cond :=
  let b := lineBase l
  let t := lineTab l
  let delay := [fm t 10 18, fm t 0 10]
  let look := fm b 16 8
  let dLive := lineD s l / 1024
  let loose := starts || !(lineGet s l).running || lineMuted s l k
  let pool (a : Nat) (v : View) : Bool :=
    let p := poolArea s a
    apart (vf v (b + 8) 16 15) (vf v (b + 8) 0 11) (p.1 % 0x10000000 / 1024) (p.2 / 1024)
  [ rng b 16 8 0 (if famF s = 24000 then 240 else 220), rng (t + 4) 0 13 1 4096,
    rng (b + 4) 29 3 0 3, rng (b + 4) 24 3 0 3, rng (b + 8) 0 11 0 1025,
    { flds := look :: delay, ok := fun v => decide (lineDV s v l ≤ delayMax s * 1024) },
    { flds := look :: delay,
      ok := fun v => !(nfld (v t) 10 18 == 0 && nfld (v t) 0 10 != 0 && vf v b 16 8 == 0) },
    { flds := look :: delay, ok := fun v => loose || (lineDV s v l == 0) == (dLive == 0) },
    { flds := lineSrc b ++ lineBuf b, ok := fun v => vf v (b + 4) 29 3 == 0 || vf v (b + 8) 0 11 != 0 },
    { flds := lineBuf b,
      ok := fun v => decide (vf v (b + 8) 16 15 + vf v (b + 8) 0 11 ≤ 32768) },
    { flds := lineSrc b ++ lineBuf b ++ look :: delay,
      ok := fun v => vf v (b + 4) 29 3 == 0
        || decide (max dLive (lineDV s v l) / 1024 + spc s + 4 ≤ vf v (b + 8) 0 11 * 256) },
    { flds := lineSrc b ++ lineBuf b,
      ok := fun v => vf v (b + 4) 29 3 == 0 || (pool 0x400F000C v && pool 0x400F0010 v) } ]

/-- MARK: [DEDUCED, unsafe: log entry 30] -/
def linePair (l m : Nat) : List Cond :=
  let a := lineBase l
  let b := lineBase m
  [ { flds := lineSrc a ++ lineBuf a ++ lineSrc b ++ lineBuf b,
      ok := fun v => vf v (a + 4) 29 3 == 0 || vf v (b + 4) 29 3 == 0
        || apart (vf v (a + 8) 16 15) (vf v (a + 8) 0 11) (vf v (b + 8) 16 15) (vf v (b + 8) 0 11) } ]

/-! ### Clusters (R213, R214, R227) -/

/-- The words of one stream entry, as fields. -/
def streamFlds (a : Nat) : List (Nat × Nat) :=
  [fm a 31 1, fm a 30 1, fm a 24 3, fm a 20 2, fm a 0 16, fm (a + 4) 16 9, fm (a + 4) 0 8, fm (a + 8) 16 16, fm (a + 8) 0 16]

def streamAddr (c e : Nat) : Nat := clBase c + 0x2000 + e * 0x10

/-- The entry as a view has it. -/
def streamV (v : View) (c e : Nat) : StreamE :=
  { e := e, cfg := v (streamAddr c e), src := v (streamAddr c e + 4), str := v (streamAddr c e + 8) }

def seOn (x : StreamE) : Bool := nbit x.cfg 31

/-- Byte offsets of the samples of an entry. -/
def seSpan (sN : Nat) (x : StreamE) : List Nat :=
  (List.range (seCount x)).flatMap (fun i => (List.range sN).map (fun j => seByte x i j))

/-- Offset of the last byte. -/
def seLast (sN : Nat) (x : StreamE) : Nat := seAddr x + (seCount x - 1) * seC x + (sN - 1) * seS x + 3

def streamConds (s : State) (c e : Nat) : List Cond :=
  let a := streamAddr c e
  let on (p : StreamE → Bool) : View → Bool := fun v => !seOn (streamV v c e) || p (streamV v c e)
  [ rng a 20 2 0 2,
    { flds := [fm a 31 1, fm a 0 16, fm (a + 8) 16 16, fm (a + 8) 0 16],
      ok := on (fun x => seAddr x % 4 == 0 && seC x % 4 == 0 && seS x % 4 == 0) },
    { flds := [fm a 31 1, fm a 0 16, fm (a + 4) 16 9, fm (a + 8) 16 16, fm (a + 8) 0 16],
      ok := on (fun x => decide (seLast (spc s) x ≤ 0xFFFF)) },
    { flds := [fm a 31 1, fm (a + 4) 16 9, fm (a + 4) 0 8],
      ok := on (fun x => seCount x != 0 && decide (seFirst x + seCount x ≤ 256)) },
    { flds := streamFlds a,
      ok := on (fun x => seOut x || (seSpan (spc s) x).all (fun o =>
        (psRegions s).all (fun r => apart (seBus c x o) 4 r.1 r.2))) } ]

def streamPair (s : State) (c e d : Nat) : List Cond :=
  let a := streamAddr c e
  let b := streamAddr c d
  let mem (x : Nat) : List (Nat × Nat) := [fm x 31 1, fm x 30 1, fm x 24 3, fm x 20 2, fm x 0 16, fm (x + 4) 16 9, fm (x + 8) 16 16, fm (x + 8) 0 16]
  let egr (x : Nat) : List (Nat × Nat) := [fm x 31 1, fm x 30 1, fm (x + 4) 16 9, fm (x + 4) 0 8]
  [ { flds := mem a ++ mem b,
      ok := fun v =>
        let x := streamV v c e
        let y := streamV v c d
        !seOn x || !seOn y || seOut x || seOut y || seCore x != seCore y
          || vf v a 20 2 != vf v b 20 2
          || (seSpan (spc s) x).all (fun o => (seSpan (spc s) y).all (fun q => apart o 4 q 4)) },
    { flds := egr a ++ egr b,
      ok := fun v =>
        let x := streamV v c e
        let y := streamV v c d
        !seOn x || !seOn y || !seOut x || !seOut y || apart (seFirst x) (seCount x) (seFirst y) (seCount y) } ]

/-- RESERVE stays within its cap, over every entry. -/
def reserveCond (s : State) (c : Nat) (all : List Nat) : Cond :=
  { flds := fm (clBase c + 0x18) 0 16 :: all.flatMap (fun e =>
      let a := streamAddr c e
      [fm a 31 1, fm a 0 16, fm (a + 4) 16 9, fm (a + 8) 16 16, fm (a + 8) 0 16]),
    ok := fun v => decide (reserveOf (spc s) (streamsOf v c all) ≤ vf v (clBase c + 0x18) 0 16) }

/-! ### Output (R231 to R252, R257) -/

def outRows : List RangeRow := [
  (0x000, 16, 2, 0, 2), (0x000, 0, 6, 1, 63), (0x004, 16, 8, 1, 255), (0x004, 0, 8, 205, 253), (0x008, 16, 16, 0, 50000),
  (0x00C, 0, 16, 100, 20000), (0x010, 0, 10, 10, 500), (0x040, 0, 16, 500, 65535), (0x044, 0, 16, 1000, 10000),
  (0x048, 0, 16, 500, 3000), (0x050, 0, 16, 1, 65535), (0x054, 0, 16, 100, 65535), (0x058, 0, 16, 1, 65535),
  (0x05C, 0, 16, 10, 65535), (0x060, 16, 16, 100, 65535), (0x060, 0, 16, 1, 65535), (0x080, 0, 16, 1000, 50000),
  (0x084, 0, 16, 100, 10000), (0x088, 0, 16, 1, 65535), (0x08C, 0, 16, 100, 65535), (0x090, 0, 16, 1, 65535),
  (0x09C, 16, 8, 1, 90), (0x09C, 0, 5, 8, 24) ]

def outConds (s : State) (n o : Nat) : List Cond :=
  let b := outBase n
  rangesAt b o outRows ++
  (if o = 0 then
    [ { flds := [fm b 20 1], ok := fun v => vf v b 20 1 == 0 || lb s (b + 0x14) 0 },
      { flds := [fm b 31 1, fm 0x401C0000 n 1],
        ok := fun v => nbit (lvn s b) 31 || !nbit (v b) 31 ||
          (lf s (b + 0x14) 16 16 != 0 && lf s (0x401C0100 + n * 0x20) 0 16 != 0 && lf s (0x401C0100 + n * 0x20) 16 16 != 0
            && nbit (v 0x401C0000) n) } ]
   else if o = 8 then
    [ { flds := [fm (b + 8) 0 16, fm (b + 8) 16 16],
        ok := fun v => decide (10 ≤ vf v (b + 8) 0 16) && decide (vf v (b + 8) 0 16 < vf v (b + 8) 16 16) } ]
   else if o = 0x4C then
    [ { flds := [fm (b + 0x4C) 0 16],
        ok := fun v => let t := sgn 16 (vf v (b + 0x4C) 0 16); decide (-550 ≤ t) && decide (t ≤ 1250) } ]
   else [])

/-! ### Serial ports (R259, R264, R272) -/

def tdmConds (s : State) (n : Nat) : List Cond :=
  let b := tdmBase n
  let f := b + 4
  let flen (v : View) : Nat := 2 ^ vf v f 28 4
  let bits (v : View) : Nat := vf v f 16 6 * vf v f 8 6
  [ rng f 28 4 4 10, { flds := [fm f 28 4], ok := fun v => decide (flen v * spc s ≤ 2048) },
    rng f 16 6 1 32, { flds := [fm f 16 6, fm f 8 6, fm f 28 4], ok := fun v => decide (bits v ≤ flen v) },
    rng f 8 6 8 32, rng f 0 6 8 32, { flds := [fm f 0 6, fm f 8 6], ok := fun v => decide (vf v f 0 6 ≤ vf v f 8 6) },
    { flds := [fm f 0 6, fm b 6 1], ok := fun v => vf v b 6 1 == 0 || vf v f 0 6 == 32 },
    { flds := [fm f 22 6, fm f 28 4], ok := fun v => decide (vf v f 22 6 < flen v) },
    { flds := [fm f 22 6, fm f 16 6, fm f 8 6, fm f 28 4],
      ok := fun v => decide (4 * (vf v f 22 6 + bits v) ≤ 5 * flen v) },
    { flds := [fm (b + 0x10) 0 32],
      ok := fun v => decide ((sgn 32 (v (b + 0x10))).natAbs * 4 * (famF s * spc s) ≤ 1000000000000) },
    rng (b + 0x18) 0 3 1 7 ]

/-! ### Ports, switch core, Gazetteer, service bus, pair (R285, R303, R329, R341, R343, R369, R374) -/

def prtConds (p : Nat) : List Cond :=
  let b := prtBase p
  [ { flds := [fm b 4 1, fm b 0 2], ok := fun v => vf v b 4 1 == 0 || vf v b 0 2 == 3 },
    rng (b + 0x14) 16 16 0 120,
    { flds := [fm (b + 0x14) 16 16, fm (b + 0x14) 0 16], ok := fun v => decide (vf v (b + 0x14) 0 16 < vf v (b + 0x14) 16 16) },
    rng (b + 0x18) 0 10 10 999, rng (b + 0x1C) 0 16 1 60000 ]

/-- The masks of a port and class over the phases that a value of GRAT.SCHED selects. -/
def bankMasks (s : State) (sched p c : Nat) : List Nat :=
  (List.range (nfld sched 8 6)).map (fun h =>
    let a := 0x30700000 + p * 0x10000 + nfld sched 0 1 * 0x8000 + h * 0x20 + c * 8
    mWord s a + mWord s (a + 4) * 2 ^ 32)

/-- Scheduled and best-effort masks are disjoint (R73). -/
def bankOk (s : State) (sched : Nat) : Bool :=
  (List.range 4).all (fun p => ((bankMasks s sched p 0).zip (bankMasks s sched p 2)).all (fun e => e.1 &&& e.2 == 0))

/-- The gate conditions of the pair link (R343). -/
def pairBankOk (s : State) (sched : Nat) : Bool :=
  (bankMasks s sched 3 1).all (fun m => m == 2 ^ 64 - 1) && (bankMasks s sched 3 0).all (fun m => m == 0)

def gratB : Nat := 0x40070020

def pairCfg : Nat := 0x400F0020

/-- The conditions that EN = 1 of a pair binds. -/
def pairEnConds (s : State) : List Cond :=
  let en (v : View) : Bool := nbit (v pairCfg) 31
  [ { flds := [fm pairCfg 31 1, fm (prtBase 3) 0 2], ok := fun v => !en v || decide (2 ≤ vf v (prtBase 3) 0 2) },
    { flds := [fm pairCfg 31 1, fm gratB 0 1, fm gratB 8 6], ok := fun v => !en v || pairBankOk s (v gratB) } ]

/-- SVB_BACKUP against the service bus (R374). -/
def backupCond (s : State) : Cond :=
  { flds := [fm pairCfg 1 1, fm 0x400E0000 0 2, fm 0x400E0000 9 1],
    ok := fun v => vf v pairCfg 1 1 == 0
      || (vf v 0x400E0000 0 2 == 0 && vf v 0x400E0000 9 1 == 1 && lb s 0x400E0004 0) }

def pairRows : List RangeRow := [
  (0x24, 16, 8, 72, 240), (0x24, 8, 4, 1, 15), (0x24, 0, 8, 4, 64), (0x28, 16, 16, 64, 65535), (0x28, 0, 8, 1, 255),
  (0x2C, 0, 10, 40, 600) ]

def svbRows : List RangeRow := [
  (0x00, 0, 2, 0, 1), (0x08, 0, 7, 0, 100), (0x0C, 24, 8, 2, 255), (0x0C, 16, 8, 1, 255), (0x0C, 0, 8, 0, 254) ]

/-- The conditions of one flow-table entry in use.
[DEDUCED, unsafe: log entry 30] -/
def flowConds (x : Nat) : List Cond :=
  let a := flowAddr x
  let on (v : View) : Bool := nbit (v a) 31
  let valid := fm a 31 1
  let per (v : View) (p : Nat) : Nat := vf v (a + 8 + 4 * p) 24 8
  let pers := (List.range 4).map (fun p => fm (a + 8 + 4 * p) 24 8)
  let phases := (List.range 4).map (fun p => fm (a + 8 + 4 * p) 16 8)
  [ { flds := valid :: fm (a + 4) 28 4 :: pers,
      ok := fun v => !on v || vf v (a + 4) 28 4 == maskOf ((List.range 4).filter (fun p => per v p != 0)) },
    { flds := valid :: (pers ++ phases),
      ok := fun v => !on v || (List.range 4).all (fun p => per v p == 0 || decide (vf v (a + 8 + 4 * p) 16 8 < per v p)) },
    { flds := valid :: fm gratB 8 6 :: pers,
      ok := fun v => !on v || (List.range 4).all (fun p => per v p == 0 || vf v gratB 8 6 % per v p == 0) },
    { flds := [valid, fm (a + 4) 16 7], ok := fun v => !on v || (decide (2 ≤ vf v (a + 4) 16 7) && decide (vf v (a + 4) 16 7 ≤ 64)) },
    { flds := [valid, fm a 28 1, fm (a + 4) 8 7, fm (a + 4) 6 2, fm (a + 4) 0 5],
      ok := fun v => !on v || nbit (v a) 28
        || decide (vf v (a + 4) 8 7 * vf v (a + 4) 0 5 * fmtSize (vf v (a + 4) 6 2) ≤ 2126) },
    { flds := [valid, fm a 30 1, fm a 24 4], ok := fun v => !on v || !nbit (v a) 30 || vf v a 24 4 == 0 } ]

def flowPair (x y : Nat) : List Cond :=
  let a := flowAddr x
  let b := flowAddr y
  let same (v : View) : Bool := nbit (v a) 31 && nbit (v b) 31 && vf v a 0 20 == vf v b 0 20
  [ { flds := [fm a 31 1, fm b 31 1, fm a 0 20, fm b 0 20, fm a 24 4, fm b 24 4],
      ok := fun v => !same v || vf v a 24 4 &&& vf v b 24 4 == 0 },
    { flds := [fm a 31 1, fm b 31 1, fm a 0 20, fm b 0 20, fm a 30 1, fm b 30 1],
      ok := fun v => !same v || !(nbit (v a) 30 && nbit (v b) 30) } ]

/-! ### Silence, schedule, power -/

def silRow (a : Nat) : List Cond := [rng a 16 8 60 120, rng a 0 12 1 3600]

def gratConds (s : State) : List Cond :=
  [ rng gratB 8 6 1 48, { flds := [fm gratB 0 1, fm gratB 8 6], ok := fun v => bankOk s (v gratB) } ]

def pwrConds (s : State) (o : Nat) : List Cond :=
  if 0x100 ≤ o && o % 0x10 = 0 then
    let a := pwrB + o
    let d := (o - 0x100) / 0x10
    [ { flds := [fm a 0 2], ok := fun v => vf v a 0 2 == 3 || vf v a 0 2 == lf s a 0 2 || !domInUse s d }, rng a 4 2 0 1 ]
  else []

/-! ### The conditions that a set of words touches -/

/-- The units a list of addresses names. -/
def unitsOf (f : Nat → Option Nat) (l : List Nat) : List Nat :=
  l.foldl (fun u a => match f a with
    | some i => addTo i u
    | none => u) []

/-- Unit of an address inside an array of registers. -/
def unitIn (base top stride a : Nat) : Option Nat :=
  if base ≤ a && a < top then some ((a - base) / stride) else none

/-- Pairs of each touched unit with the other units. -/
def pairsOf (touched all : List Nat) (f : Nat → Nat → List Cond) : List Cond :=
  touched.flatMap (fun i => (all.filter (fun j => j != i)).flatMap (f i))

/-- The delay line of an address: its registers or its table words. -/
def lineOf (a : Nat) : Option Nat :=
  match unitIn 0x40131000 0x40132000 0x10 a with
  | some l => some l
  | none => unitIn 0x30500000 0x30501000 0x10 a

/-- Conditions of the words at the given addresses at boundary k. `starts` says which lines start.
[DEDUCED, unsafe: log entry 29] [DEDUCED, unsafe: log entry 30] -/
def condsOf (s : State) (k : Nat) (starts : Nat → Bool) (l : List Nat) : List Cond :=
  let known := l ++ s.hub.live.map (fun e => e.1) ++ s.hub.pend.map (fun e => e.1)
  let en := l.contains pairCfg
  let sched := l.contains gratB
  let slotU := unitIn 0x40101000 0x40105000 0x20
  let allSlots := unitsOf slotU known
  let slots := if en then allSlots else unitsOf slotU l
  let chainU := unitIn 0x40121000 0x40122000 0x10
  let chains := unitsOf chainU l
  let lines := unitsOf lineOf l
  let flowU := unitIn 0x30600000 0x30640000 0x40
  let allFlows := unitsOf flowU (l ++ s.hub.arr.map (fun e => e.1))
  let flows := if sched then allFlows else unitsOf flowU l
  slots.flatMap (slotConds s) ++ pairsOf (unitsOf slotU l) allSlots (slotPair s)
  ++ chains.flatMap (chainConds s) ++ pairsOf chains (unitsOf chainU known) chainPair
  ++ lines.flatMap (fun i => lineConds s k i (starts i)) ++ pairsOf (unitsOf (unitIn 0x40131000 0x40132000 0x10) l) (unitsOf lineOf known) linePair
  ++ flows.flatMap flowConds ++ pairsOf (unitsOf flowU l) allFlows flowPair
  ++ (List.range 4).flatMap (fun c =>
      let u := unitIn (clBase c + 0x2000) (clBase c + 0x3000) 0x10
      let es := unitsOf u l
      let all := unitsOf u known
      (if es.isEmpty && !l.contains (clBase c + 0x18) then []
       else rng (clBase c + 0x18) 0 16 256 16384 :: reserveCond s c all ::
         (es.flatMap (streamConds s c) ++ pairsOf es all (streamPair s c))))
  ++ (List.range 8).flatMap (fun n => if l.any (fun a => tdmBase n ≤ a && a < tdmBase n + 0x1000) then tdmConds s n else [])
  ++ (List.range 4).flatMap (fun p => if l.any (fun a => prtBase p ≤ a && a < prtBase p + 0x20) then prtConds p else [])
  ++ (if en || sched || l.contains (prtBase 3) then pairEnConds s else [])
  ++ (if en || l.contains 0x400E0000 then [backupCond s] else [])
  ++ (if sched then gratConds s else [])
  ++ l.flatMap (fun a =>
      if !isReg a then []
      else
        let o := offOf a
        match winOf a with
        | 5 => cmpConds o
        | 12 => if o = 0x10 then [rng a 0 8 1 255] else []
        | 13 => if o = 0 then [rng a 16 8 2 255] else []
        | 14 => rangesAt 0x400E0000 o svbRows
        | 15 => rangesAt 0x400F0000 o pairRows
        | 17 => mtxConds s o
        | 20 => if o = 0x10 || (0x100 ≤ o && o % 0x40 = 0) then silRow a else []
        | 26 => if o < 0x400 && o % 0x100 = 0x24 then [rng a 0 3 1 7] else []
        | 27 => outConds s (o / 0x400) (o % 0x400)
        | 28 => (List.range 32).flatMap (fun n => (outConds s n 0).drop 2)
        | 29 => pwrConds s o
        | _ => [])

end Sys2Proof.Machine
end

