-- ==== Sys2Proof/Machine/Commit.lean ====
section
/-! DEFINITION. The commit of a boundary: which words are due, what is refused, what becomes live or is held pending,
and what each block does with it (R40 to R49, R54, R509). -/

namespace Sys2Proof.Machine

/-- A word that this commit takes. -/
structure Chg where
  a      : Nat
  val    : Nat        -- shadow
  live   : Nat
  former : Nat        -- the value its fields would replace: pending where one is held, else live
  stop   : Nat        -- its STOP bits
  now    : Nat        -- STOP bits that apply at this boundary
  deriving DecidableEq, Repr

/-- The window that owns a parameter-array address. -/
def arrOwner (a : Nat) : Nat :=
  if a < 0x30400000 then 17
  else if a < 0x30500000 then 18
  else if a < 0x30600000 then 19
  else if a < 0x30700000 then 12
  else 7

/-- The window a word belongs to. -/
def ownerOf (a : Nat) : Nat := if isReg a then winOf a else arrOwner a

/-- The RUN field that releases the STOP fields of a word (R41). -/
def runField (a : Nat) : Option (Nat × Nat) :=
  let o := offOf a
  match winOf a with
  | 16 => some (0x40100000 + o / 0x20 * 0x20, 31)
  | 18 => some (0x40120000 + o / 0x10 * 0x10, 31)
  | 19 => some (0x40130000 + o / 0x10 * 0x10, 31)
  | 14 => some (0x400E0000, 31)
  | 26 => some (0x401A0000 + o / 0x100 * 0x100, 31)
  | b => if (21 ≤ b && b ≤ 24) || (8 ≤ b && b ≤ 11) then some (winBase b, 31) else none

/-- STOP bits of a word that apply at this boundary: a slot with KIND = 0 does not run whatever its RUN (R125); `nv` gives the committed value of a word.
[DEDUCED, unsafe: log entry 33] -/
def stopNow (s : State) (nv : Nat → Nat) (a : Nat) : Nat :=
  let all := 0xFFFFFFFF
  match runField a with
  | some (r, i) =>
    let idle := !nbit (lvn s r) i || (winOf a == 16 && nfld (lvn s r) 0 3 == 0)
    if idle || nbit (nv r) i != nbit (lvn s r) i then all else 0
  | none =>
    let o := offOf a
    match winOf a with
    | 5 => if cmpHeld s == some ((o - 0x200) / 0x40) || s.cmp.cur == some ((o - 0x200) / 0x40) then 0 else all
    | 25 => if (tdmGet s (o / 0x1000)).running then 0 else all
    | 27 => if (outGet s (o / 0x400)).st = 0 then all else 0
    | 28 => maskOf ((List.range 32).filter (fun n => (outGet s n).st == 0))
    | _ => all

def mergeN (a b m : Nat) : Nat := (mergeW (wd a) (wd b) (wd m)).toNat

/-- The value a word's fields stand to be replaced from. -/
def formerOf (s : State) (a : Nat) : Nat :=
  match tget none s.hub.pend a with
  | some v => (mergeW (lv s a) v (stopMask a)).toNat
  | none => lvn s a

/-- The word at an address, of registers or arrays, as it is live. -/
def liveAt (s : State) (a : Nat) : Nat := if isReg a then lvn s a else (arrLv s a).toNat

def chgOf (s : State) (nv : Nat → Nat) (a : Nat) : Chg :=
  if isReg a then
    { a := a, val := (shv s a).toNat, live := lvn s a, former := formerOf s a, stop := (stopMask a).toNat, now := stopNow s nv a }
  else { a := a, val := mWord s a, live := (arrLv s a).toNat, former := (arrLv s a).toNat, stop := 0, now := 0 }

/-- The committed value with refused fields at what they would have replaced. -/
def Chg.committed (c : Chg) (refused : Nat) : Nat := mergeN c.val c.former refused

/-- What is live after the commit. -/
def Chg.after (c : Chg) (refused : Nat) : Nat :=
  mergeN (c.committed refused) c.live (c.stop &&& (0xFFFFFFFF ^^^ c.now))

/-- A commit in progress: the words it takes and the refused bits of each. -/
structure Batch where
  chgs    : List Chg
  refused : Tab Nat := []

def Batch.find (b : Batch) (a : Nat) : Option Chg := b.chgs.find? (fun c => c.a == a)
def Batch.ref (b : Batch) (a : Nat) : Nat := tget 0 b.refused a

/-- The live value of a word after the commit. -/
def Batch.liveV (s : State) (b : Batch) (nv : Nat → Nat) (a : Nat) : Nat :=
  match b.find a with
  | some c => c.after (b.ref a)
  | none =>
    if isReg a && (tget none s.hub.pend a).isSome then mergeN (lvn s a) (formerOf s a) (stopNow s nv a) else liveAt s a

/-- The value of a word with its pending fields in force. -/
def Batch.pendV (s : State) (b : Batch) (a : Nat) : Nat :=
  match b.find a with
  | some c => c.committed (b.ref a)
  | none => if isReg a then formerOf s a else liveAt s a

/-- The unit whose stop releases a word: named by its RUN word, else by the word itself (R41). -/
def stopUnit (a : Nat) : Nat :=
  match runField a with
  | some (r, _) => r
  | none => a

/-- The fields of a condition that are held pending after the commit, of one unit. -/
def Batch.heldOf (s : State) (b : Batch) (nv : Nat → Nat) (c : Cond) (u : Nat) : List (Nat × Nat) :=
  c.flds.filter (fun f => stopUnit f.1 == u && (b.liveV s nv f.1 &&& f.2 != b.pendV s f.1 &&& f.2))

/-- Was the field pending before the commit? -/
def heldBefore (s : State) (f : Nat × Nat) : Bool := (formerOf s f.1 ^^^ liveAt s f.1) &&& f.2 != 0

/-- The sets of pending fields that take their pending values: all of a unit's, none, and those of this commit with the
earlier ones still held (R509); units release their fields apart from one another.
[DEDUCED, unsafe: log entry 29] -/
def Batch.variants (s : State) (b : Batch) (nv : Nat → Nat) (c : Cond) : List (List (Nat × Nat)) :=
  let us := (c.flds.map (fun f => stopUnit f.1)).foldl (fun l u => if (b.heldOf s nv c u).isEmpty then l else addTo u l) []
  let one (u : Nat) : List (List (Nat × Nat)) :=
    let h := b.heldOf s nv c u
    [h, [], h.filter (fun f => !heldBefore s f)]
  if us.length ≤ 4 then us.foldl (fun acc u => acc.flatMap (fun l => (one u).map (fun v => l ++ v))) [[]]
  else [us.flatMap (fun u => b.heldOf s nv c u), []]

/-- A condition holds with each pending field at its live and at its pending value (R509). -/
def Batch.holds (s : State) (b : Batch) (nv : Nat → Nat) (c : Cond) : Bool :=
  (b.variants s nv c).all (fun sub => c.ok (fun a =>
    sub.foldl (fun v f => if f.1 = a then mergeN v (b.pendV s a) f.2 else v) (b.liveV s nv a)))

/-- A failing condition refuses its fields whose committed value differs from what they would replace.
[DEDUCED, unsafe: log entry 29] -/
def Batch.refuse (b : Batch) (c : Cond) (r : Tab Nat) : Tab Nat :=
  c.flds.foldl (fun r f =>
    match b.find f.1 with
    | some g => if (g.committed (tget 0 r f.1) ^^^ g.former) &&& f.2 != 0 then tset 0 r f.1 (tget 0 r f.1 ||| f.2) else r
    | none => r) r

/-- Repeat until every condition holds (R509).
[DEDUCED, unsafe: log entry 29] -/
def refuseLoop (s : State) (nv : Nat → Nat) (conds : List Cond) : Nat → Batch → Batch
  | 0, b => b
  | n + 1, b =>
    let r := (conds.filter (fun c => !b.holds s nv c)).foldl (fun r c => b.refuse c r) b.refused
    if r = b.refused then b else refuseLoop s nv conds n { b with refused := r }

/-- A committed SEL must name an eligible and qualified slot (R99).
[DEDUCED, unsafe: log entry 32] -/
def selCond (s : State) : Cond :=
  { flds := [fm 0x40050004 0 5], ok := fun v => !nbit (v 0x40050004) 4 || usable s (v 0x40050004 % 8) }

/-- Groups due at cycle k, with those that are late (R45). -/
def commitsDue (s : State) (k : Nat) : List Nat × List Nat :=
  let l := s.hub.commits.filterMap (fun e =>
    match e.2 with
    | some t => if t ≤ k then some (e.1, t != 0 && decide (t < k)) else none
    | none => none)
  (l.map (fun e => e.1), (l.filter (fun e => e.2)).map (fun e => e.1))

/-- The windows that commit: of a due group, in a domain that is ON; and those of them withheld for a bad shadow (R54). -/
def windowsDue (s : State) (gs : List Nat) : List Nat × List Nat :=
  let l := (List.range 33).filter (fun b => gs.contains (grpOf s b) &&
    (match winDom b with
     | some d => domOn s d
     | none => true))
  let bad (b : Nat) : Bool := s.hub.badFound.any (fun a => winOf a == b)
  (l.filter (fun b => !bad b), l.filter bad)

/-- Write one word of the batch.
[DEDUCED, unsafe: log entry 28] -/
def chgApply (b : Batch) (c : Chg) (s : State) : State :=
  let v := c.committed (b.ref c.a)
  let l := c.after (b.ref c.a)
  let keep := b.ref c.a != 0
  if isReg c.a then
    let s1 := setLv c.a (wd l) s
    let p : Option Word := if (v ^^^ l) &&& c.stop != 0 then some (wd v) else none
    { s1 with hub.pend := tset none s1.hub.pend c.a p,
              hub.liveBad := dropFrom c.a s1.hub.liveBad,
              hub.dirty := if keep then s1.hub.dirty else dropFrom c.a s1.hub.dirty }
  else
    let s1 := if arrOwner c.a = 19 || arrOwner c.a = 12 then setArr c.a (wd l) s else s
    { s1 with hub.arrDirty := if keep then s1.hub.arrDirty else dropFrom c.a s1.hub.arrDirty }

/-- The WARN of a refused word (R452).
[DESIGN CHOICE, unsafe: log entry 31] [DEDUCED, unsafe: log entry 32] -/
def refusedWarn (a : Nat) (s : State) : State :=
  if a = 0x40050004 then raise 0x051C 1 ((shv s a).toNat % 8) 0 (evOr 0x4005000C 0x80 s)
  else raise (ownerOf a * 256 + 5) 1 255 (if isReg a then offOf a else a) s

/-- Pending STOP fields whose unit has stopped apply (R41).
[DEDUCED, unsafe: log entry 33] -/
def pendRelease (nv : Nat → Nat) (skip : List Nat) (s : State) : State :=
  foldS (s.hub.pend.map (fun e => e.1)) (fun a t => if skip.contains a then t else pendApplyMask a (wd (stopNow s nv a)) t) s

/-! ### What the blocks do with a commit -/

/-- MTX, EQS, STR and SIL (R137 to R144, R152 to R154, R159, R161, R168). `old` is the state before the copy. -/
def commitAudio (k : Nat) (l : List Nat) (old : State) (s : State) : State :=
  let egr := unitsOf (unitIn 0x40114000 0x401164A0 4) l
  let ocfg := unitsOf (unitIn 0x40110800 0x40110C00 4) l
  let xps := unitsOf (unitIn 0x30000000 0x30400000 8) l
  let secs := unitsOf (unitIn 0x30400000 0x30500000 0x20) l
  let chains := unitsOf (unitIn 0x40121000 0x40122000 0x10) l
  let lines := unitsOf lineOf l
  let grps := (unitsOf (unitIn 0x40140100 0x40140900 0x40) l).filter (fun g => l.contains (grpBase g))
  let s1 := foldS (if blockSafe s 17 then [] else egr) (fun d t => egrCommit k d (lvn t (0x40114000 + 4 * d)) t) s
  let s2 := foldS ocfg (fun o t => outcfgCommit k o (lvn old (0x40110800 + 4 * o)) (lvn t (0x40110800 + 4 * o)) t) s1
  let s3 := sosCommit secs (foldS xps (xpTake k) s2)
  let s4 := foldS chains (fun c t => whenS (lb t (chainBase c) 31 && !lb old (chainBase c) 31) (chainStart c) t) s3
  let s5 := foldS lines (fun i t => lineCommit k i (lvn old (lineBase i)) t) s4
  foldS grps grpCommit s5

/-- CMP, GRAT, ports, switch core, service bus, pair, clusters, TDM, OUT, PWR. -/
def commitOthers (k : Nat) (l : List Nat) (refused : Tab Nat) (old : State) (s : State) : State :=
  let took (a : Nat) : Bool := l.contains a && tget 0 refused a == 0
  let was (a i : Nat) : Bool := lb old a i
  let s1 := whenS (took 0x40050004) (fun t => showSel (selCommit (lvn t 0x40050004) t)) s
  let s1b := whenS (took gratB && was gratB 0 != lb s1 gratB 0) (fun t => { t with grat.eccClosed := [] }) s1
  let s2 := whenS (took gratB) (fun t => srvUp 7 2 1 (foldS (List.range 4) (fun p u => prtPut p { prtGet u p with gateWarn := false } u) t)) s1b
  let s3 := foldS (List.range 4) (fun p t => whenS (was (prtBase p) 31 && !prtEn t p) (linkDownFx p) t) s2
  let s4 := foldS (unitsOf (unitIn 0x30600000 0x30640000 0x40) l)
    (fun x t => flowCommit x (flowW old x 0) t) s3
  let s5 := whenS (was 0x400E0000 31 != lb s4 0x400E0000 31) svbCommit s4
  let s6 := whenS (was pairCfg 31 != lb s5 pairCfg 31) pairEnCommit s5
  let s7 := whenS (l.contains 0x400F0030) pairCommand s6
  let s8 := foldS (List.range 4) (fun c t =>
    whenS (l.any (fun a => winOf a == 21 + c && isReg a)) (clusterCommit k c (was (clBase c) 31) (l.contains (clBase c + 4))) t) s7
  let s9 := foldS (List.range 8) (fun n t =>
    whenS (l.contains (tdmBase n + 8) || l.contains (tdmBase n + 0xC)) (tdmMaskCommit k n) t) s8
  let s10 := outBaseCommit l (outCommands k l s9)
  let s11 := whenS (l.contains (pwrB + 0x2C)) baseCommit s10
  let doms := (List.range 15).filter (fun d => l.contains (domReg d) && tget 0 refused (domReg d) &&& 3 == 0)
  if doms.isEmpty then s11 else domTargets (doms.map (fun d => (d, lf s11 (domReg d) 0 2))) s11

/-- The commits of boundary k, step 2 of R16. A field outside its own range never goes live (R48), so the ranges of one
field are applied before the conditions that bind several (R509).
[DEDUCED, unsafe: log entry 28] [DESIGN CHOICE, unsafe: log entry 31] -/
def commitRun (k : Nat) (s0 : State) : State :=
  let (gs, late) := commitsDue s0 k
  if gs.isEmpty then pendRelease (lvn s0) [] s0
  else
    let (wins, bad) := windowsDue s0 gs
    let regs := s0.hub.dirty.filter (fun a => wins.contains (winOf a))
    let arrs := s0.hub.arrDirty.filter (fun a => wins.contains (arrOwner a))
    let nv (a : Nat) : Nat := if regs.contains a then (shv s0 a).toNat else lvn s0 a
    let l := regs ++ arrs
    let starts (i : Nat) : Bool :=
      nbit (nv (lineBase i)) 31 && (!(lineGet s0 i).running || (lineGet s0 i).stopping)
    let conds := condsOf s0 k starts l ++ (if regs.contains 0x40050004 then [selCond s0] else [])
    let fuel := 8 * l.length + 1
    let single := conds.filter (fun c => c.flds.length ≤ 1)
    let joint := conds.filter (fun c => 1 < c.flds.length)
    let b := refuseLoop s0 nv joint fuel (refuseLoop s0 nv single fuel { chgs := l.map (chgOf s0 nv) })
    let refusedWords := l.filter (fun a => b.ref a != 0)
    let overlap := regs.contains gratB && !bankOk s0 (nv gratB)
    -- the copy
    let s1 := pendRelease nv regs (foldS b.chgs (chgApply b) s0)
    let s2 := commitOthers k l b.refused s0 (commitAudio k l s0 s1)
    -- status and faults
    let s3 := foldS refusedWords refusedWarn (whenS overlap (evOr 0x40070024 2) s2)
    let s4 := whenS (!refusedWords.isEmpty) (evOr 0x4000002C 4) s3
    let s5 := foldS bad (fun w t => raise (w * 256 + 4) 2 255 0 t) (whenS (!bad.isEmpty) (evOr 0x4000002C 8) s4)
    let s6 := whenS (!late.isEmpty) (fun t =>
      let u := evOr 0x40000028 (maskOf late) (evOr 0x4000002C 1 t)
      if paired u then raise 0x0010 2 255 (maskOf late) u else u) s5
    let s7 := srvUp 0 2 refusedWords.length (srvUp 0 1 late.length (srvUp 0 0 gs.length (evOr 0x40000024 (maskOf gs) s6)))
    foldS gs coldClear { s7 with hub.commits := s7.hub.commits.filter (fun e => !gs.contains e.1), hub.lastCommit := k }

end Sys2Proof.Machine
end

