-- ==== Sys2Proof/Machine/Parity.lean ====
section
/-! DEFINITION. Parity errors, the scrubber, the safe actions, and ECC errors (R52 to R55, R466). -/

namespace Sys2Proof.Machine

/-- Does the word carry parity: is it a configuration word (R52)? -/
def hasParity (a : Nat) : Bool :=
  match rowOf a with
  | some r => r.acc != .rc
  | none => false

/-- Does the word have a shadow copy (R33)? -/
def hasShadow (a : Nat) : Bool :=
  match rowOf a with
  | some r => r.acc == .rw || r.acc == .rh
  | none => false

/-- The units of a window that a faulty word puts in their safe action (R55): window × 256 + unit, 255 for the block. -/
def safeUnitsOf (a : Nat) : List Nat :=
  let b := winOf a
  let o := offOf a
  let channel (n : Nat) : List Nat := [27 * 256 + n, 28 * 256 + n]
  if b = 27 then
    (if 0x300 ≤ o && o < 0x400 then (List.range 32).flatMap channel else channel (o / 0x400))
  else if b = 28 then
    (if o < 0x100 then (List.range 32).flatMap channel else channel ((o - 0x100) / 0x20 % 32))
  else if b = 25 then [25 * 256 + o / 0x1000]
  else if b = 26 then [26 * 256 + o / 0x100]
  else [b * 256 + 255]

/-- Blocks whose safe action is the node safe state (R55). -/
def fatalBlock (b : Nat) : Bool := [0, 1, 2, 3, 5, 6, 7, 12, 15, 29, 31, 32].contains b

/-- HOST reloaded: an enumerated address is lost, a pinned one stays (R392). -/
def hostReload (s : State) : State :=
  let ad := lv s 0x40040000
  let t := winsReset [4] s
  let u := if bit ad 30 then setLv 0x40040000 ad t else { t with host.enumOut := false, host.rise := false }
  { u with hub.safeUnits := s.hub.safeUnits }

/-- A window reloaded to its reset values; RK and W1 words stay. -/
def blockReload (b : Nat) (s : State) : State :=
  { winsReset [b] s with hub.safeUnits := s.hub.safeUnits }

/-- What entering the safe action does at once, unit by unit.
[DEDUCED, unsafe: log entry 36] -/
def safeUnitFx (u : Nat) (s : State) : State :=
  let b := u / 256
  let n := u % 256
  if b = 25 then tdmHalt n s
  else if b = 26 then (if n < 4 then rxReset n s else txPut (n - 4) {} s)
  else if 21 ≤ b && b ≤ 24 then
    let t := clusterReset (b - 21) s
    clPut (b - 21) { clGet t (b - 21) with safeRst := true } t
  else if 8 ≤ b && b ≤ 11 then linkDownFx (b - 8) s
  else if b = 13 then frstLogic 71 (blockReload 13 s)
  else if b = 14 then svbReset (blockReload 14 s)
  else if b = 4 then hostReload s
  else if b = 30 then srvReset (blockReload 30 s)
  else s

/-- Units enter their safe action. -/
def safeEnter (us : List Nat) (s : State) : State :=
  foldS us (fun u t => safeUnitFx u { t with hub.safeUnits := addTo u t.hub.safeUnits }) s

/-- The safe action for a faulty word (R53, R55).
[DEDUCED, unsafe: log entry 36] -/
def safeAction (a : Nat) (s : State) : State :=
  let b := winOf a
  if fatalBlock b then raise (b * 256 + 2) 3 255 (offOf a) { s with hub.safeUnits := addTo (b * 256 + 255) s.hub.safeUnits }
  else raise (b * 256 + 2) 2 255 (offOf a) (safeEnter (safeUnitsOf a) s)

/-- A live-copy parity error has been found (R53).
[DEDUCED, unsafe: log entry 34] -/
def liveFix (a : Nat) (s : State) : State :=
  let b := winOf a
  let s1 := evOr (0x40000040 + 4 * b) 0x20000000 { s with hub.liveBad := dropFrom a s.hub.liveBad }
  if hasShadow a && !s.hub.shadowBad.contains a && !s.hub.dirty.contains a then
    raise (b * 256 + 1) 1 255 0
      (srvUp 0 4 1 { setLv a (shv s1 a) s1 with hub.pend := tset none s1.hub.pend a none })
  else safeAction a s1

/-- A shadow parity error has been found (R54): the word counts until it is rewritten.
[DEDUCED, unsafe: log entry 34] -/
def shadowFound (a : Nat) (s : State) : State :=
  if s.hub.badFound.contains a then s
  else raise (winOf a * 256 + 3) 1 255 (offOf a) { s with hub.badFound := addTo a s.hub.badFound }

/-- What a word that fails parity holds: nothing states it.
[DESIGN CHOICE, safe: log entry 24] -/
def upsetVal (a key : Nat) (old : Word) (s : State) : Word :=
  match rowOf a with
  | some r => mergeW old (wd (draw .upset (a * 2 + key) s % 2 ^ 32)) (wd r.wmask)
  | none => old

/-- Words whose parity has failed: the stored copies are no longer what was written.
[DESIGN CHOICE, safe: log entry 24] -/
def liveUpset (a : Nat) (s : State) : State :=
  if hasParity a then
    { setLv a (upsetVal a 0 (lv s a) s) s with hub.liveBad := addTo a s.hub.liveBad }
  else s
/-- MARK: [DESIGN CHOICE, safe: log entry 24] -/
def shadowUpset (a : Nat) (s : State) : State :=
  if hasShadow a then
    { s with hub.shadow := tabSet resetOf s.hub.shadow a (upsetVal a 1 (shv s a) s),
             hub.shadowBad := addTo a s.hub.shadowBad }
  else s

/-- Does the scrubber visit the window: is its domain ON or CG (R400)? -/
def scrubbed (s : State) (a : Nat) : Bool :=
  match winDom (winOf a) with
  | some d => (domGet s d).st == 3 || (domGet s d).st == 2
  | none => true

/-- SCRUBBER_SWEEP: every live and shadow word is checked, the shadows first found bad among them (R52).
[DEDUCED, unsafe: log entry 34] -/
def scrubFx (live shadow : List Nat) (s : State) : State :=
  let s1 := foldS shadow shadowUpset (foldS live liveUpset s)
  let s2 := foldS (s1.hub.shadowBad.filter (scrubbed s1)) shadowFound s1
  let s3 := foldS (s2.hub.liveBad.filter (scrubbed s2)) liveFix s2
  srvUp 0 3 1 (setLv 0x40000038 (lv s3 0x40000038 + 1) s3)

/-! ### ECC errors (R466) -/

/-- Does a running line's ring hold the pool address? -/
def inRunningRing (s : State) (a : Nat) : Bool :=
  (List.range 256).any (fun l => (lineGet s l).running && decide (ringBase s l ≤ a) && decide (a < ringBase s l + 4 * ringLen s l))

/-- The action of the block that owns the memory (R75, R136, R154, R162).
[DEDUCED, unsafe: log entry 35] -/
def eccOwner (a : Nat) (s : State) : State :=
  let err (b : Nat) (t : State) : State := raise (b * 256 + 6) 2 255 a t
  if 0x30000000 ≤ a && a < 0x30400000 then safeEnter [17 * 256 + 255] (err 17 s)
  else if 0x30400000 ≤ a && a < 0x30500000 then safeEnter [18 * 256 + 255] (err 18 s)
  else if 0x30500000 ≤ a && a < 0x30600000 then err 19 s
  else if 0x30600000 ≤ a && a < 0x30700000 then err 12 s
  else if 0x30700000 ≤ a && a < 0x30800000 then
    let e := a / 32 * 32
    if s.grat.eccClosed.contains e then s
    else raise 0x0711 2 255 0 (evOr 0x40070024 4 { s with grat.eccClosed := addTo e s.grat.eccClosed })
  else if 0x10000000 ≤ a && a < 0x12000000 then
    (if inRunningRing s a then safeEnter [19 * 256 + 255] (err 19 s) else s)
  else if 0x08000000 ≤ a && a < 0x08400000 then err (21 + a % 0x08000000 / 0x100000) s
  else if 0x20000000 ≤ a && a < 0x20800000 then err (21 + a % 0x20000000 / 0x200000) s
  else s

/-- A bus read of a word with an uncorrectable error (R466).
[DEDUCED, unsafe: log entry 35] -/
def eccRead (m a : Nat) (s : State) : State := eccOwner a (busCapture 0x401F0080 0x1F12 2 m a m s)

/-- A write rewrites the word with valid ECC. -/
def eccWritten (a n : Nat) (s : State) : State :=
  { s with eccBad := s.eccBad.filter (fun w => !(decide (a / 4 * 4 ≤ w) && decide (w < a + n))) }

end Sys2Proof.Machine
end

