-- ==== Sys2Proof/Machine/NodeReset.lean ====
section
/-! DEFINITION. Cold and warm reset, OTP, the flash commands, and what the host's address survives
(R414, R415, R436 to R440, R388, R392). -/

namespace Sys2Proof.Machine

/-- Is the debug master allowed to act (R435)? -/
def debugOn (s : State) : Bool := isSealed s && lb s 0x40020000 0 && !lb s 0x40200108 3

/-- A wake source of a sleeping node, if the node sleeps. -/
def wakeNote (cause : Nat) (s : State) : State := if s.pwr.sleep = 0 then s else { s with pwr.wakeSrc := cause }

/-- Is a live word one of OTP's shadow (R436)? -/
def isOtp (a : Nat) : Bool := decide (0x40200100 ≤ a) && decide (a < 0x40200158)

/-- The flash device is outside the chip: its bytes stay.
[DESIGN CHOICE, unsafe: log entry 100] -/
def flashCells (s : State) : List Host.Cell := s.mem.filter (fun c => decide (0x50000000 ≤ c.1))

/-- The pins that the outside drives. -/
def pinsKept (old : State) (s : State) : State :=
  { s with pair.peer := old.pair.peer, host.enumIn := old.host.enumIn, host.low := old.host.low, host.deaf := old.host.low,
           host.phase := 3, mem := flashCells old, free := old.free, pending := old.pending }

/-- The Zephyr log and the wake cause, which ZEP keeps through every reset (R451). -/
def zephyrKept (old : State) (s : State) : State :=
  { s with flt.zlog := old.flt.zlog, flt.zNext := old.flt.zNext, flt.zCount := old.flt.zCount, flt.zValid := old.flt.zValid,
           pwr.wakeSrc := old.pwr.wakeSrc, boot.otp := old.boot.otp }

/-- A cold reset (R414): OTP is read again into its shadow.
[DEDUCED, unsafe: log entry 102] -/
def coldReset (cause : Nat) (old : State) : State :=
  let s := zephyrKept old (pinsKept old State.reset)
  foldS old.boot.otp (fun e t => if isOtp e.1 then setLv e.1 e.2 t else t) (setLv 0x4003001C (wd cause) s)

/-- Power-on (R414, R451). -/
def powerOnFx (logLost : Bool) (s : State) : State :=
  let t := coldReset 1 s
  if logLost then { t with flt.zlog := [], flt.zNext := 0, flt.zCount := 0, flt.zValid := false } else t

/-- RESET_N low for at least 1 µs; it wakes a sleeping node. -/
def resetNFx (s : State) : State := coldReset 2 (wakeNote 16 s)

/-- Words that a warm reset keeps: RK and W1 words, ZEP, the CLK domain, the host address, the seal time, the sweep count.
[DEDUCED, unsafe: log entry 102] -/
def warmKeeps (a : Nat) : Bool :=
  keptOff a || winOf a == 32 || (5 ≤ winOf a && winOf a ≤ 7)
    || [0x40000038, 0x40030018, 0x40040000].contains a

/-- A warm reset (R414, R110, R392, R450).
[DEDUCED, unsafe: log entry 102] -/
def warmReset (cause : Nat) (old : State) : State :=
  let clk (a : Nat) : Bool := 5 ≤ winOf a && winOf a ≤ 7
  let z := zephyrKept old (pinsKept old State.reset)
  let s := { z with hub.live := tkeep warmKeeps old.hub.live, hub.shadow := tkeep clk old.hub.shadow,
                    hub.dirty := old.hub.dirty.filter clk, hub.pend := tkeep clk old.hub.pend,
                    hub.liveBad := old.hub.liveBad.filter warmKeeps, hub.shadowBad := old.hub.shadowBad.filter clk,
                    hub.badFound := old.hub.badFound.filter clk, hub.w1Done := old.hub.w1Done,
                    hub.safeUnits := old.hub.safeUnits.filter (fun u => u / 256 ≤ 7 || 29 ≤ u / 256),
                    time := { old.time with txf := [], txDrop := [] }, grat := old.grat, cmp := old.cmp,
                    host.enumOut := old.host.enumOut, boot.warm := true,
                    sup.grd := tkeep (fun i => bit (tget 0 old.sup.grd (i / 2 * 2)) 4) old.sup.grd }
  wdogStart (cmpRestart (setLv 0x4003001C (wd cause) s))

/-! ### OTP (R436 to R438) -/

/-- KEY_LOCK (R437).
[DEDUCED, unsafe: log entry 99] -/
def keyLock (s : State) : Bool := lb s 0x40200108 0

/-- The rollback count: the 1 bits of the thermometer. -/
def otpRollback (s : State) : Nat := popCount 32 (lvn s 0x40200150) + popCount 32 (lvn s 0x40200154)

/-- Program OTP bits: they change only from 0 to 1.
[DEDUCED, unsafe: log entry 99] -/
def otpSet (a v : Nat) (s : State) : State :=
  { s with boot.otp := tset 0 s.boot.otp a (tget 0 s.boot.otp a ||| wd v) }

/-- OTP_PGM_GO by master m (R437).
[DEDUCED, unsafe: log entry 99] -/
def otpGo (m : Master) (s : State) : State :=
  if !keyLock s && (m = .sup || m = .debug) && decide (3000 ≤ s.pwr.vsys) then
    let o := lvn s 0x40200200
    if 0x108 ≤ o && o < 0x150 && o % 4 = 0 then otpSet (0x40200000 + o) (lvn s 0x40200204) s else s
  else srvUp 2 0 1 (violation (masterId m) 0x40200208 s)

/-- BOOT.RB_BURN by master m: the count rises to the running image's ROLLBACK (R438). -/
def rbBurnFx (m : Master) (s : State) : State :=
  if m = .sup then
    let t := 2 ^ min 64 (lf s 0x40030010 0 7) - 1
    otpSet 0x40200150 (t % 2 ^ 32) (otpSet 0x40200154 (t / 2 ^ 32) s)
  else s

/-! ### Flash commands (R440) -/

/-- The bytes a flash device is found to hold.
[DESIGN CHOICE, unsafe: log entry 100] -/
def flashTake (cells : List (Nat × List Byte)) (s : State) : State :=
  foldS cells (fun c t => mStores (0x50000000 + c.1) c.2 t) s

/-- BOOT.FGO: ignored while BUSY.
[DESIGN CHOICE, unsafe: log entry 100] -/
def fgoOne (rd : Bool) (s : State) : State :=
  match s.boot.flash with
  | some _ => s
  | none =>
    let c : FlashCmd := { opcode := lf s 0x40030024 0 8, addr := lvn s 0x40030028, len := lf s 0x40030024 16 12,
                          buf := lvn s 0x4003002C, read := rd }
    srvUp 3 1 1 { s with boot.flash := some c }

/-- MARK: [DESIGN CHOICE, unsafe: log entry 100] -/
def fgoStrobe (v : Nat) (s : State) : State :=
  whenS (nbit v 1) (fgoOne true) (whenS (nbit v 0) (fgoOne false) s)

/-- Does a byte of system SRAM stand at the address? -/
def inSram (a : Nat) : Bool := 0x100000 ≤ a && a < 0x500000

/-- FLASH_COMMAND_DONE: a read's bytes reach the buffer, and BUSY clears. -/
def flashDoneFx (data : List Byte) (cells : List (Nat × List Byte)) (s : State) : State :=
  match s.boot.flash with
  | none => s
  | some c =>
    let s1 := flashTake cells { s with boot.flash := none }
    if c.read then
      let d := data.take c.len
      srvUp 3 0 d.length (foldS ((List.range d.length).zip d)
        (fun e t => if inSram (c.buf + e.1) then mStore (c.buf + e.1) e.2 t else t) s1)
    else s1

/-! ### The host's address (R388) -/

/-- HOST.ENUM.FORGET: pinned chips ignore it. -/
def forgetFx (s : State) : State :=
  if lb s 0x40040000 31 && !lb s 0x40040000 30 then
    { setLv 0x40040000 0 s with host.enumOut := false, host.rise := false }
  else s

/-- ENUM_IN changes; a pinned chip follows it on ENUM_OUT. -/
def enumInFx (level : Bool) (s : State) : State :=
  if lb s 0x40040000 30 then { s with host.enumIn := level, host.enumOut := level } else { s with host.enumIn := level }

/-- HOST.PIN takes effect at seal. -/
def pinTake (s : State) : State :=
  if lb s 0x40040004 31 then
    { setLv 0x40040000 (wd (0xC0000000 + lf s 0x40040004 0 6)) s with host.enumOut := s.host.enumIn }
  else s

end Sys2Proof.Machine
end

