-- ==== Sys2Proof/Machine/Survey.lean ====
section
/-! DEFINITION. Survey: freeze, snapshot, clear, sampling, and the access rule (R469 to R482). -/

namespace Sys2Proof.Machine

def srvB : Nat := 0x401E0000
def srvEvent (i : Nat) (s : State) : State := evOr (srvB + 4) (2 ^ i) s

/-- A request of one action: 0 FREEZE, 1 THAW, 2 SNAP, 3 CLEAR (R477). -/
def srvRequest (i : Nat) (s : State) : State :=
  let at_ := lvn s (srvB + 0x10) + lvn s (srvB + 0x14) * 2 ^ 32
  let late := at_ != 0 && decide (at_ < s.grat.nextCycle)
  whenS late (evOr srvB 2) { s with srv.acts := tset none s.srv.acts i (some (if late then 0 else at_)) }

/-- A write of SRV.ACT: FREEZE and THAW together are ignored. -/
def srvActStrobe (v : Nat) (s : State) : State :=
  let l := bitsOf 4 v
  foldS (if l.contains 0 && l.contains 1 then l.filter (fun i => 2 ≤ i) else l) srvRequest s

/-- Is the action due at boundary k?
[DEDUCED, unsafe: log entry 106] -/
def srvDue (s : State) (k i : Nat) : Bool :=
  match tget none s.srv.acts i with
  | some t => decide (t ≤ k)
  | none => false

/-- SNAP at boundary k (R478, R479). -/
def srvSnap (k : Nat) (s : State) : State :=
  if s.srv.busy || s.srv.copy then evOr srvB 4 s
  else
    srvUp 30 3 1 { s with srv.latCtr := s.srv.ctr, srv.latCore := s.srv.core, srv.busy := true,
                          srv.seq := (s.srv.seq + 1) % 65536, srv.snapCyc := k }

/-- The due actions of boundary k, in the order of R478.
[DEDUCED, unsafe: log entry 106] -/
def srvBoundary (k : Nat) (s : State) : State :=
  let s1 := whenS (srvDue s k 2) (srvSnap k) s
  let s2 := if srvDue s k 3 then { s1 with srv.ctr := [], srv.core := [] } else s1
  let s3 := if srvDue s k 0 then { s2 with srv.frozen := true } else s2
  let s4 := if srvDue s k 1 then { s3 with srv.frozen := false } else s3
  { s4 with srv.acts := s4.srv.acts.filter (fun e => !srvDue s k e.1) }

/-! ### Sampling (R473 to R476) -/

/-- The interval of a core's next sample: r is a draw of its LFSR, whose bits the spec does not lay out.
[DESIGN CHOICE, safe: log entry 18] -/
def smpInterval (k : Nat) (s : State) : Nat :=
  let j := min 8 (lf s (srvB + 0x40) 16 4)
  let n := max (2 ^ j) (lf s (srvB + 0x40) 0 16)
  if j = 0 then n else n - 2 ^ (j - 1) + draw .prng k s % 2 ^ j

/-- Is core k sampled? -/
def smpOn (s : State) (k : Nat) : Bool := lb s (srvB + 0x40) 31 && decide (k < 32) && lb s (srvB + 0x44) k && !s.srv.frozen

/-- A packet of core k retires: the countdown, and the record of a sampled packet.
[DESIGN CHOICE, safe: log entry 18] [DEDUCED, unsafe: log entry 106] -/
def smpRetire (k : Nat) (r : SmpRec) (s : State) : State :=
  if smpOn s k then
    let c0 := tget 0 s.srv.count k
    let c := if c0 = 0 then smpInterval k s else c0
    if c ≤ 1 then
      { s with srv.count := tset 0 s.srv.count k 0, srv.wait := s.srv.wait ++ [r],
               srv.lfsr := tset 0 s.srv.lfsr k (draw .prng (k + 64) s % 2 ^ 32) }
    else { s with srv.count := tset 0 s.srv.count k (c - 1) }
  else s

/-- SMP_SEED written: every core's LFSR is seeded with SEED XOR k, or 1 (R474). -/
def smpSeedFx (v : Nat) (s : State) : State :=
  foldS (List.range 32) (fun k t =>
    { t with srv.lfsr := tset 0 t.srv.lfsr k (if v ^^^ k = 0 then 1 else v ^^^ k), srv.count := tset 0 t.srv.count k 0 })
    (setLv (srvB + 0x48) (wd v) s)

/-- SMP_CLR: empty the buffers of a mask (R476). -/
def smpClrFx (v : Nat) (s : State) : State :=
  foldS (bitsOf 4 v) (fun c t =>
    { t with srv.smp := tkeep (fun i => i / 256 != c) t.srv.smp, srv.next := tset 0 t.srv.next c 0,
             srv.fill := tset 0 t.srv.fill c 0, srv.full := dropFrom c t.srv.full }) s

/-- SAMPLE_RECORD: the oldest sampled packet of core k writes its record. -/
def sampleFx (k : Nat) (s : State) : State :=
  match s.srv.wait.find? (fun r => r.core == k && r.lat != 0) with
  | none => s
  | some r =>
    let s1 := { s with srv.wait := s.srv.wait.erase r }
    let c := k / 8
    let fill := tget 0 s1.srv.fill c
    if s1.srv.frozen then s1
    else if lb s1 (srvB + 0x40) 30 && fill = 256 then
      let s2 := srvUp 30 1 1 (ctrUp (srvB + 0x60 + 4 * c) 0 16 s1)
      if s2.srv.full.contains c then s2 else srvEvent 1 { s2 with srv.full := addTo c s2.srv.full }
    else
      let n := tget 0 s1.srv.next c
      srvCore k 5 1 (srvUp 30 0 1
        { s1 with srv.smp := tset none s1.srv.smp (c * 256 + n) (some r), srv.next := tset 0 s1.srv.next c ((n + 1) % 256),
                  srv.fill := tset 0 s1.srv.fill c (min 256 (fill + 1)) })

/-- The words of a sample record (R475). -/
def smpWord (r : Option SmpRec) (w : Nat) : Word :=
  match r with
  | none => 0
  | some r =>
    match w with
    | 0 => wd (0x80000000 + r.core % 8 * 2 ^ 28 + r.reason % 16 * 2 ^ 24 + min 255 r.held * 2 ^ 16 + r.pc % 4096)
    | 1 => wd (r.cyc % 65536 * 65536 + min 65535 r.lat)
    | 2 => wd r.cycle
    | _ => wd (r.cycle / 2 ^ 32 % 65536)

/-! ### Registers -/

/-- Half h of a 48-bit counter. -/
def ctrHalf (v h : Nat) : Word := if h = 0 then wd v else wd (v / 2 ^ 32 % 65536)

/-- The RO words of the SRV window. -/
def srvView (s : State) (o : Nat) : Option Word :=
  let x := s.srv
  let h := o % 8 / 4
  if o = 0 then
    some (lv s srvB ||| wd (bitAt 31 x.frozen + bitAt 30 x.busy + bitAt 29 x.copy + b2n (x.acts.any (fun e => e.2.isSome))))
  else if o = 0x1C then some (wd x.seq)
  else if o = 0x20 then some (wd x.snapCyc)
  else if o = 0x24 then some (wd (x.snapCyc / 2 ^ 32))
  else if 0x50 ≤ o && o < 0x60 then
    some (wd (tget 0 x.fill ((o - 0x50) / 4) * 65536 + tget 0 x.next ((o - 0x50) / 4)))
  else if 0x800 ≤ o && o < 0x1040 then some (ctrHalf (tget 0 x.ctr ((o - 0x800) / 8)) h)
  else if 0x1400 ≤ o && o < 0x1C40 then some (ctrHalf (tget 0 x.core (o / 8 - 0x280)) h)
  else if 0x2800 ≤ o && o < 0x3040 then some (ctrHalf (tget 0 x.snapCtr (o / 8 - 0x500)) h)
  else if 0x3400 ≤ o && o < 0x3C40 then some (ctrHalf (tget 0 x.snapCore (o / 8 - 0x680)) h)
  else if 0x4000 ≤ o && o < 0x8000 then
    some (smpWord (tget none x.smp (o % 0x4000 / 16)) (o % 16 / 4))
  else none

/-- Is the word in the snapshot arrays, whose reads wait while SNAP_BUSY (R479)? -/
def inSnap (a : Nat) : Bool :=
  winOf a == 30 && ((0x2800 ≤ offOf a && offOf a < 0x3040) || (0x3400 ≤ offOf a && offOf a < 0x3C40))

/-- May the master access the SRV window (R480)? -/
def srvMay (s : State) (m : Master) (wr : Bool) : Bool :=
  match m with
  | .sup | .host | .debug => true
  | .core _ _ => !wr && lb s 0x40020000 1
  | _ => false

/-- An access that R480 bars. -/
def srvDeny (m a : Nat) (s : State) : State :=
  let w := lvn s (srvB + 0x30)
  let s1 := if nbit w 31 then s
    else setLv (srvB + 0x34) (wd a) (setLv (srvB + 0x30) (wd (w ||| (0x80000000 + m * 65536))) s)
  srvUp 30 2 1 (srvEvent 2 (ctrUp (srvB + 0x30) 0 16 s1))

end Sys2Proof.Machine
end

