-- ==== Sys2Proof/Machine/Views.lean ====
section
/-! DEFINITION. What a read of a register returns: the live copy, or the state that a read-only word shows (R32, R35). -/

namespace Sys2Proof.Machine

/-- BLK[b] (R43). -/
def blkWord (s : State) (b : Nat) : Word :=
  let a := 0x40000040 + 4 * b
  lv s a ||| wd (bitAt 31 (s.hub.pend.any (fun e => winOf e.1 == b)) + bitAt 30 (s.hub.safeUnits.any (fun u => u / 256 == b))
    + bitAt 28 (s.hub.badFound.any (fun x => winOf x == b)))

/-- SYS (R43 to R46, R52). -/
def sysView (s : State) (o : Nat) : Option Word :=
  if o = 0 then some 0x1024B000
  else if o = 0x20 then some (wd (maskOf ((s.hub.commits.filter (fun e => e.2.isSome)).map (fun e => e.1))))
  else if o = 0x30 then some (wd s.hub.lastCommit)
  else if o = 0x34 then some (wd (s.hub.lastCommit / 2 ^ 32))
  else if 0x40 ≤ o && o < 0xC4 then some (blkWord s ((o - 0x40) / 4))
  else none

/-- TIME (R57, R59, R81). -/
def timeView (s : State) (o : Nat) : Option Word :=
  let part (v i : Nat) : Word := wd (v / 2 ^ (32 * i))
  let ft := ftNow s
  if 0x10 ≤ o && o < 0x18 then some (part s.time.lc ((o - 0x10) / 4))
  else if 0x20 ≤ o && o < 0x2C then some (getAt 0 (ftWords ft) ((o - 0x20) / 4))
  else if 0x30 ≤ o && o < 0x3C then some (part ft ((o - 0x30) / 4))
  else if 0x40 ≤ o && o < 0x4C then some (part s.time.offset ((o - 0x40) / 4))
  else if o = 0x50 then some (rateWords s.time.rate).1
  else if o = 0x54 then some (rateWords s.time.rate).2
  else if o = 0x60 then some (wd s.time.stepCnt)
  else if 0x100 ≤ o && o < 0x200 && o % 0x40 = 0x1C then
    some (lv s (0x40060000 + o) ||| wd (b2n (tevGet s ((o - 0x100) / 0x40)).armed))
  else if 0x300 ≤ o && o < 0x380 && o % 0x20 = 4 then
    let q := tget [] s.time.tcap ((o - 0x300) / 0x20)
    some (wd (q.length + bitAt 8 (match q with
      | e :: _ => e.rising
      | [] => false)))
  else none

/-- GRAT (R66 to R68, R83). -/
def gratView (s : State) (o : Nat) : Option Word :=
  if o = 0x10 then some (wd s.grat.cycle)
  else if o = 0x14 then some (wd (s.grat.cycle / 2 ^ 32))
  else if o = 0x18 then some (wd (nsInCycle s % 65536 * 65536 + windowNow s))
  else if o = 0x44 then some (lv s 0x40070044 ||| wd (b2n s.grat.armed))
  else if o = 0x48 then some (wd s.grat.shownCyc)
  else if o = 0x4C then some (wd (s.grat.shownCyc / 2 ^ 32))
  else none

/-- BOOT (R438, R439, R440).
[DEDUCED, unsafe: log entry 99] -/
def bootView (s : State) (o : Nat) : Option Word :=
  if o = 0 then
    some (wd (bitAt 31 (isSealed s) + bitAt 30 (!keyLock s) + bitAt 29 s.boot.warm + bitAt 28 s.boot.wait + s.boot.source * 2 ^ 24))
  else if o = 0x10 then some (wd (otpRollback s * 65536 + lf s 0x40030010 0 7))
  else if o = 0x20 then some (lv s 0x40030020 ||| wd (bitAt 1 s.boot.flash.isSome))
  else none

/-- HOST (R391, R394). -/
def hostView (s : State) (o : Nat) : Option Word :=
  if o = 0x0C then some (lv s 0x4004000C ||| wd (bitAt 2 s.boot.wait))
  else if o = 0x2C then some (wd s.boot.stream.length)
  else none

/-- BMX (R463).
[DEDUCED, unsafe: log entry 108] -/
def bmxView (s : State) (o : Nat) : Option Word :=
  if o = 8 then
    some (wd (b2n (lf s 0x401F0000 0 2 % 3 == 0 && lf s 0x401F0004 0 15 != 0)))
  else none

/-- The words that show state rather than a stored copy, by window (R31). -/
def regView (s : State) (b o : Nat) : Option Word :=
  if b = 0 then sysView s o
  else if b = 1 then (match recAt s (winBase b + o) with
    | some (r, w) => some (recWord r w)
    | none => fltView s o)
  else if b = 3 then bootView s o
  else if b = 4 then hostView s o
  else if b = 5 then cmpView s o
  else if b = 6 then timeView s o
  else if b = 7 then gratView s o
  else if 8 ≤ b && b ≤ 11 then prtView s (b - 8) o
  else if b = 12 then swxView s o
  else if b = 13 then gazView s o
  else if b = 14 then svbView s o
  else if b = 15 then pairView s o
  else if b = 16 then ingView s o
  else if b = 17 then mtxView s o
  else if b = 18 then eqsView s o
  else if b = 19 then strView s o
  else if b = 20 then silView s o
  else if 21 ≤ b && b ≤ 24 then clView s (b - 21) o
  else if b = 25 then tdmView s o
  else if b = 26 then aesView s o
  else if b = 27 then outView s o
  else if b = 28 then snsView s o
  else if b = 29 then pwrView s o
  else if b = 30 then srvView s o
  else if b = 31 then bmxView s o
  else if b = 32 then (match recAt s (winBase b + o) with
    | some (r, w) => some (recWord r w)
    | none => zepView s o)
  else none

/-- The value of a register word at its lower offset. -/
def regVal (s : State) (a : Nat) : Word :=
  match regView s (winOf a) (offOf a) with
  | some w => w
  | none => lv s a

/-- The multi-word value an address belongs to: its low word and its length (R50, R442, R475).
[DEDUCED, unsafe: log entry 26] -/
def multiAt (a : Nat) : Option (Nat × Nat) :=
  let b := winOf a
  let o := offOf a
  let at_ (low n : Nat) : Option (Nat × Nat) :=
    if low ≤ o && o < low + 4 * n then some (winBase b + low, n) else none
  let first (l : List (Nat × Nat)) : Option (Nat × Nat) := l.findSome? (fun e => at_ e.1 e.2)
  if b = 0 then first [(0x18, 2), (0x30, 2)]
  else if b = 1 then
    (if (0x20 ≤ o && o < 0x30) || (0x100 ≤ o && o < 0x140) || (0x200 ≤ o && o < 0x300) then some (a / 16 * 16, 4) else none)
  else if b = 5 then
    (if 0x200 ≤ o && o < 0x400 then first [(o / 0x40 * 0x40 + 0x0C, 3), (o / 0x40 * 0x40 + 0x18, 2)]
     else first [(0x80, 2), (0xA0, 2), (0xC4, 3), (0xEC, 2)])
  else if b = 6 then
    (if 0x100 ≤ o && o < 0x200 then at_ (o / 0x40 * 0x40 + 4) 3
     else if 0x300 ≤ o && o < 0x380 then at_ (o / 0x20 * 0x20 + 8) 3
     else first [(0x10, 2), (0x20, 3), (0x30, 3), (0x40, 3), (0x50, 2)])
  else if b = 7 then first [(0x10, 2), (0x30, 2), (0x48, 2)]
  else if 8 ≤ b && b ≤ 11 then at_ 0x42C 3
  else if b = 13 then (if 0x100 ≤ o && o < 0x180 then at_ (o / 0x20 * 0x20 + 4) 2 else at_ 4 2)
  else if b = 15 then first [(0x04, 2), (0x34, 2), (0x58, 2), (0x60, 2), (0x68, 2), (0x70, 2)]
  else if b = 30 then
    (if (0x800 ≤ o && o < 0x1040) || (0x1400 ≤ o && o < 0x1C40) || (0x2800 ≤ o && o < 0x3040) || (0x3400 ≤ o && o < 0x3C40) then
       some (a / 8 * 8, 2)
     else if 0x4000 ≤ o && o < 0x8000 then some (a / 16 * 16, 4)
     else first [(0x10, 2), (0x20, 2)])
  else if b = 32 then (if 0x400 ≤ o && o < 0x600 then some (a / 16 * 16, 4) else first [(0x100, 2), (0x150, 2)])
  else none

end Sys2Proof.Machine
end

