-- ==== Sys2Proof/Machine/Bus.lean ====
section
/-! DEFINITION. Bus accesses: who may make them, what they reach, what they do (R30 to R39, R50, R51, R433, R434,
R457, R464 to R466, R480). Every command that is a register access goes through here. -/

namespace Sys2Proof.Machine

/-- The boot window: until the seal, or until the sealed comparison of a warm boot (R416). -/
def bootWindow (s : State) : Bool := decide (s.boot.phase < 2)

/-- Does a master issue accesses at all (R416, R435)? -/
def issues (s : State) (m : Master) : Bool :=
  match m with
  | .sup => true
  | .debug => debugOn s
  | _ => !bootWindow s

/-- The firewall's answer; the boot ROM is not checked until it hands off (R430, R433).
[DEDUCED, unsafe: log entry 101] -/
def fwCheck (s : State) (m : Master) (a : Nat) (wr : Bool) : Option Nat :=
  if m = .sup && s.boot.phase < 4 then none else fwDeny s (masterId m) a wr

def sizeOf : AccSize → Nat
  | .byte => 1
  | .half => 2
  | .word => 4
  | .dword => 8

/-- Is the access a decode error: unpopulated, in a domain below ON, or of a register in another form (R30, R34, R401)? -/
def badAccess (s : State) (a : Nat) (sz : AccSize) : Bool :=
  !decodes s a || !decodes s (a + sizeOf sz - 1) || (isReg a && (a % 4 != 0 || sz != .word))

/-- Is the address P memory of a core that is neither stopped nor in reset (R175)? -/
def pBusy (s : State) (a : Nat) : Bool :=
  0x20000000 ≤ a && a < 0x20800000 && 0x30000 ≤ a % 0x40000
    && (let st := (coreGet s (a % 0x20000000 / 0x40000)).st
        st != 0 && st != 4)

/-! ### Read latches and holding registers (R50, R51) -/

/-- MARK: [DEDUCED, unsafe: log entry 26] -/
def latchPut (m : Master) (ws : List Word) (s : State) : State :=
  { s with hub.latch := tset [] s.hub.latch (latchKey m) ws }
def latchGet (s : State) (m : Master) (i : Nat) : Word := getAt 0 (tget [] s.hub.latch (latchKey m)) i

/-- The RI values of several words: low word and length (R51). -/
def riMulti (a : Nat) : Option (Nat × Nat) :=
  let o := offOf a
  let at_ (low n : Nat) : Option (Nat × Nat) :=
    if low ≤ o && o < low + 4 * n then some (a - o + low, n) else none
  match winOf a with
  | 0 => at_ 0x18 2
  | 6 => if 0x100 ≤ o && o < 0x200 then at_ (o / 0x40 * 0x40 + 4) 3 else none
  | 7 => at_ 0x30 2
  | 30 => at_ 0x10 2
  | _ => none

/-- A write of word i of an RI value of n words. -/
def holdWrite (m : Master) (low n i : Nat) (v : Word) (s : State) : State :=
  let k := latchKey m
  let h := tget {} s.hub.hold k
  let ws := if h.tag = low then h.words else []
  if i + 1 < n then
    { s with hub.hold := tset {} s.hub.hold k { tag := low, words := ws.filter (fun e => e.1 != i) ++ [(i, v)] } }
  else
    foldS (ws ++ [(i, v)]) (fun e t => setLv (low + 4 * e.1) e.2 t) { s with hub.hold := tset {} s.hub.hold k {} }

/-! ### Register reads -/

/-- What else a read of a word does: the counters that the engines keep, and the marks a read re-arms.
[DEDUCED, safe: log entry 107] -/
def readSide (a : Nat) (s : State) : State :=
  let o := offOf a
  match winOf a with
  | 12 => swxCntClear o s
  | 15 => if 0x60 ≤ o && o < 0x78 then pairCntRead s else s
  | 16 =>
    if 0x5000 ≤ o && o % 8 = 0 && o < 0x6000 then
      let i := o % 0x1000 / 8
      slotPut i { slotGet s i with margin := none } s
    else s
  | 27 => if o % 0x400 = 0x94 && o / 0x400 < 32 then xpkClear (o / 0x400) s else s
  | 29 => if o = 0x18 then setLv a 0xFFFF s else s
  | _ => s

/-- The bits of a word that a read clears.
[DEDUCED, safe: log entry 107] -/
def rcMask (a : Nat) : Nat :=
  match rowOf a with
  | some r => r.rc
  | none => 0

/-- A read of a word at its lower offset, by its access code (R35, R36). -/
def plainRead (a : Nat) (s : State) : Word × State :=
  let v := regVal s a
  let m := rcMask a
  (v, readSide a (if m = 0 then s else setLv a (lv s a &&& ~~~(wd m)) s))

/-- A register read (R32, R33, R35, R50, R52, R219, R220).
[DEDUCED, unsafe: log entry 26] -/
def regRead (m : Master) (a : Nat) (s0 : State) : Word × State :=
  let b := winOf a
  let o := offOf a
  if 0x8000 ≤ o then
    let base := lowHalf a
    if hasShadow base then
      (shv s0 base, if s0.hub.shadowBad.contains base then shadowFound base s0 else s0)
    else (0, s0)
  else
    let s := if s0.hub.liveBad.contains a then liveFix a s0 else s0
    if 21 ≤ b && b ≤ 24 && 0x40 ≤ o && o < 0xC0 then
      let r := semRead m (b - 21) ((o - 0x40) / 4) s
      let own := (semOwnerCode (b - 21) m).isSome
      (r.1, srvUp b 2 r.1.toNat (srvUp b 3 (if own then 1 - r.1.toNat else 0) r.2))
    else if 21 ≤ b && b ≤ 24 && 0x100 ≤ o && o < 0x190 && o % 16 = 0 then mbxPopFx (b - 21) ((o - 0x100) / 16) s
    else
      match multiAt a with
      | some (low, n) =>
        if a = low then
          if 8 ≤ b && b ≤ 11 then
            let r := txfTake (b - 8) s
            (getAt 0 r.1 0, latchPut m (r.1.drop 1) r.2)
          else if b = 6 && 0x300 ≤ o then
            let r := tcapTake ((o - 0x300) / 0x20) s
            (getAt 0 r.1 0, latchPut m (r.1.drop 1) r.2)
          else
            let ups := (List.range (n - 1)).map (fun i => regVal s (a + 4 * (i + 1)))
            let r := plainRead a s
            (r.1, latchPut m ups r.2)
        else (latchGet s m ((a - low) / 4 - 1), s)
      | none => plainRead a s

/-! ### Register writes -/

/-- A write lands in the shadow (R33, R35, R52); the source word of an absent destination ignores it (R141). -/
def shadowWrite (a : Nat) (v : Word) (wmask : Nat) (s : State) : State :=
  if egrUnused s a then s else
  { s with hub.shadow := tabSet resetOf s.hub.shadow a (mergeW (shv s a) v (wd wmask)),
           hub.dirty := addTo a s.hub.dirty,
           hub.shadowBad := dropFrom a s.hub.shadowBad, hub.badFound := dropFrom a s.hub.badFound }

/-- A write reaches the live copy. -/
def liveWrite (a : Nat) (v : Word) (wmask : Nat) (s : State) : State :=
  { setLv a (mergeW (lv s a) v (wd wmask)) s with hub.liveBad := dropFrom a s.hub.liveBad }

/-- The ring whose BASE or CFG word this is; while its EN = 1 both keep their values, EN apart (R305, R313). -/
def ringWord (a : Nat) : Option (Nat × Bool) :=
  let b := winOf a
  let o := offOf a
  if (8 ≤ b && b ≤ 11) || b = 14 then
    (if o = 0x40 || o = 0x50 then some (a + 4, false) else if o = 0x44 || o = 0x54 then some (a, true) else none)
  else none

/-- A write of an RI word, with the actions some of them have (R35, R341, R389, R394, R449, R474). -/
def riWrite (m : Master) (a : Nat) (v : Word) (wmask : Nat) (s : State) : State :=
  let o := offOf a
  match riMulti a with
  | some (low, n) => holdWrite m low n ((a - low) / 4) v s
  | none =>
    match ringWord a with
    | some (cfg, isCfg) =>
      if lb s cfg 31 then (if isCfg then liveWrite a v 0x80000000 s else s) else liveWrite a v wmask s
    | none =>
      if a = 0x40010030 then
        (if m = .sup then raiseWr v.toNat s else decodeErr (masterId m) a true s)
      else if winOf a = 13 && 0x100 ≤ o && o < 0x180 && o % 0x20 = 0x14 then floodArmWr ((o - 0x100) / 0x20) v s
      else if a = 0x40040018 then evOr 0x4004000C 2 (liveWrite a v wmask s)
      else if a = 0x4004001C then evOr 0x40040020 1 (liveWrite a v wmask s)
      else if a = 0x401E0048 then smpSeedFx v.toNat s
      else liveWrite a v wmask s

/-- The seal (R430): its time since the end of reset, and a pinned host address (R388). -/
def sealFx (s : State) : State :=
  pinTake (setLv 0x40030018 (wd (min 0xFFFFFFFF ((s.time.lc - s.boot.relLc) / 500))) { s with boot.wait := false })

/-- A register of the W1 kind is written for the first time (R37, R430, R450). -/
def w1Write (a : Nat) (v : Word) (wmask : Nat) (s : State) : State :=
  let t := liveWrite a v wmask { s with hub.w1Done := addTo a s.hub.w1Done }
  if a = 0x40010040 then wdogStart t
  else if a = 0x40030008 && bit v 0 then sealFx t
  else t

/-- A strobe: a write of 1 to a WS bit acts (R35). -/
def strobe (m : Master) (a v : Nat) (s : State) : State :=
  let b := winOf a
  let o := offOf a
  if b = 0 then
    (if o = 0x10 then foldS (bitsOf 32 v) (fun g t => commitReq g (lvn s 0x40000018 + lvn s 0x4000001C * 2 ^ 32) t) s
     else if o = 0x08 then (if nbit v 0 then warmReset 16 s else s)
     else if 0x100 ≤ o && o < 0x10C then frstStrobe ((o - 0x100) / 4) v s
     else s)
  else if b = 1 then
    (if o = 0x0C then whenS (nbit v 0) faultAck s
     else if o = 0x44 then whenS (nbit v 0) wdogStart s
     else s)
  else if b = 3 then
    (if o = 0x14 then whenS (nbit v 0) (rbBurnFx m) s
     else if o = 0x30 then fgoStrobe v s
     else s)
  else if b = 4 then
    (if o = 8 then whenS (nbit v 0) forgetFx s
     else if o = 0x14 then whenS (nbit v 3) (evOr 0x4004000C 8) s
     else s)
  else if b = 5 then
    (if o = 0xD0 then whenS (nbit v 0) pstepGoWr s
     else if o = 0xE4 then whenS (nbit v 0) realignGoWr s
     else s)
  else if b = 6 then (if 0x100 ≤ o && o < 0x200 && o % 0x40 = 0x20 then tevStrobe ((o - 0x100) / 0x40) (wd v) s else s)
  else if b = 7 then (if o = 0x40 then startStrobe (paired s) (wd v) s else s)
  else if 8 ≤ b && b ≤ 11 then
    (if o = 0x424 && nbit v 0 then { s with time.txDrop := tset 0 s.time.txDrop (b - 8) 0 } else s)
  else if b = 29 then (if o = 0x30 then sleepStrobe v s else s)
  else if b = 30 then
    (if o = 0x18 then srvActStrobe v s
     else if o = 0x70 then smpClrFx v s
     else s)
  else if b = 32 then
    (if o = 0x18 then whenS (nbit v 0) flogClear s
     else if o = 0x208 then whenS (nbit v 0) (otpGo m) s
     else s)
  else s

/-- A register write by its access code (R33, R35, R37, R51, R219, R220). -/
def regWrite (m : Master) (a : Nat) (v : Word) (s : State) : State :=
  let b := winOf a
  let o := offOf a
  if 0x8000 ≤ o then
    match rowOf (lowHalf a) with
    | some r => if r.acc == .rw || r.acc == .rh then shadowWrite (lowHalf a) v r.wmask s else s
    | none => s
  else if 21 ≤ b && b ≤ 24 && 0x40 ≤ o && o < 0xC0 then semWrite m (b - 21) ((o - 0x40) / 4) v s
  else if 21 ≤ b && b ≤ 24 && 0x100 ≤ o && o < 0x190 && o % 16 = 0 then
    srvUp b 4 1 (mbxPushFx (b - 21) ((o - 0x100) / 16) v s)
  else
    match rowOf a with
    | some r =>
      (match r.acc with
       | .rw => shadowWrite a v r.wmask s
       | .rh => shadowWrite a v r.wmask s
       | .ri => riWrite m a v r.wmask s
       | .rc => s
       | .rk => if isSealed s then srvUp 2 0 1 (violation (masterId m) a s) else liveWrite a v r.wmask s
       | .w1 => if s.hub.w1Done.contains a then srvUp 2 0 1 (violation (masterId m) a s) else w1Write a v r.wmask s)
    | none => strobe m a v.toNat s

/-! ### Memory -/

/-- Does the alignment ring of a slot with a source hold the address? Its words are kept as samples, not bytes.
[DESIGN CHOICE, unsafe: log entry 19] -/
def inAlignRing (s : State) (a : Nat) : Bool :=
  0x100000 ≤ a && a < 0x500000 &&
    (slotsOn s).any (fun i =>
      let b := lf s 0x40100000 16 16 * 65536 + lf s (slotBase i + 0xC) 0 14 * 64
      decide (b ≤ a) && decide (a < b + ceilDiv (slotNch s i * spc s * 4 * slotDepth s i) 64 * 64))

/-- An aligned word of memory as the bus reads it.
[DESIGN CHOICE, safe: log entry 16] [DESIGN CHOICE, unsafe: log entry 19] -/
def memWord (s : State) (w : Nat) : Nat :=
  if w < 0x20000 then draw .romByte w s % 2 ^ 32
  else if 0x30400000 ≤ w && w < 0x30500000 && 5 ≤ w % 32 / 4 then
    (sosStateWord s (w % 0x100000 / 32) (w % 32 / 4)).toNat
  else if 0x30500000 ≤ w && w < 0x30501000 && 2 ≤ w % 16 / 4 then
    (lineTabView s (w % 0x100000 / 16) (w % 16 / 4)).toNat
  else if 0x30600000 ≤ w && w < 0x30640000 && 14 ≤ w % 64 / 4 then
    (flowView s (w % 0x100000 / 64) (w % 64 / 4)).toNat
  else if 0x30700000 ≤ w && w < 0x30740000 && 0x18 ≤ w % 32 then 0
  else if inAlignRing s w then draw .ringByte w s % 2 ^ 32
  else mWord s w

/-- `n` bytes from `a` as the bus reads them, as one little-endian number; at most three words are touched. -/
def memRead (s : State) (a n : Nat) : Nat :=
  let w := a / 4 * 4
  let v := memWord s w + (if w + 4 < a + n then memWord s (w + 4) * 2 ^ 32 else 0)
    + (if w + 8 < a + n then memWord s (w + 8) * 2 ^ 64 else 0)
  v / 2 ^ (8 * (a - w)) % 2 ^ (8 * n)

/-- A memory read by master m; a word with an uncorrectable error reads as zero (R466). The state words of a section
are a 96-bit value (R50). -/
def memReadFx (m : Master) (a n : Nat) (s : State) : Nat × State :=
  match s.eccBad.find? (fun w => decide (a / 4 * 4 ≤ w) && decide (w < a + n)) with
  | some w => (0, eccRead (masterId m) w s)
  | none =>
    if 0x30400000 ≤ a && a < 0x30500000 && 5 ≤ a % 32 / 4 && n = 4 && a % 4 = 0 then
      let sec := a % 0x100000 / 32
      if a % 32 = 20 then (memRead s a n, latchPut m [sosStateWord s sec 6, sosStateWord s sec 7] s)
      else ((latchGet s m (a % 32 / 4 - 6)).toNat, s)
    else (memRead s a n, s)

/-- Does a write to the array word have no effect: a state word, a reserved word (R149, R160, R297)? -/
def arrReadOnly (a : Nat) : Bool :=
  (0x30400000 ≤ a && a < 0x30500000 && 20 ≤ a % 32)
    || (0x30500000 ≤ a && a < 0x30501000 && 8 ≤ a % 16)
    || (0x30600000 ≤ a && a < 0x30640000 && 56 ≤ a % 64)
    || (0x30700000 ≤ a && a < 0x30740000 && 0x18 ≤ a % 32)

/-- Array words that a commit takes when dirty: crosspoints, sections, line entries, flow entries (R136, R149, R160). -/
def arrCommits (a : Nat) : Bool := 0x30000000 ≤ a && a < 0x30640000

/-- The bits of an array word that are not reserved; reserved ones read 0 and ignore writes (R11, R135, R163, R328).
[DEDUCED, unsafe: log entry 25] -/
def arrMask (w : Nat) : Nat :=
  if 0x30000000 ≤ w && w < 0x30400000 then (if w % 8 = 4 then 0xFFFF else 0xFFFFFFFF)
  else if 0x30500000 ≤ w && w < 0x30501000 then getAt 0 [0x0FFFFFFF, 0x1FFF] (w % 16 / 4)
  else if 0x30600000 ≤ w && w < 0x30640000 then
    getAt 0xFFFFFFFF [0xFF0FFFFF, 0xFF7F7FDF, 0xFFFF3F3F, 0xFFFF3F3F, 0xFFFF3F3F, 0xFFFF3F3F, 0xFFFFFFFF, 0x3FFF07FF,
      0xFFFFFFFF, 0xFFFF, 0xFFFFFFFF, 0xFFFFFFFF, 0xFFFFFFFF, 0] (w % 64 / 4)
  else 0xFFFFFFFF

/-- Bytes for an array from address a, without reserved bits.
[DEDUCED, unsafe: log entry 25] -/
def arrBytes (a n v : Nat) : List Byte :=
  (leBytes n v).zipIdx.map (fun e =>
    e.1 &&& BitVec.ofNat 8 (arrMask ((a + e.2) / 4 * 4) / 2 ^ (8 * ((a + e.2) % 4))))

/-- A memory write (R72, R136, R440, R466).
[DESIGN CHOICE, safe: log entry 16] -/
def memWriteFx (a n v : Nat) (s : State) : State :=
  if a < 0x20000 || 0x50000000 ≤ a then s
  else if 0x30700000 ≤ a && a < 0x30740000 && a % 0x10000 / 0x8000 == actBank s then
    raise 0x0710 1 255 0 (evOr 0x40070024 1 s)
  else if 0x30000000 ≤ a && a < 0x31000000 then
    if arrReadOnly a then s
    else
      let t := eccWritten a n (mStores a (arrBytes a n v) s)
      if arrCommits a then
        let mark (w : Nat) (u : State) : State := { u with hub.arrDirty := addTo w u.hub.arrDirty }
        whenS (decide (a / 4 * 4 + 4 < a + n)) (mark (a / 4 * 4 + 4)) (mark (a / 4 * 4) t)
      else t
  else eccWritten a n (mStores a (leBytes n v) s)

/-! ### Accesses -/

/-- An access to a function in reset, or a read of the snapshot arrays while they fill, waits (R457, R479). -/
def waitsReset (s : State) (a : Nat) : Bool := isReg a && fnHolds s a
def waitsSnap (s : State) (a : Nat) (wr : Bool) : Bool := s.srv.busy && !wr && isReg a && inSnap a

def holdAcc (h : HeldAcc) (s : State) : State := { s with frst.held := s.frst.held ++ [h] }

/-- A checked read. -/
def readGo (m : Master) (a : Nat) (sz : AccSize) (s : State) : Nat × State :=
  if isReg a then
    let r := regRead m a s
    (r.1.toNat, r.2)
  else memReadFx m a (sizeOf sz) s

/-- A bus read by master m: its data, and what it does.
[DEDUCED, unsafe: log entry 7] -/
def busRead (m : Master) (a : Nat) (sz : AccSize) (s0 : State) : Nat × State :=
  if !issues s0 m then (0, s0)
  else
    let s := srvUp 31 0 1 s0
    match fwCheck s m a false with
    | some i => (0, fwErr (masterId m) a false i s)
    | none =>
      if badAccess s a sz then (0, decodeErr (masterId m) a false s)
      else if isReg a && winOf a == 30 && !srvMay s m false then (0, srvDeny (masterId m) a s)
      else if waitsReset s a then (0, holdAcc { master := m, addr := a } s)
      else if waitsSnap s a false then (0, { s with srv.held := s.srv.held ++ [{ master := m, addr := a }] })
      else readGo m a sz s

/-- Is a write by m to the window of `a` locked (R434)? -/
def locked (s : State) (m : Master) (a : Nat) : Bool :=
  isReg a && isSealed s && m != .sup && lb s 0x40020018 (masterId m)
    && (if winOf a < 32 then lb s 0x40020010 (winOf a) else lb s 0x40020014 0)

/-- A bus write by master m.
[DEDUCED, unsafe: log entry 7] -/
def busWrite (m : Master) (a : Nat) (sz : AccSize) (v : Nat) (s0 : State) : State :=
  if !issues s0 m then s0
  else
    let s := srvUp 31 0 1 s0
    match fwCheck s m a true with
    | some i => fwErr (masterId m) a true i s
    | none =>
      if badAccess s a sz || pBusy s a then decodeErr (masterId m) a true s
      else if isReg a && winOf a == 30 && !srvMay s m true then srvDeny (masterId m) a s
      else if locked s m a then srvUp 2 1 1 (violation (masterId m) a s)
      else if waitsReset s a then holdAcc { master := m, addr := a, wr := some (wd v) } s
      else if isReg a then regWrite m a (wd v) s
      else memWriteFx a (sizeOf sz) v s

/-- Does a read by m wait: for the end of a per-function reset, or of a snapshot (R457, R479)? -/
def readWaits (s : State) (m : Master) (a : Nat) : Bool :=
  issues s m && (fwCheck s m a false).isNone && !badAccess s a .word && !(isReg a && winOf a == 30 && !srvMay s m false)
    && (waitsReset s a || waitsSnap s a false)

/-- A register read as a command: its data is what the master receives, later where the read waits.
[DEDUCED, unsafe: log entry 7] -/
def readCmd (m : Master) (a : Nat) (s : State) : State :=
  let r := busRead m a .word s
  { r.2 with rdata := if readWaits s m a then [] else [wd r.1] }

/-- A register write as a command.
[DEDUCED, unsafe: log entry 7] -/
def writeCmd (m : Master) (a : Nat) (v : Nat) (s : State) : State := busWrite m a .word v s

/-- A held access completes. -/
def heldGo (h : HeldAcc) (s : State) : State :=
  match h.wr with
  | some v => regWrite h.master h.addr v s
  | none =>
    let r := regRead h.master h.addr s
    if h.master = .host then { r.2 with host.data := r.2.host.data ++ [r.1] }
    else { r.2 with rdata := r.2.rdata ++ [r.1] }

/-- The held accesses that no reset in progress holds any more complete, oldest first (R457).
[DEDUCED, unsafe: log entry 27] -/
def heldRelease (s : State) : State :=
  let go := s.frst.held.filter (fun h => !fnHolds s h.addr)
  foldS go heldGo { s with frst.held := s.frst.held.filter (fun h => fnHolds s h.addr) }

/-- FUNCTION_RESET_DRAIN_END. -/
def drainEndCmd (fn : Nat) (s : State) : State :=
  if s.frst.jobs.any (fun j => j.fn == fn) then heldRelease (frstDrainEnd fn s) else s

/-- A held shadow write lands (R47). -/
def heldShadowLand (s : State) : State :=
  foldS s.hub.held (fun w t => busWrite w.master w.addr.toNat .word w.val.toNat t) { s with hub.held := [] }

/-! ### Survey's own traffic (R479) -/

/-- SNAP_COMPLETE: the latched values reach the arrays, and the held reads complete. -/
def snapCompleteFx (s : State) : State :=
  if s.srv.busy then
    let held := s.srv.held
    let s1 := { s with srv.snapCtr := s.srv.latCtr, srv.snapCore := s.srv.latCore, srv.latCtr := [], srv.latCore := [],
                       srv.busy := false, srv.held := [] }
    let s2 := foldS held heldGo s1
    if lb s2 (srvB + 0x28) 0 then { s2 with srv.copy := true } else srvEvent 0 s2
  else s

/-- The words the copy of a snapshot writes, by address: eight bytes a counter, low word first. -/
def snapWords (s : State) : List (Nat × Nat) :=
  let base := lvn s (srvB + 0x28) / 64 * 64
  let two (a v : Nat) : List (Nat × Nat) := [(a, v % 2 ^ 32), (a + 4, v / 2 ^ 32)]
  (List.range 264).flatMap (fun i => two (base + 8 * i) (tget 0 s.srv.snapCtr i))
    ++ (List.range 264).flatMap (fun i => two (base + 0x840 + 8 * i) (tget 0 s.srv.snapCore i))

/-- SNAP_COPY_DONE: the copy's writes as master 12. -/
def snapCopyFx (s : State) : State :=
  if s.srv.copy then
    srvEvent 0 { foldS (snapWords s) (fun e t => busWrite .srv e.1 .word e.2 t) s with srv.copy := false }
  else s

/-- MEMORY_ECC_ERROR: the word has an uncorrectable error when master m reads it.
[DEDUCED, unsafe: log entry 35] -/
def memoryEccFx (m : Master) (a : Nat) (s : State) : State :=
  if isReg a || !decodes s a then s
  else readCmd m (a / 4 * 4) { s with eccBad := addTo (a / 4 * 4) s.eccBad }

end Sys2Proof.Machine
end

