-- ==== Sys2Proof/Machine/Crypto.lean ====
section
/-! DEFINITION. SHA-256 and ECDSA over P-256, which the boot ROM uses (R422). The spec names them; their constants are
those of the published standards (PRESUMED, log entry 98). -/

namespace Sys2Proof.Machine

/-! ### SHA-256 -/

/-- The round constants.
[PRESUMED, unsafe: log entry 98] -/
def shaK : List Nat :=
  [0x428A2F98, 0x71374491, 0xB5C0FBCF, 0xE9B5DBA5, 0x3956C25B, 0x59F111F1, 0x923F82A4, 0xAB1C5ED5] ++
  [0xD807AA98, 0x12835B01, 0x243185BE, 0x550C7DC3, 0x72BE5D74, 0x80DEB1FE, 0x9BDC06A7, 0xC19BF174] ++
  [0xE49B69C1, 0xEFBE4786, 0x0FC19DC6, 0x240CA1CC, 0x2DE92C6F, 0x4A7484AA, 0x5CB0A9DC, 0x76F988DA] ++
  [0x983E5152, 0xA831C66D, 0xB00327C8, 0xBF597FC7, 0xC6E00BF3, 0xD5A79147, 0x06CA6351, 0x14292967] ++
  [0x27B70A85, 0x2E1B2138, 0x4D2C6DFC, 0x53380D13, 0x650A7354, 0x766A0ABB, 0x81C2C92E, 0x92722C85] ++
  [0xA2BFE8A1, 0xA81A664B, 0xC24B8B70, 0xC76C51A3, 0xD192E819, 0xD6990624, 0xF40E3585, 0x106AA070] ++
  [0x19A4C116, 0x1E376C08, 0x2748774C, 0x34B0BCB5, 0x391C0CB3, 0x4ED8AA4A, 0x5B9CCA4F, 0x682E6FF3] ++
  [0x748F82EE, 0x78A5636F, 0x84C87814, 0x8CC70208, 0x90BEFFFA, 0xA4506CEB, 0xBEF9A3F7, 0xC67178F2]

/-- The initial hash value. -/
def shaInit : List Word := [0x6A09E667, 0xBB67AE85, 0x3C6EF372, 0xA54FF53A, 0x510E527F, 0x9B05688C, 0x1F83D9AB, 0x5BE0CD19]

def shaRot (x : Word) (n : Nat) : Word := x.rotateRight n

/-- The message schedule: the sixteen words of a block, then words built from the last sixteen, newest first. -/
def shaExpand : Nat → List Word → List Word
  | 0, l => l
  | n + 1, l =>
    let w (i : Nat) : Word := getAt 0 l (i - 1)
    let s0 := shaRot (w 15) 7 ^^^ shaRot (w 15) 18 ^^^ (w 15 >>> 3)
    let s1 := shaRot (w 2) 17 ^^^ shaRot (w 2) 19 ^^^ (w 2 >>> 10)
    shaExpand n ((w 16 + s0 + w 7 + s1) :: l)

/-- One round on the working variables a to h. -/
def shaRound (st : List Word) (k : Nat) (w : Word) : List Word :=
  match st with
  | [a, b, c, d, e, f, g, h] =>
    let t1 := h + (shaRot e 6 ^^^ shaRot e 11 ^^^ shaRot e 25) + ((e &&& f) ^^^ (~~~e &&& g)) + wd k + w
    let t2 := (shaRot a 2 ^^^ shaRot a 13 ^^^ shaRot a 22) + ((a &&& b) ^^^ (a &&& c) ^^^ (b &&& c))
    [t1 + t2, a, b, c, d + t1, e, f, g]
  | l => l

/-- One 64-byte block. -/
def shaBlock (h : List Word) (block : List Byte) : List Word :=
  let w0 := ((List.range 16).map (fun i => wd (beNat ((block.drop (4 * i)).take 4)))).reverse
  let ws := (shaExpand 48 w0).reverse
  let st := (shaK.zip ws).foldl (fun st e => shaRound st e.1 e.2) h
  (h.zip st).map (fun e => e.1 + e.2)

def shaBlocks : Nat → List Byte → List Word → List Word
  | 0, _, h => h
  | n + 1, l, h => shaBlocks n (l.drop 64) (shaBlock h (l.take 64))

/-- SHA-256 of a byte string, as a big-endian number.
[PRESUMED, unsafe: log entry 98] -/
def sha256 (l : List Byte) : Nat :=
  let pad := (119 - l.length % 64) % 64
  let m := l ++ [0x80#8] ++ List.replicate pad 0 ++ beBytes 8 (8 * l.length)
  (shaBlocks (m.length / 64) m shaInit).foldl (fun a w => a * 2 ^ 32 + w.toNat) 0

/-! ### P-256 -/

def ecP : Nat := 0xFFFFFFFF00000001000000000000000000000000FFFFFFFFFFFFFFFFFFFFFFFF
def ecB : Nat := 0x5AC635D8AA3A93E7B3EBBD55769886BC651D06B0CC53B0F63BCE3C3E27D2604B
def ecN : Nat := 0xFFFFFFFF00000000FFFFFFFFFFFFFFFFBCE6FAADA7179E84F3B9CAC2FC632551
def ecG : Nat × Nat :=
  (0x6B17D1F2E12C4247F8BCE6E563A440F277037D812DEB33A0F4A13945D898C296,
   0x4FE342E2FE1A7F9B8EE7EB4A7C0F9E162BCE33576B315ECECBB6406837BF51F5)

/-- b to the power e modulo m, over the low `n` bits of e. -/
def powMod (b m : Nat) : Nat → Nat → Nat
  | 0, _ => 1 % m
  | n + 1, e =>
    let h := powMod b m n (e / 2)
    h * h % m * (if e % 2 = 1 then b else 1) % m

/-- The inverse modulo a prime. -/
def invMod (a m : Nat) : Nat := powMod (a % m) m 256 (m - 2)

/-- Affine points; none is the point at infinity. -/
abbrev EcPt := Option (Nat × Nat)

def ecSub (a b : Nat) : Nat := (a + ecP - b % ecP) % ecP

/-- The third point of a chord or tangent of slope l, mirrored. -/
def ecThird (l x1 y1 x2 : Nat) : EcPt :=
  let x := ecSub (ecSub (l * l % ecP) x1) x2
  some (x, ecSub (l * ecSub x1 x % ecP) y1)

def ecAdd (p q : EcPt) : EcPt :=
  match p, q with
  | none, q => q
  | p, none => p
  | some (x1, y1), some (x2, y2) =>
    if x1 = x2 then
      if (y1 + y2) % ecP = 0 then none
      else ecThird ((3 * x1 * x1 + (ecP - 3)) % ecP * invMod (2 * y1) ecP % ecP) x1 y1 x2
    else ecThird (ecSub y2 y1 * invMod (ecSub x2 x1) ecP % ecP) x1 y1 x2

/-- k times a point, over the low `n` bits of k. -/
def ecMul (p : EcPt) : Nat → Nat → EcPt
  | 0, _ => none
  | n + 1, k =>
    let h := ecMul p n (k / 2)
    let d := ecAdd h h
    if k % 2 = 1 then ecAdd d p else d

/-- Is the point on the curve? -/
def ecOn (x y : Nat) : Bool :=
  decide (x < ecP) && decide (y < ecP) && y * y % ecP == (x * x * x + (ecP - 3) * x + ecB) % ecP

/-- ECDSA verification (R422).
[PRESUMED, unsafe: log entry 98] -/
def ecdsaOk (x y r s e : Nat) : Bool :=
  ecOn x y && decide (1 ≤ r) && decide (r < ecN) && decide (1 ≤ s) && decide (s < ecN) &&
    (let w := invMod s ecN
     match ecAdd (ecMul (some ecG) 256 (e * w % ecN)) (ecMul (some (x, y)) 256 (r * w % ecN)) with
     | none => false
     | some (px, _) => px % ecN == r)

end Sys2Proof.Machine
end

