-- ==== Sys2Proof/Machine/Boot.lean ====
section
/-! DEFINITION. The boot ROM: sources, the Cartouche and its checks, application and seal, hand-off (R414 to R431). -/

namespace Sys2Proof.Machine

/-! ### The image (R419 to R421) -/

/-- A big-endian field of an image. -/
def imgN (l : List Byte) (i n : Nat) : Nat := beNat ((l.drop i).take n)

/-- A section table entry. -/
structure Sec where
  kind : Nat
  off  : Nat
  size : Nat
  arg  : Nat
  res  : Nat
  deriving DecidableEq, Repr

def imgNsec (l : List Byte) : Nat := imgN l 6 2
def imgHlen (l : List Byte) : Nat := 0xC0 + 16 * imgNsec l
def imgLen (l : List Byte) : Nat := imgN l 0xC 4
def imgSecs (l : List Byte) : List Sec :=
  (List.range (imgNsec l)).map (fun i =>
    let o := 0xC0 + 16 * i
    { kind := imgN l o 1, res := imgN l (o + 1) 3, off := imgN l (o + 4) 4, size := imgN l (o + 8) 4, arg := imgN l (o + 12) 4 })

/-- The words of a section. -/
def secWords (l : List Byte) (x : Sec) : List Nat := (List.range (x.size / 4)).map (fun i => imgN l (x.off + 4 * i) 4)
def secOf (l : List Byte) (kind : Nat) : List Nat :=
  match (imgSecs l).find? (fun x => x.kind == kind) with
  | some x => secWords l x
  | none => []

/-- ADDR and VALUE, or ID and VALUE, of entries of two words. -/
def pairsUp : List Nat → List (Nat × Nat)
  | a :: v :: t => (a, v) :: pairsUp t
  | _ => []

/-- All REG entries in order. -/
def imgRegs (l : List Byte) : List (Nat × Nat) :=
  ((imgSecs l).filter (fun x => x.kind == 1)).flatMap (fun x => pairsUp (secWords l x))

/-- POLICY entries in order: ID and VALUE. -/
def imgPolicy (l : List Byte) : List (Nat × Nat) := (pairsUp (secOf l 5)).map (fun e => (e.1 / 65536, e.2))

/-- A PSMAP entry: cluster, region, base, size in granules. -/
structure PsEnt where
  cl   : Nat
  reg  : Nat
  base : Nat
  size : Nat
  deriving DecidableEq, Repr

def psEnts : List Nat → List PsEnt
  | a :: b :: n :: _ :: t => { cl := a / 2 ^ 24, reg := a / 2 ^ 16 % 256, base := b, size := n } :: psEnts t
  | _ => []
def imgPs (l : List Byte) : List PsEnt := psEnts (secOf l 6)

/-- The DOMAIN section. -/
def imgDom (l : List Byte) (d : Nat) : Nat := getAt 0 (secOf l 4) (2 + d)
def planTarget (l : List Byte) (d : Nat) : Nat := nfld (imgDom l d) 0 2
def planSleep (l : List Byte) (d : Nat) : Nat := nfld (imgDom l d) 4 2
def planRamp (l : List Byte) (d : Nat) : Nat := nfld (imgDom l d) 16 12
def imgMems (l : List Byte) : List Sec := (imgSecs l).filter (fun x => x.kind == 2)

/-! ### Verification (R423) -/

/-- May a MEM section write the range (R424)? -/
def memTarget (s : State) (a n : Nat) : Bool :=
  let inside (lo hi : Nat) : Bool := decide (lo ≤ a) && decide (a + n ≤ hi)
  inside 0x44000 0xC0000 || inside 0x100000 0x4C0000 || inside 0x08000000 0x08400000 || inside 0x20000000 0x20800000
    || inside 0x10000000 0x12000000
    || (inside 0x30000000 0x30740000 && (List.range (n / 4)).all (fun i => (memDom s (a + 4 * i)).isSome))

/-- One section's SIZE and ARG (R420, R421). -/
def secOk (s : State) (x : Sec) : Bool :=
  x.res == 0 &&
    (match x.kind with
     | 1 => x.size % 8 == 0 && x.arg == 0
     | 2 => x.size % 4 == 0 && x.arg % 4 == 0 && memTarget s x.arg x.size
     | 3 => x.size == 272 && x.arg == 0
     | 4 => x.size == 68 && x.arg == 0
     | 5 => x.size % 8 == 0 && decide (x.size ≤ 8192) && x.arg == 0
     | 6 => x.size % 16 == 0 && x.arg == 0
     | 7 => x.size == 8 && x.arg % 16 == 0 && decide (0x40000 ≤ x.arg) && decide (x.arg < 0xC0000)
     | _ => false)

/-- Sections ascend and do not overlap. -/
def secsApart (len : Nat) : Nat → List Sec → Bool
  | _, [] => true
  | lo, x :: t => x.off % 16 == 0 && decide (lo ≤ x.off) && decide (x.off + x.size ≤ len) && secsApart len (x.off + x.size) t

/-- Step 7: the section table. -/
def tableOk (s : State) (l : List Byte) : Bool :=
  let xs := imgSecs l
  let count (k : Nat) : Nat := (xs.filter (fun x => x.kind == k)).length
  xs.all (secOk s) && secsApart (imgLen l) (imgHlen l) xs
    && count 3 == 1 && count 4 == 1 && count 7 == 1 && decide (count 5 ≤ 1) && decide (count 6 ≤ 1)
    && (xs.head?.map (fun x => x.kind)) == some 4 && (xs.getLast?.map (fun x => x.kind)) == some 7
    && decide ((xs.filter (fun x => x.kind != 2)).foldl (fun a x => a + x.size) 0 ≤ 0x40000)

/-- The bytes the digest covers (R422). -/
def signedBytes (l : List Byte) : List Byte := l.take 0x60 ++ (l.take (imgLen l)).drop 0xC0

/-- Step 5: the key hash (R423, R436). -/
def keyOk (s : State) (l : List Byte) : Bool :=
  let h := sha256 ((l.drop 0x20).take 64)
  let stored (b : Nat) : Nat := (List.range 8).foldl (fun a i => a * 2 ^ 32 + lvn s (b + 4 * i)) 0
  !keyLock s || (!lb s 0x40200108 1 && h == stored 0x40200110) || (!lb s 0x40200108 2 && h == stored 0x40200130)

/-- The access code of a register that a REG entry may name: none for RO, RC and WS words and for no register. -/
def regNamed (a : Nat) : Option Acc :=
  let o := offOf a
  if 21 ≤ winOf a && winOf a ≤ 24 && ((0x40 ≤ o && o < 0xC0) || (0x100 ≤ o && o < 0x190 && o % 16 = 0)) then some .ri
  else
    match rowOf a with
    | some r => if r.acc == .rc then none else some r.acc
    | none => none

/-- Is the word RK or W1? -/
def regFixed (a : Nat) : Bool := regNamed a == some .rk || regNamed a == some .w1

/-- The value a word will have: the last REG entry that names it, else its live value. -/
def planned (s : State) (l : List Byte) (a : Nat) : Nat :=
  match (imgRegs l).reverse.find? (fun e => e.1 == a) with
  | some e => (mergeW (lv s a) (wd e.2) (wd ((rowOf a).map (fun r => r.wmask) |>.getD 0))).toNat
  | none => lvn s a

/-- One REG entry (R425).
[DEDUCED, unsafe: log entry 101] -/
def regEntryOk (l : List Byte) (e : Nat × Nat) : Bool :=
  isReg e.1 && e.1 % 4 == 0 && (regNamed e.1).isSome && winOf e.1 != 2 && winOf e.1 != 3
    && e.1 != 0x40000018 && e.1 != 0x4000001C
    && (regFixed e.1 || (match winDom (winOf e.1) with
      | some d => planTarget l d == 3
      | none => true))
    && !(e.1 == 0x40070000 && nfld e.2 8 2 == 0)

/-- A POLICY entry in its range (R339, R421). -/
def policyOk (l : List Byte) (e : Nat × Nat) : Bool :=
  let refresh := ((imgPolicy l).reverse.find? (fun x => x.1 == 1)).map (fun x => x.2) |>.getD 10
  let inside (lo hi : Nat) : Bool := decide (lo ≤ e.2) && decide (e.2 ≤ hi)
  if 0x100 ≤ e.1 then true
  else match e.1 with
    | 1 => inside 1 600
    | 2 => inside (3 * refresh) 3600
    | 3 => inside 0 (2 ^ 31 - 1)
    | 4 => inside 10 10000
    | 5 => inside 100 60000
    | 6 => inside 2 65535
    | 7 => inside 1 3600
    | 8 => inside 0 2196
    | _ => false

/-- A PSMAP entry inside the memories of its cluster (R223). -/
def psOk (x : PsEnt) : Bool :=
  let inside (lo n : Nat) : Bool := decide (lo ≤ x.base) && decide (x.base + 256 * x.size ≤ lo + n)
  decide (x.cl < 4) && decide (x.reg < 8) && x.base % 256 == 0
    && (inside (0x08000000 + x.cl * 0x100000) 0x100000 || inside (0x20000000 + x.cl * 0x200000) 0x200000)

/-- No two entries overlap. -/
def psApart : List PsEnt → Bool
  | [] => true
  | x :: t => t.all (fun y => apart x.base (256 * x.size) y.base (256 * y.size)) && psApart t

/-- Step 11: the content checks (R425). -/
def contentOk (s : State) (l : List Byte) : Bool :=
  let pool := planned s l 0x40100000
  let db := planned s l 0x400D0024
  let reg (w : Nat) : Nat × Nat := (nfld w 16 16 * 65536, nfld w 0 5 * 65536)
  let inSys (r : Nat × Nat) : Bool := r.2 == 0 || (decide (0x100000 ≤ r.1) && decide (r.1 + r.2 ≤ 0x500000))
  let area (w : Nat) : Nat × Nat := (nfld w 16 15 * 1024, nfld w 0 12 * 1024)
  let xfer := area (planned s l 0x400F000C)
  let log := area (planned s l 0x400F0010)
  let total := (imgPs l).foldl (fun a x => a + 256 * x.size) 0
  (imgRegs l).all (regEntryOk l)
    && (imgMems l).all (fun x => match memDom s x.arg with
      | some d => planTarget l d != 0
      | none => true)
    && planTarget l 0 == 3 && planTarget l 1 == 3 && (List.range 15).all (fun d => planSleep l d ≤ 1)
    && inSys (reg pool) && inSys (reg db)
    && ((reg pool).2 == 0 || (reg db).2 == 0 || apart (reg pool).1 (reg pool).2 (reg db).1 (reg db).2)
    && decide (xfer.1 + xfer.2 ≤ 0x2000000) && decide (log.1 + log.2 ≤ 0x2000000)
    && (xfer.2 == 0 || log.2 == 0 || apart xfer.1 xfer.2 log.1 log.2)
    && (imgPolicy l).all (policyOk l)
    && (imgPs l).all psOk && psApart (imgPs l) && decide (total ≤ 0x200000)
    && (!nbit (planned s l 0x400F0000) 31 || decide (total + 65536 ≤ xfer.2))

/-- The PROT section's words with the registers they go to (R421). -/
def protWords (l : List Byte) : List (Nat × Nat) :=
  let w (i : Nat) : Nat := getAt 0 (secOf l 3) i
  (List.range 16).flatMap (fun r => [(fwBase r, w (4 * r)), (fwBase r + 4, w (4 * r + 1)), (fwBase r + 8, w (4 * r + 2))])
    ++ [(0x40020010, w 64), (0x40020014, w 65), (0x40020018, w 66), (0x40020000, w 67 &&& 0x17),
        (0x4002010C, w 67 / 8 % 2)]

/-- Where a PSMAP entry goes (R421). -/
def psWords (x : PsEnt) : List (Nat × Nat) :=
  [(clBase x.cl + 0x200 + 8 * x.reg, x.base), (clBase x.cl + 0x204 + 8 * x.reg, x.size)]

/-- Every RK and W1 word that the image names, with its value, but for a computed budget and default ramps (R428). -/
def fixedWords (l : List Byte) : List (Nat × Nat) :=
  (imgRegs l).filter (fun e => regFixed e.1) ++ protWords l ++ (imgPs l).flatMap psWords
    ++ [(pwrB + 0x1C, getAt 0 (secOf l 4) 0)]
    ++ (if getAt 0 (secOf l 4) 1 = 0 then [] else [(pwrB + 0x20, getAt 0 (secOf l 4) 1)])
    ++ ((List.range 15).filter (fun d => planRamp l d != 0)).map (fun d => (domReg d + 4, planRamp l d))

/-- Step 12: the sealed comparison. -/
def sealedSame (s : State) (l : List Byte) : Bool :=
  let last (a : Nat) : Nat := ((fixedWords l).reverse.find? (fun e => e.1 == a)).map (fun e => e.2) |>.getD 0
  (fixedWords l).all (fun e =>
    let m := wd ((rowOf e.1).map (fun r => r.wmask) |>.getD 0)
    wd (last e.1) &&& m == lv s e.1 &&& m)

/-- A source being tried: its bytes from the image start, and the room it has. -/
structure Source where
  bytes   : List Byte
  answers : Bool := true
  readErr : Bool := false
  room    : Nat

/-- Steps 1 to 7: the code of the first failing check, 0 for none. -/
def headCode (s : State) (x : Source) : Nat :=
  let l := x.bytes
  if !x.answers then 1
  else if imgN l 0 4 != 0x474C5831 then 2
  else if imgN l 4 2 != 1 || imgNsec l == 0 || decide (64 < imgNsec l) || imgN l 0x14 12 != 0 then 3
  else if imgLen l % 16 != 0 || decide (imgLen l < imgHlen l) || decide (0x2000000 < imgLen l) || decide (x.room < imgLen l) then 4
  else if !keyOk s l then 5
  else if decide (64 < imgN l 8 4) || decide (imgN l 8 4 < otpRollback s) then 6
  else if !tableOk s l then 7
  else 0

/-- A domain that a MEM section needs is raised before its first write (R424). -/
def bootRaise (d : Nat) (s : State) : State :=
  if domOn s d then s else domPut d { st := 3, held := 3, goal := 3, cold := true } { s with pwr.queue := dropFrom d s.pwr.queue }

/-- Step 8: the MEM sections reach their targets. -/
def memLoad (l : List Byte) (s : State) : State :=
  foldS (imgMems l) (fun x t =>
    let u := match memDom t x.arg with
      | some d => bootRaise d t
      | none => t
    foldS (List.range (x.size / 4)) (fun i v => memWriteFx (x.arg + 4 * i) 4 (leNat ((l.drop (x.off + 4 * i)).take 4)) v) u) s

/-- Steps 9 to 12, on the state that step 8 leaves. -/
def tailCode (s : State) (l : List Byte) : Nat :=
  let dig := sha256 (signedBytes l)
  if dig != imgN l 0xA0 32 then 8
  else if !ecdsaOk (imgN l 0x20 32) (imgN l 0x40 32) (imgN l 0x60 32) (imgN l 0x80 32) dig then 9
  else if !contentOk s l then 10
  else if s.boot.warm && !sealedSame s l then 11
  else 0

/-- One attempt: its code, and the state it leaves. -/
def trySource (x : Source) (s : State) : Nat × State :=
  let c := headCode s x
  if c != 0 then (c, s)
  else
    let l := x.bytes.take (imgLen x.bytes)
    if x.readErr then (1, s)
    else
      let t := srvUp 3 0 l.length (memLoad l s)
      (tailCode t l, t)

/-! ### Failure and application (R426, R429) -/

/-- clear() of R426. -/
def bootClear (s : State) : State :=
  let s1 := foldS ((List.range 15).filter (fun d => 2 ≤ d)) (fun d t => domLose d (domPut d {} t)) { s with pwr.queue := [] }
  { s1 with mem := s1.mem.filter (fun c => !((0x44000 ≤ c.1 && c.1 < 0xC0000) || (0x100000 ≤ c.1 && c.1 < 0x500000))),
            eccBad := s1.eccBad.filter (fun a => !((0x44000 ≤ a && a < 0xC0000) || (0x100000 ≤ a && a < 0x500000))) }

/-- A word written by the boot ROM, whatever the state of its domain: the hub keeps RK and W1 words (R400). -/
def romWrite (e : Nat × Nat) (s : State) : State := regWrite .sup e.1 (wd e.2) s

/-- Steps 1 and 2 of R429: protection and seal, after a cold reset.
[DEDUCED, unsafe: log entry 101] -/
def bootSeal (l : List Byte) (s : State) : State :=
  let s1 := foldS ((imgRegs l).filter (fun e => regFixed e.1)) romWrite s
  let s2 := foldS ((imgPs l).flatMap psWords) romWrite s1
  let s3 := romWrite (pwrB + 0x1C, getAt 0 (secOf l 4) 0) s2
  let s4 := if getAt 0 (secOf l 4) 1 = 0 then budgetSet s3 else romWrite (pwrB + 0x20, getAt 0 (secOf l 4) 1) s3
  let s5 := foldS ((List.range 15).filter (fun d => planRamp l d != 0)) (fun d t => romWrite (domReg d + 4, planRamp l d) t) s4
  romWrite (0x40030008, 1) (foldS (protWords l) romWrite s5)

/-- Steps 1 to 3 of R429.
[DEDUCED, unsafe: log entry 101] -/
def bootApply (source : Nat) (l : List Byte) (s : State) : State :=
  let plan : BootPlan :=
    { regs := (imgRegs l).filter (fun e => !regFixed e.1), groups := getAt 0 (secOf l 7) 0,
      entry := ((imgSecs l).find? (fun x => x.kind == 7)).map (fun x => x.arg) |>.getD 0,
      policy := imgPolicy l, id := imgN l 0x10 4, rollback := imgN l 8 4, length := imgLen l }
  let s1 := if s.boot.warm then s else bootSeal l s
  let s2 := setLv 0x40030010 (wd plan.rollback) (setLv 0x4003000C (wd plan.id) s1)
  let s3 := foldS (List.range 15) (fun d t => romWrite (domReg d, planSleep l d * 16 + planTarget l d) t) s2
  commitReq (grpOf s3 29) 0
    { s3 with boot.phase := 2, boot.wait := false, boot.source := source, boot.plan := plan, boot.stream := [] }

/-- BOOT.ERR of a source: 0 slot A, 1 slot B, 2 host. -/
def bootErr (i c : Nat) (s : State) : State :=
  setLv 0x40030004 (mergeW (lv s 0x40030004) (wd (c * 2 ^ (8 * i))) (wd (0xFF * 2 ^ (8 * i)))) s

/-- Slot B's flash byte (R418). -/
def slotB (s : State) : Nat :=
  if lf s 0x40200108 16 16 = 0 then 0x1000000 else lf s 0x40200108 16 16 * 65536

/-- A flash slot as a source. -/
def flashSource (s : State) (f : FlashIn) (b : Bool) : Source :=
  let start := if b then slotB s else 0
  let room := if b then f.size.getD 0x4000000 - slotB s else slotB s
  let head := mBytes s (0x50000000 + start) 0x4C0
  { bytes := mBytes s (0x50000000 + start) (max 0x4C0 (min room (imgLen head))), answers := f.answers,
    readErr := if b then f.errB else f.errA, room := room }

/-- The sources of R426 in turn. -/
def bootRun (f : FlashIn) (s : State) : State :=
  let a := trySource (flashSource s f false) s
  let s1 := bootErr 0 a.1 a.2
  if a.1 = 0 then bootApply 1 ((flashSource s f false).bytes) s1
  else
    let s2 := bootClear s1
    let b := trySource (flashSource s2 f true) s2
    let s3 := bootErr 1 b.1 b.2
    if b.1 = 0 then bootApply 2 ((flashSource s2 f true).bytes) s3
    else { bootClear s3 with boot.phase := 1, boot.wait := true, boot.stream := [] }

/-- RESET_RELEASE (R395, R426, R429).
[DEDUCED, unsafe: log entry 102] -/
def resetReleaseFx (vsys us : Nat) (f : FlashIn) (s : State) : State :=
  if s.boot.phase = 0 then
    let t := flashTake f.cells { s with pwr.vsysBoot := vsys, boot.relLc := s.time.lc }
    bootRun f (atLc (t.time.lc + us * 500) (vsysRead vsys t))
  else s

/-- A streamed image after its LAST frame (R391, R426).
[DEDUCED, unsafe: log entry 101] -/
def streamTry (s : State) : State :=
  let l := s.boot.stream
  let r := trySource { bytes := l, room := l.length } { s with boot.wait := false }
  let t := bootErr 2 r.1 r.2
  if r.1 = 0 then bootApply 3 l t
  else { bootClear t with boot.wait := true, boot.stream := [] }

/-- BOOT_DOMAINS_ON: steps 4 and 5 of R429. -/
def bootDomainsFx (s : State) : State :=
  let up := (List.range 15).all (fun d => lf s (domReg d) 0 2 != 3 || domOn s d)
  if s.boot.phase = 2 && (tget none s.hub.commits (grpOf s 29)).isNone && up then
    let s1 := foldS s.boot.plan.regs (fun e t => busWrite .sup e.1 .word e.2 t) s
    let s2 := setLv 0x40000018 0 (setLv 0x4000001C 0 s1)
    foldS (bitsOf 32 s.boot.plan.groups) (fun g t => commitReq g 0 t) { s2 with boot.phase := 3 }
  else s

/-- The hand-off block (R431). -/
def handOffBlock (s : State) : List Nat :=
  let p := s.boot.plan
  [1, (regVal s 0x40030000).toNat, lvn s 0x40030004, p.id, p.rollback, p.length, p.policy.length, 0]
    ++ p.policy.flatMap (fun e => [e.1, e.2])

/-- Policy parameters by ID (R339). -/
def policyTake (s : State) : State :=
  foldS (s.boot.plan.policy.filter (fun e => 1 ≤ e.1 && e.1 ≤ 8))
    (fun e t => { t with gaz.par := tabSet polDefault t.gaz.par e.1 e.2 }) s

/-- Steps 6 and 7 of R429, after the boundary of the commit: the block, the zeroing, the supervisor's start. -/
def handOff (s : State) : State :=
  if s.boot.phase = 3 then
    let s1 := { s with mem := s.mem.filter (fun c => !(c.1 < 0x44000 && 0x40000 ≤ c.1) && !(0x4C0000 ≤ c.1 && c.1 < 0x500000)),
                       boot.phase := 4 }
    let s2 := mStoreWs 0x40000 (handOffBlock s) s1
    corePut 32 { coreResetRegs s2 32 with st := 2, pc := s.boot.plan.entry / 16 % 65536 } { policyTake s2 with sup := { grd := s2.sup.grd } }
  else s

end Sys2Proof.Machine
end

