-- ==== Sys2Proof/Machine/Host.lean ====
section
/-! DEFINITION. The host link: requests, execution, responses, enumeration and attention (R378 to R394). -/

namespace Sys2Proof.Machine

/-! ### Frames (R380, R381) -/

/-- One byte of CRC-16/CCITT, polynomial 0x1021. -/
def crc16Byte (c : Nat) (b : Byte) : Nat :=
  [7, 6, 5, 4, 3, 2, 1, 0].foldl (fun a i =>
    if nbit a 15 != nbit b.toNat i then (a * 2 % 65536) ^^^ 0x1021 else a * 2 % 65536) c

/-- CRC-16/CCITT, initial value 0xFFFF. -/
def crc16 (l : List Byte) : Nat := l.foldl crc16Byte 0xFFFF

/-- The bytes of a request before its CRC. -/
def frameBytes (cmd : Nat) (f : HostFrame) : List Byte :=
  beBytes 1 cmd ++ beBytes 1 f.dev.toNat ++ beBytes 4 f.addr.toNat ++ beBytes 2 f.len.toNat ++ f.data

/-- The words of a request's data, each most significant byte first. -/
def beWords : List Byte → List Word
  | a :: b :: c :: d :: t => wd (beNat [a, b, c, d]) :: beWords t
  | _ => []

def hostB : Nat := 0x40040000
def hostValid (s : State) : Bool := lb s hostB 31
def hostAddr (s : State) : Nat := lf s hostB 0 6

/-- An unmasked attention source (R389).
[DEDUCED, unsafe: log entry 94] -/
def hostAtn (s : State) : Bool := ((regVal s (hostB + 0xC)).toNat &&& lf s (hostB + 0x10) 0 4) != 0

/-- Does the host link work: SUP on, out of reset, the boot ROM running (R385, R392, R393)?
[DEDUCED, unsafe: log entry 95] -/
def hostUp (s : State) : Bool := domOn s 0 && s.pwr.sleep == 0 && s.boot.phase != 0 && !fnBusy s 73

/-- The level of HRDY: low while busy in a transaction, or for attention between transactions (R385). -/
def hrdyLow (s : State) : Bool :=
  if s.host.low then s.host.phase == 1 && !s.host.deaf else hostUp s && hostAtn s

/-- May the chip take ENUMERATE (R388)? -/
def enumMay (s : State) : Bool := !hostValid s && s.host.enumIn

/-! ### Counters and errors -/

/-- HOST.CNT counts in the byte at `lo`. -/
def hostCount (lo : Nat) (s : State) : State := ctrUp (hostB + 0x28) lo 8 s

/-- The request is over for this chip, with a response form and an error bit, its execution begun. -/
def hostBusy (form err : Nat) (s : State) : State :=
  { s with host.phase := 1, host.form := form, host.err := err, host.data := [], host.resp := [] }

/-- A request that draws nothing from this chip. -/
def hostQuiet (s : State) : State := { s with host.phase := 3, host.form := 0, host.resp := [] }

/-- A CRC failure (R382): `form` is what the chip still answers, 0 nothing. -/
def hostCrcErr (form : Nat) (s0 : State) : State :=
  let s := srvUp 4 3 1 (evOr (hostB + 0x20) 2 (hostCount 24 s0))
  if form = 0 then hostQuiet s
  else if form = 5 then { hostBusy 5 0 s with host.who := some (hostAddr s, false) }
  else hostBusy form 0x20 s

/-- A command error (R382).
[DEDUCED, unsafe: log entry 94] -/
def hostCmdErr (answers : Bool) (s0 : State) : State :=
  let s := hostCount 16 s0
  if answers then hostBusy 1 0x10 s else hostQuiet s

/-! ### Accesses (R387) -/

/-- Does an access of the host wait (R457, R479)?
[DEDUCED, unsafe: log entry 95] -/
def hostHeld (s : State) : Bool :=
  s.frst.held.any (fun h => decide (h.master = .host)) || s.srv.held.any (fun h => decide (h.master = .host))

/-- One 32-bit access; a read that waits returns its word later.
[DEDUCED, unsafe: log entry 95] -/
def hostAccess (x : Nat × Option Word) (s : State) : State :=
  match x.2 with
  | some v => srvUp 4 2 1 (busWrite .host x.1 .word v.toNat s)
  | none =>
    let r := busRead .host x.1 .word s
    let t := srvUp 4 1 1 r.2
    if hostHeld t then t else { t with host.data := t.host.data ++ [wd r.1] }

/-- The accesses in order, until one waits.
[DEDUCED, unsafe: log entry 93] -/
def hostRun : List (Nat × Option Word) → State → State
  | [], s => { s with host.todo := [] }
  | x :: t, s => if hostHeld s then { s with host.todo := x :: t } else hostRun t (hostAccess x s)

/-! ### Requests -/

/-- Is a request received now: HCS_N low, the chip awake, no earlier request in this transaction? -/
def hostTakes (s : State) : Bool := s.host.low && !s.host.deaf && hostUp s && s.host.phase == 0

/-- What the DEV byte means to this chip: `none` not addressed, else whether the frame is a broadcast. -/
def hostDev (s : State) (d : Nat) : Option Bool :=
  if d = 0x7F then some true
  else if d < 64 && hostValid s && hostAddr s == d then some false
  else none

/-- A request frame: its own data length, the address, the CRC (R380, R382). `crcForm` is the response of a
broadcast frame whose CRC failed; `act` gets whether the frame is a broadcast.
[DEDUCED, unsafe: log entry 93] -/
def hostFrame (cmd : Nat) (f : HostFrame) (crcForm : State → Nat) (act : Bool → State → State) (s : State) : State :=
  let n := if cmd = 2 || cmd = 6 then 4 * f.len.toNat else 0
  if !hostTakes s || f.data.length != n then s
  else
    let t := srvUp 4 0 1 s
    match hostDev t f.dev.toNat with
    | none => hostQuiet t
    | some bc =>
      if crc16 (frameBytes cmd f) = f.crc.toNat then act bc t
      else hostCrcErr (if bc then crcForm t else 1) t

/-- LEN and ADDR of READ and WRITE. -/
def spanOk (f : HostFrame) : Bool :=
  decide (1 ≤ f.len.toNat) && decide (f.len.toNat ≤ 1024) && f.addr.toNat % 4 == 0

/-- READ. -/
def hostReadFx (f : HostFrame) (s : State) : State :=
  hostFrame 1 f (fun _ => 0) (fun bc t =>
    if bc || !spanOk f || bootWindow t then hostCmdErr true t
    else hostRun ((List.range f.len.toNat).map (fun i => (f.addr.toNat + 4 * i, none))) (hostBusy 2 0 t)) s

/-- WRITE; a broadcast reaches every chip with a valid address. -/
def hostWriteFx (f : HostFrame) (s : State) : State :=
  hostFrame 2 f (fun _ => 0) (fun bc t =>
    if bc && !hostValid t then hostQuiet t
    else if !spanOk f || bootWindow t then hostCmdErr (!bc) t
    else
      let ws := beWords f.data
      hostRun (((List.range ws.length).zip ws).map (fun e => (f.addr.toNat + 4 * e.1, some e.2)))
        (hostBusy (if bc then 0 else 1) 0 t)) s

/-- READ_STATUS. -/
def readStatusFx (f : HostFrame) (s : State) : State :=
  hostFrame 3 f (fun _ => 0) (fun bc t =>
    if bc || f.addr != 0 || f.len != 0 then hostCmdErr true t else hostBusy 3 0 t) s

/-- ENUMERATE (R388). -/
def enumerateFx (f : HostFrame) (s : State) : State :=
  hostFrame 4 f (fun _ => 0) (fun bc t =>
    if !bc then hostCmdErr true t
    else if !enumMay t then
      (if f.len != 0 || decide (64 ≤ f.addr.toNat) then hostCmdErr false t else hostQuiet t)
    else if f.len != 0 || decide (64 ≤ f.addr.toNat) then hostCmdErr true t
    else
      evOr (hostB + 0x20) 8
        { hostBusy 4 0 (setLv hostB (wd (0x80000000 + f.addr.toNat)) t) with host.rise := true }) s

/-- WHO_CALLS (R390): the level is that of the attention pull before the transaction.
[DEDUCED, unsafe: log entry 94] -/
def whoCallsFx (f : HostFrame) (s : State) : State :=
  let answer (level : Bool) (t : State) : State :=
    if hostValid t then { hostBusy 5 0 t with host.who := some (hostAddr t, level) } else hostQuiet t
  hostFrame 5 f (fun t => if hostValid t then 5 else 0) (fun bc t =>
    if !bc || f.addr != 0 || f.len != 0 then hostCmdErr (hostValid t) t else answer (hostAtn t) t) s

/-- BOOT_STREAM (R391).
[DEDUCED, unsafe: log entry 101] -/
def bootStreamFx (f : HostFrame) (s : State) : State :=
  hostFrame 6 f (fun _ => 0) (fun bc t =>
    let off := f.addr.toNat % 2 ^ 31
    let n := f.len.toNat
    if bc || !t.boot.wait || n = 0 || decide (1024 < n) || off != t.boot.stream.length || decide (0x2000000 < off + 4 * n) then
      hostCmdErr true t
    else
      let u := { hostBusy 1 0 t with boot.stream := t.boot.stream ++ f.data }
      if nbit f.addr.toNat 31 then streamTry u else u) s

/-! ### Execution and response (R383 to R386) -/

/-- The STATUS byte (R384).
[DEDUCED, unsafe: log entry 93] -/
def statusByte (err : Nat) (s : State) : Byte :=
  BitVec.ofNat 8 (0x80 + bitAt 6 (hostAtn s) + err + bitAt 3 s.boot.wait + bitAt 2 (isSealed s))

/-- A response with its CRC. -/
def withCrc (l : List Byte) : List Byte := l ++ beBytes 2 (crc16 l)

/-- The response of a request. -/
def hostReply (s : State) : List Byte :=
  let st := statusByte s.host.err s
  match s.host.form with
  | 1 => withCrc [st]
  | 2 => withCrc (st :: s.host.data.flatMap (fun w => beBytes 4 w.toNat))
  | 3 => withCrc (st :: beBytes 8 (ownUid s) ++ beBytes 4 (regVal s (hostB + 0xC)).toNat
           ++ beBytes 4 (regVal s 0x40070010).toNat)
  | 4 => withCrc (st :: beBytes 8 (ownUid s))
  | _ => []

/-- HOST_EXEC_DONE after `us` microseconds: HRDY is released and the response begins, once no access waits.
[DEDUCED, unsafe: log entry 93] -/
def hostDoneFx (us : Nat) (s0 : State) : State :=
  if s0.host.phase != 1 && s0.host.todo.isEmpty then s0
  else
    let s1 := srvUp 4 4 us (atLc (s0.time.lc + us * 500) s0)
    let s := if hostHeld s1 then s1 else hostRun s1.host.todo s1
    if hostHeld s || !s.host.todo.isEmpty || s.host.phase != 1 then s
    else if s.host.form = 0 then { s with host.phase := 3 }
    else { s with host.phase := 2, host.resp := hostReply s }

/-! ### Transactions -/

/-- HCS_N falls: every chip releases its attention pull. -/
def transStartFx (s : State) : State :=
  if s.host.low then s
  else { s with host.low := true, host.deaf := !hostUp s, host.phase := if hostUp s then 0 else 3, host.form := 0,
                host.err := 0, host.resp := [], host.who := none }

/-- HCS_N rises: ENUM_OUT of a chip that took an address rises. -/
def hcsRise (s : State) : State :=
  { s with host.low := false, host.deaf := false, host.phase := 3, host.form := 0, host.resp := [], host.who := none,
           host.enumOut := s.host.enumOut || s.host.rise, host.rise := false }

/-- TRANSACTION_END: HCS_N rises after the response, or with nothing left to do. -/
def transEndFx (s : State) : State :=
  if s.host.low && (s.host.deaf || s.host.phase == 2 || s.host.phase == 3) then hcsRise s else s

/-- TRANSACTION_ABORT: HCS_N rises during the request, the execution or the response. -/
def transAbortFx (s : State) : State :=
  if s.host.low && !s.host.deaf && s.host.phase != 3 then
    hcsRise (whenS (s.host.phase == 0) (fun t => evOr (hostB + 0x20) 4 (hostCount 8 t)) s)
  else s

/-- WAKE_HCS_N: a falling edge wakes a sleeping chip, which takes no part in the transaction (R393, R408). -/
def wakeHcsFx (s : State) : State :=
  let fall := { s with host.low := true, host.deaf := true, host.phase := 3 }
  if s.pwr.sleep = 0 || s.host.low then s
  else if !wakeOn s 0 then fall
  else if s.pwr.sleep = 1 then srvUp 32 0 1 (wakeListen 1 fall)
  else coldReset 64 { fall with pwr.wakeSrc := 1 }

end Sys2Proof.Machine
end

