-- ==== Sys2Proof/Machine/Supervisor.lean ====
section
/-! DEFINITION. The supervisor's privileged extension: system registers, the memory guard, interrupt lines, frames,
exceptions (R205 to R210). -/

namespace Sys2Proof.Machine

/-- USER mode. -/
def supUser (s : State) : Bool := bit s.sup.sstat 0
def supIpl (s : State) : Nat := fld s.sup.sstat 4 4
def supIe (s : State) : Bool := bit s.sup.sstat 8

/-- SSTAT with a mode and an IPL. -/
def sstatWith (user : Bool) (ipl : Nat) (w : Word) : Word :=
  (w &&& ~~~0xF1#32) ||| wd (b2n user + ipl % 16 * 16)

/-! ### The memory guard (R208) -/

/-- The kind of an access that the guard checks. -/
inductive GuardKind where
  | read | write | fetch
  deriving DecidableEq, Repr

/-- The lowest enabled region that holds the address. -/
def guardHit (s : State) (a : Nat) : Option Nat :=
  (List.range 8).find? (fun g =>
    let base := (tget 0 s.sup.grd (2 * g)).toNat
    let lim := (tget 0 s.sup.grd (2 * g + 1)).toNat
    nbit lim 0 && decide (base / 32 ≤ a / 32) && decide (a / 32 ≤ lim / 32))

/-- Does the guard deny the access? -/
def guardDenies (s : State) (user : Bool) (k : GuardKind) (a : Nat) : Bool :=
  match guardHit s a with
  | none => user
  | some g =>
    let base := tget 0 s.sup.grd (2 * g)
    match user, k with
    | true, .read => !bit base 0
    | true, .write => !bit base 1
    | true, .fetch => !bit base 2
    | false, .write => !bit base 3
    | false, _ => false

/-! ### Interrupt lines (R209) -/

/-- The EVENT words of a register window, each with the word that enables its bits. -/
def windowEvents (b : Nat) : List (Nat × Nat) :=
  let one (e n : Nat) : List (Nat × Nat) := [(winBase b + e, winBase b + n)]
  if b = 1 || b = 18 || b = 20 || b = 29 || b = 30 then one 4 8
  else if b = 4 then one 0x20 0x24
  else if b = 5 || (21 ≤ b && b ≤ 24) then one 0xC 0x10
  else if (8 ≤ b && b ≤ 11) || b = 16 then one 8 0xC
  else if b = 12 then one 0x18 0x1C
  else if b = 13 then one 0x1C 0x20
  else if b = 14 then one 0x14 0x18
  else if b = 15 then one 0x44 0x48
  else if b = 25 then (List.range 8).flatMap (fun n => one (n * 0x1000 + 0x20) (n * 0x1000 + 0x24))
  else if b = 26 then (List.range 8).flatMap (fun n => one (n * 0x100 + 0x10) (n * 0x100 + 0x14))
  else if b = 27 then one 0x304 0x308 ++ (List.range 32).flatMap (fun n => one (n * 0x400 + 0x20) (n * 0x400 + 0x24))
  else []

/-- Attention of a register window. -/
def attention (s : State) (b : Nat) : Bool := (windowEvents b).any (fun e => (lv s e.1 &&& lv s e.2) != 0)

/-- Is an interrupt line asserted? -/
def linePending (s : State) (i : Nat) : Bool :=
  if i ≤ 32 then attention s i
  else if i ≤ 36 then !(tget [] (clGet s (i - 33)).mbx 8).isEmpty
  else if i = 37 then s.sup.strobe
  else if i = 38 then s.sup.tick
  else false

def linePri (s : State) (i : Nat) : Nat := fld (tget 0 s.sup.ipri (i / 8)) (i % 8 * 4) 4

/-- Is the line pending and enabled, with a priority above IPL? Priority 0 is never above it. -/
def lineAbove (s : State) (i : Nat) : Bool :=
  nbit s.sup.ien i && decide (supIpl s < linePri s i) && linePending s i

/-- The line that would be taken: the highest priority, of equals the lowest number.
[DEDUCED, unsafe: log entry 58] -/
def bestLine (s : State) : Option Nat :=
  ((List.range 39).filter (lineAbove s)).foldl (fun r i =>
    match r with
    | none => some i
    | some j => if linePri s j < linePri s i then some i else some j) none

/-- IPEND: 32 lines from `lo`. -/
def pendWord (s : State) (lo : Nat) : Word := wd (maskOf ((List.range 32).filter (fun i => linePending s (lo + i))))

/-! ### System registers (R207) -/

/-- Is there a system register of this number?
[DEDUCED, unsafe: log entry 59] -/
def sysKnown (n : Nat) : Bool := n ≤ 5 || (8 ≤ n && n ≤ 11) || (16 ≤ n && n < 24) || (32 ≤ n && n < 48)

def sysRead (s : State) (n : Nat) : Word :=
  let x := s.sup
  if n = 0 then x.sstat
  else if n = 1 then x.vbase
  else if n = 2 then x.ssp
  else if n = 3 then x.epc
  else if n = 4 then x.ecause
  else if n = 5 then x.eaddr
  else if n = 8 then wd x.ien
  else if n = 9 then wd (x.ien / 2 ^ 32)
  else if n = 10 then pendWord s 0
  else if n = 11 then pendWord s 32
  else if 16 ≤ n && n < 24 then tget 0 x.ipri (n - 16)
  else if 32 ≤ n && n < 48 then tget 0 x.grd (n - 32)
  else 0

/-- A write of a system register; read-only registers and locked guard regions ignore it.
[DEDUCED, unsafe: log entry 59] -/
def sysWrite (n : Nat) (v : Word) (s : State) : State :=
  let x := s.sup
  if n = 0 then { s with sup.sstat := v &&& 0x1F1#32 }
  else if n = 1 then { s with sup.vbase := v }
  else if n = 2 then { s with sup.ssp := v }
  else if n = 8 then { s with sup.ien := x.ien / 2 ^ 32 * 2 ^ 32 + v.toNat }
  else if n = 9 then { s with sup.ien := v.toNat * 2 ^ 32 + x.ien % 2 ^ 32 }
  else if 16 ≤ n && n < 24 then { s with sup.ipri := tset 0 x.ipri (n - 16) v }
  else if 32 ≤ n && n < 48 then
    let g := (n - 32) / 2
    if bit (tget 0 x.grd (2 * g)) 4 then s
    else { s with sup.grd := tset 0 x.grd (n - 32) (if n % 2 = 0 then v else v &&& ~~~(0x1E#32)) }
  else s

/-! ### Frames (R209) -/

/-- The 16 words of a frame.
[DEDUCED, unsafe: log entry 56] -/
def frameWords (s : State) (x : NCore) : List Nat :=
  let ls := x.levels.reverse
  let at_ (f : RepLevel → Nat) (i : Nat) : Nat := (ls[i]?.map f).getD 0
  [x.pc, s.sup.sstat.toNat, x.flags.toNat] ++ (List.range 4).map (at_ RepLevel.lc)
    ++ (List.range 4).flatMap (fun i => [at_ RepLevel.start i, at_ RepLevel.stop i])
    ++ [x.levels.length + x.rdep * 256]

/-- Push a frame; none is a double fault: a misaligned SSP, or a guard violation on the frame area (R210).
[DEDUCED, unsafe: log entry 56] [DEDUCED, unsafe: log entry 57] -/
def framePush (x : NCore) (s : State) : Option State :=
  let a := (s.sup.ssp - 64).toNat
  if s.sup.ssp.toNat % 64 != 0 || guardDenies s false .write a || guardDenies s false .write (a + 32) then none
  else
    let ws := frameWords s x
    let t := if inSupRam a then eccWritten a 64 (mStoreWs a ws s)
      else foldS ((List.range 16).zip ws) (fun e u => busWrite .sup (a + 4 * e.1) .word e.2 u) s
    some { t with sup.ssp := s.sup.ssp - 64 }

/-- The open levels a frame restores, innermost first. What a frame does not hold of a level that is still open stays.
[DEDUCED, unsafe: log entry 57] -/
def frameLevels (x : NCore) (w : Nat → Nat) : List RepLevel :=
  let old := x.levels.reverse
  ((List.range (min 4 (w 15 % 8))).map (fun i =>
    let o := old[i]?.getD { start := 0, stop := 0, lc := 0, dep := w 15 / 256 % 16, first := false }
    { o with start := w (7 + 2 * i), stop := w (8 + 2 * i), lc := w (3 + i) })).reverse

/-- IRET: pop the frame and restore everything in it.
[DEDUCED, unsafe: log entry 57] [DEDUCED, unsafe: log entry 61] -/
def framePop (s : State) : State :=
  let a := s.sup.ssp.toNat
  let w (i : Nat) : Nat := memWord s (a + 4 * i)
  let x := coreGet s 32
  corePut 32 { x with pc := w 0 % 65536, flags := wd (w 2) &&& 0x1FF#32, levels := frameLevels x w, rdep := min 8 (w 15 / 256 % 16) }
    { s with sup.sstat := wd (w 1) &&& 0x1F1#32, sup.ssp := s.sup.ssp + 64 }

/-! ### Entry -/

/-- A supervisor exception (R210): the frame, EPC, ECAUSE, EADDR, and the vector.
[DEDUCED, unsafe: log entry 56] [DEDUCED, unsafe: log entry 57] -/
def supException (code trapN : Nat) (eaddr : Option Nat) (s0 : State) : State :=
  let s := whenS (code == 2) (raise 0x0112 2 255 0) s0
  let x := coreGet s 32
  match framePush x s with
  | none => raise 0x0111 3 255 0 s
  | some t =>
    let up := { t.sup with sstat := sstatWith false 15 t.sup.sstat, epc := wd x.pc, ecause := wd (code + trapN * 256),
                           eaddr := (eaddr.map wd).getD t.sup.eaddr }
    corePut 32 { x with pc := (t.sup.vbase.toNat / 16 + 64 + code) % 65536, wfi := false } { t with sup := up }

/-- Does the supervisor sit between two packets, ready to be interrupted?
[DEDUCED, unsafe: log entry 58] -/
def supBetween (s : State) : Bool :=
  let x := coreGet s 32
  domOn s 0 && x.st == 2 && x.load.isNone && x.heldP.isNone

/-- INTERRUPT_ENTRY (R209): the takeable line's handler, within 24 clocks. The pending state of the strobe and the
tick ends when they are taken.
[DEDUCED, unsafe: log entry 58] -/
def interruptFx (clocks : Nat) (s : State) : State :=
  if !supBetween s || !supIe s then s
  else
    match bestLine s with
    | none => s
    | some i =>
      let x0 := coreGet s 32
      let x := { x0 with levels := x0.levels.dropWhile (fun l => l.lc == 0) }
      match framePush x s with
      | none => raise 0x0111 3 255 0 s
      | some t =>
        let up := { t.sup with sstat := sstatWith false (linePri s i) t.sup.sstat,
                               strobe := t.sup.strobe && i != 37, tick := t.sup.tick && i != 38 }
        corePut 32 { x with pc := (t.sup.vbase.toNat / 16 + i) % 65536, wfi := false, cyc := x.cyc + min 24 clocks }
          { t with sup := up }

end Sys2Proof.Machine
end

