-- ==== Sys2Proof/Machine/Narix.lean ====
section
/-! DEFINITION. A packet of a Narix core: checks and exceptions, holds, the effects of its slots, sequencing, clock
accounting and sampling (R179 to R203, R471 to R475). -/

namespace Sys2Proof.Machine

def masterOfCore (k : Nat) : Master := if k = 32 then .sup else .core (Fin.ofNat 4 (k / 8)) (Fin.ofNat 8 (k % 8))

/-- The core is the supervisor's, or a cluster core's PC width (R177, R205). -/
def pcWrap (k n : Nat) : Nat := if k = 32 then n % 65536 else n % 4096

/-- Byte address of a packet. -/
def packetAddr (k pc : Nat) : Nat := if k = 32 then pc * 16 else 0x20000000 + k * 0x40000 + 0x30000 + 16 * pc

/-- Levels whose LC has reached 0 are closed (R194). -/
def levelsOpen (l : List RepLevel) : List RepLevel := l.dropWhile (fun x => x.lc == 0)

/-- Does the level's body hold the packet?
[DEDUCED, unsafe: log entry 55] -/
def inBody (l : RepLevel) (pc : Nat) : Bool := decide (l.start ≤ pc) && decide (pc ≤ l.stop)

/-- May core k take a packet now? -/
def coreTakes (s : State) (k : Nat) : Bool :=
  let x := coreGet s k
  x.st == 2 && x.load.isNone && x.heldP.isNone && !x.sync && !x.drain
    && (k != 32 || (domOn s 0 && (!x.wfi || (bestLine s).isSome)))

/-- The guard's predicate holds (R180). -/
def guardOn (x : NCore) : Option (Bool × Fin 4) → Bool
  | none => true
  | some (neg, p) => bit x.flags (4 + p.val) != neg

/-! ### Exceptions (R202) -/

/-- Does an uncorrectable error stand in the bytes? -/
def eccIn (s : State) (a n : Nat) : Bool := s.eccBad.any (fun w => decide (a / 4 * 4 ≤ w) && decide (w < a + n))

/-- Causes met by the fetch.
[DEDUCED, unsafe: log entry 54] -/
def fetchExc (s : State) (k pc : Nat) : List Nat :=
  let range := k == 32 && !(decide (pc < 0x2000) || (decide (0x4000 ≤ pc) && decide (pc < 0xC000)))
  (if range then [0] else []) ++ (if eccIn s (packetAddr k pc) 16 then [2] else [])
    ++ (if k == 32 && guardDenies s (supUser s) .fetch (pc * 16) then [5] else [])

/-- A memory operation: slot, width, effective address, is it a store. -/
def memOp : SlotOp → Option (MemSlot × Bool × Ea × Bool)
  | .ld w slot _ ea => some (slot, !w, ea, false)
  | .st w slot _ ea => some (slot, !w, ea, true)
  | _ => none

def opBytes (dbl : Bool) : Nat := if dbl then 8 else 4

/-- Causes met by a memory operation, each with its data address. AMOD in bit-reversed mode asks the same of Ln (R184). -/
def memExc (s : State) (k : Nat) (x : NCore) (o : SlotOp) : List (Nat × Nat) :=
  match memOp o with
  | none =>
    match o with
    | .amod n j true => if eaBadLen x (.bitrev n j) then [(1, (fileGet x .a n).toNat)] else []
    | _ => []
  | some (slot, dbl, ea, st) =>
    let a := (eaAddr x ea).toNat
    (if eaBadLen x ea || accessBad k slot dbl a then [(1, a)] else [])
      ++ (if !st && isLocal k a && eccIn s (localAddr k a) (opBytes dbl) then [(2, a)] else [])
      ++ (if k == 32 && guardDenies s (supUser s) (if st then .write else .read) a then [(5, a)] else [])

/-- Where a JMP goes. -/
def jmpPc (k : Nat) (x : NCore) : JmpTarget → Nat
  | .imm t => pcWrap k t.toNat
  | .reg v => pcWrap k (vGet x v).toNat

/-- Causes met by a control operation (R189, R194, R195, R206). A body is active at the packets it holds. -/
def ctlExc (k : Nat) (x : NCore) : SlotOp → List Nat
  | .jmp t =>
    match x.levels.find? (fun l => inBody l x.pc) with
    | some l => if inBody l (jmpPc k x t) then [] else [0]
    | none => []
  | .call _ => if 8 ≤ x.rdep then [3] else []
  | .ret => if x.rdep = 0 || (tget (0, 0) x.rstk (x.rdep - 1)).2 < x.levels.length then [0] else []
  | .rep _ stop =>
    (if x.levels.any (fun l => inBody l x.pc && decide (l.stop ≤ pcWrap k stop.toNat)) then [0] else [])
      ++ (if 4 ≤ x.levels.length then [3] else [])
  | .trap _ => [6]
  | _ => []

/-- MOVS names a system register that exists, and IRET finds its frame (R207, R209). -/
def supExc (s : State) : SlotOp → List (Nat × Option Nat)
  | .movs (.read _ n) | .movs (.write n _) => if sysKnown n then [] else [(0, none)]
  | .iret =>
    let a := s.sup.ssp.toNat
    (if a % 64 != 0 then [(1, some a)] else []) ++ (if eccIn s a 64 then [(2, none)] else [])
  | _ => []

/-- Every cause of the packet, with data addresses.
[DEDUCED, unsafe: log entry 54] -/
def packetExc (s : State) (k : Nat) (x : NCore) (active : Bool) (ops : List SlotOp) : List (Nat × Option Nat) :=
  (if packetIllegal k (supUser s) ops then [(0, none)] else [])
    ++ (fetchExc s k x.pc).map (fun c => (c, none))
    ++ (if active then
          (ops.flatMap (ctlExc k x)).map (fun c => (c, none)) ++ (ops.flatMap (memExc s k x)).map (fun e => (e.1, some e.2))
            ++ (if k = 32 then ops.flatMap (supExc s) else [])
        else [])

/-- The cause recorded: the lowest code. -/
def lowestExc (l : List (Nat × Option Nat)) : Option (Nat × Option Nat) :=
  l.foldl (fun r e =>
    match r with
    | none => some e
    | some d => if e.1 < d.1 then some e else some d) none

def trapOf (ops : List SlotOp) : Nat :=
  (ops.findSome? (fun o => match o with
    | .trap n => some n.val
    | _ => none)).getD 0

/-! ### Slots -/

/-- A result that lands at clock t. -/
def fly (t r : Nat) (v : Word) (c : NCore) : NCore := { c with flight := flightAdd { land := t, reg := r, val := v } c.flight }

/-- A result and its FLAGS. -/
def aluOut (t r : Nat) (p : Word × Word) (c : NCore) : NCore := { fly (t + 1) r p.1 c with flags := p.2 }

/-- An accumulator takes a sum, visible to extraction three clocks later.
[DEDUCED, unsafe: log entry 61] -/
def accPut (t n : Nat) (v : Int) (c : NCore) : NCore :=
  { c with acc := tset 0 c.acc n (wrap72 v), accVis := tset 0 c.accVis n (t + 3) }

/-- Extraction of one accumulator. -/
def extractTo (t : Nat) (rounding : Bool) (sh : Nat) (x : NCore) (n d : Nat) (c : NCore) : NCore :=
  let e := extract rounding sh (accGet x n)
  let c1 := fly (t + 3) d e.1 c
  if e.2 then fly (t + 3) 32 0 c1 else c1

def pairNums (p : Bool) (n : Nat) : List Nat := if p then [n, n + 1] else [n]

/-- What MRD reads (R191). -/
def mrdVal (t : Nat) (x : NCore) : MrdSrc → Word
  | .file f n => fileGet x f n
  | .lc n => wd ((x.levels.reverse[n.val]?.map RepLevel.lc).getD 0)
  | .flags => x.flags
  | .cyc => wd t
  | .accLo n => wd (unsgn 72 (accGet x n))
  | .accHi n => wd (unsgn 72 (accGet x n) / 2 ^ 32)
  | .accTop n => wd (unsgn 32 (sgn 8 (unsgn 72 (accGet x n) / 2 ^ 64)))

def shiftAmt (x : NCore) : ShAmt → Nat
  | .imm n => n.val
  | .reg v => fld (vGet x v) 0 5

/-- The register effect of one operation issued at clock t; sources come from `x`, the registers at issue (R180). -/
def opFx (s : State) (t : Nat) (x : NCore) (o : SlotOp) (c : NCore) : NCore :=
  let v (r : VReg) : Word := vGet x r
  let v1 (r : VReg) : Word := vGet x (r.val + 1)
  match o with
  | .cx op p a b mode cj =>
    let q := cxProd mode cj (v a) (v1 a) (v b) (v1 b)
    let re0 := if op = .cmul then 0 else accGet x p
    let im0 := if op = .cmul then 0 else accGet x (p.val + 1)
    let sg : Int := if op = .cmsub then -1 else 1
    accPut t (p.val + 1) (im0 + sg * q.2) (accPut t p (re0 + sg * q.1) c)
  | .re op n a b mode =>
    let q := prod mode (v a) (v b)
    accPut t n (match op with
      | .mac => accGet x n + q
      | .msub => accGet x n - q
      | .mul => q) c
  | .mac2 p a b mode =>
    accPut t (p.val + 1) (accGet x (p.val + 1) + prod mode (v1 a) (v1 b)) (accPut t p (accGet x p + prod mode (v a) (v b)) c)
  | .aclr pair n => (pairNums pair n).foldl (fun c i => accPut t i 0 c) c
  | .rnd pair d n sh => ((pairNums pair n).zip (pairNums pair d)).foldl (fun c e => extractTo t true sh x e.1 e.2 c) c
  | .sat pair d n sh => ((pairNums pair n).zip (pairNums pair d)).foldl (fun c e => extractTo t false sh x e.1 e.2 c) c
  | .alu2 op d a b => aluOut t d (alu2Fx op (v a) (v b) x.flags) c
  | .alu1 op d a => aluOut t d (alu1Fx op (v a) x.flags) c
  | .shift op d a n => aluOut t d (shiftFx op (v a) (shiftAmt x n) x.flags) c
  | .movi d imm => fly (t + 1) d (sextW imm) c
  | .movh d imm => fly (t + 1) d ((v d &&& 0xFFFF#32) ||| wd (imm.toNat * 65536)) c
  | .cmp cc p a b => { c with flags := flagsP x.flags p (ccHolds cc (v a) (v b)) }
  | .sel d a b p => fly (t + 1) d (if bit x.flags (4 + p.val) then v a else v b) c
  | .mrd d src => fly (t + 1) d (mrdVal t x src) c
  | .mwr a => { c with flags := v a &&& 0x1FF#32 }
  | .movs (.read d n) => fly (t + 1) d (sysRead s n) c
  | .aaddI n imm => fileSet .a n (fileGet x .a n + sextW imm) c
  | .aaddM n j => fileSet .a n (fileGet x .a n + fileGet x .m j) c
  | .amod n j rev => fileSet .a n (eaNext x (if rev then .bitrev n j else .circ n j)) c
  | .amov f n r => fileSet f n (v r) c
  | .amovi f n imm => fileSet f n (sextW imm) c
  | _ => c

/-- A local load: words from memory at issue, two clocks later in the registers. -/
def loadFx (s : State) (k t : Nat) (x : NCore) (o : SlotOp) (c : NCore) : NCore :=
  match o with
  | .ld w _ d ea =>
    let a := (eaAddr x ea).toNat
    let m := localAddr k a
    if !isLocal k a then c
    else
      let c1 := fly (t + 2) d (wd (mWord s m)) c
      if w then c1 else fly (t + 2) (d.val + 1) (wd (mWord s (m + 4))) c1
  | _ => c

/-- Post-modification of the memory slots (R183). -/
def postFx (x : NCore) (o : SlotOp) (c : NCore) : NCore :=
  match opEa o with
  | some ea => if eaModifies ea then fileSet .a (eaReg ea) (eaNext x ea) c else c
  | none => c

/-- What a store stores. -/
def storeVal (x : NCore) (w : Bool) (v : Nat) : Nat :=
  (vGet x v).toNat + (if w then 0 else (vGet x (v + 1)).toNat * 2 ^ 32)

/-- A local store. -/
def storeFx (k : Nat) (x : NCore) (o : SlotOp) (s : State) : State :=
  match o with
  | .st w _ v ea =>
    let a := (eaAddr x ea).toNat
    let n := opBytes (!w)
    if isLocal k a then eccWritten (localAddr k a) n (mStores (localAddr k a) (leBytes n (storeVal x w v)) s) else s
  | _ => s

def accSizeOf (w : Bool) : AccSize := if w then .word else .dword

/-- The posted store or the bus load of a packet, if it has one (R193). -/
def busOp (k : Nat) (x : NCore) (ops : List SlotOp) : Option (Posted ⊕ BusLoad) :=
  ops.findSome? (fun o =>
    match o with
    | .st w _ v ea =>
      let a := eaAddr x ea
      if isLocal k a.toNat then none else some (.inl { addr := a, size := accSizeOf w, val := storeVal x w v })
    | .ld w _ d ea =>
      let a := eaAddr x ea
      if isLocal k a.toNat then none else some (.inr { addr := a, d := d.val, dbl := !w })
    | _ => none)

/-- Does the packet wait for the write buffer? -/
def busWaits (x : NCore) : Option (Posted ⊕ BusLoad) → Bool
  | some (.inl _) => 4 ≤ x.posted.length
  | some (.inr _) => !x.posted.isEmpty
  | none => false

/-- The bus side of a packet. -/
def busOut (c : NCore) : Option (Posted ⊕ BusLoad) → NCore
  | some (.inl p) => { c with posted := c.posted ++ [p] }
  | some (.inr l) => { c with load := some l }
  | none => c

/-! ### Sequencing (R189, R194 to R197) -/

/-- Where a packet leads, and its added clocks. -/
structure Next where
  core  : NCore
  add   : Nat := 0
  why   : Nat := 9          -- the stall reason of the added clocks
  waste : Bool := false     -- BREAK, or a REP of count 0 (R472)

/-- Clocks of a return to the start of a body (R197). -/
def returnCost (l : RepLevel) : Nat :=
  if 64 < l.stop + 1 - l.start then 2 else if l.first && !l.hit then 1 else 0

/-- The end of a packet that no control operation diverts: the end of an iteration, or the next packet.
[DEDUCED, unsafe: log entry 55] -/
def seqNext (k : Nat) (c : NCore) : Next :=
  match c.levels with
  | l :: t =>
    if l.stop = c.pc && l.dep = c.rdep then
      if l.lc ≤ 1 then { core := { c with levels := { l with lc := 0, first := false } :: t, pc := pcWrap k (c.pc + 1) } }
      else
        { core := { c with levels := { l with lc := l.lc - 1, first := false } :: t, pc := l.start }, add := returnCost l, why := 10 }
    else { core := { c with pc := pcWrap k (c.pc + 1) } }
  | [] => { core := { c with pc := pcWrap k (c.pc + 1) } }

def repCount (x : NCore) : RepCount → Nat
  | .imm n => n.toNat
  | .reg v => (vGet x v).toNat

/-- REP: a level opens, or a count of 0 skips the body.
[DEDUCED, unsafe: log entry 55] -/
def repNext (k : Nat) (x : NCore) (n : RepCount) (stop : Nat) (c : NCore) : Next :=
  let start := pcWrap k (c.pc + 1)
  let small := decide (stop + 1 - start ≤ 64)
  if repCount x n = 0 then { core := { c with pc := pcWrap k (stop + 1) }, add := 3, waste := true }
  else
    { core := { c with pc := start, cache := if small then some start else c.cache,
                       levels := { start := start, stop := stop, lc := repCount x n, dep := c.rdep,
                                   hit := small && c.cache == some start } :: c.levels } }

/-- BREAK: the innermost level closes; with none open it leaves nothing.
[DEDUCED, unsafe: log entry 55] -/
def breakNext (k : Nat) (c : NCore) : Next :=
  match c.levels with
  | l :: t => { core := { c with levels := t, pc := pcWrap k (l.stop + 1) }, add := 3, waste := true }
  | [] => seqNext k c

/-- The control operation of a packet. -/
def ctlNext (k : Nat) (x : NCore) (ops : List SlotOp) (c : NCore) : Next :=
  let go (pc : Nat) (c : NCore) : Next := { core := { c with pc := pc }, add := 3 }
  match ops.find? (fun o => slotOfOp o == .c) with
  | some (.jmp t) => go (jmpPc k x t) c
  | some (.call t) =>
    go (pcWrap k t.toNat) { c with rstk := tset (0, 0) c.rstk c.rdep (pcWrap k (c.pc + 1), c.levels.length), rdep := c.rdep + 1 }
  | some .ret =>
    let e := tget (0, 0) c.rstk (c.rdep - 1)
    go e.1 { c with rstk := tset (0, 0) c.rstk (c.rdep - 1) (0, 0), rdep := c.rdep - 1 }
  | some (.rep n stop) => repNext k x n (pcWrap k stop.toNat) c
  | some .brk => breakNext k c
  | _ => seqNext k c

/-! ### Issue -/

/-- Is the packet served by the loop cache? -/
def fromCache (x : NCore) : Bool :=
  match x.levels with
  | l :: _ => inBody l x.pc && x.cache == some l.start && (l.hit || !l.first)
  | [] => false

/-- Banks the packet uses: the supervisor's fetch first, then X, Y, Z (R174, R205). -/
def packetBanks (k : Nat) (x : NCore) (ops : List SlotOp) : List Nat :=
  let f := if k = 32 && inSupRam (x.pc * 16) && !fromCache x then [bankOf 32 (x.pc * 16), bankOf 32 (x.pc * 16 + 8)] else []
  f ++ ops.filterMap (fun o => (opEa o).bind (fun ea =>
    let a := (eaAddr x ea).toNat
    if isLocal k a then some (bankOf k a) else none))

/-- The longest latency of a packet's results, 0 with none (R188, R475).
[DEDUCED, unsafe: log entry 61] -/
def packetLat (ops : List SlotOp) : Nat :=
  ops.foldl (fun m o =>
    max m (match o with
      | .cx _ _ _ _ _ _ | .re _ _ _ _ _ | .mac2 _ _ _ _ | .aclr _ _ | .rnd _ _ _ _ | .sat _ _ _ _ => 3
      | .ld _ _ _ _ => 2
      | .alu2 _ _ _ _ | .alu1 _ _ _ | .shift _ _ _ _ | .movi _ _ | .movh _ _ | .cmp _ _ _ _ | .sel _ _ _ _ | .mrd _ _
      | .mwr _ | .movs _ | .aaddI _ _ | .aaddM _ _ | .amod _ _ _ | .amov _ _ _ | .amovi _ _ _ | .rep _ _ => 1
      | _ => if (opEa o).any eaModifies then 1 else 0)) 0

/-- The reason with the most clocks, of equals the lower code, and its clocks (R473). -/
def gapReason (g : Tab Nat) : Nat × Nat := g.foldl (fun r e => if r.2 < e.2 then e else r) (0, 0)

/-- WAIT_CYCLE, SYNC and the supervisor's own operations, after the rest of the packet (R199, R206, R221). -/
def waitFx (k : Nat) (x : NCore) (ops : List SlotOp) (s : State) : State :=
  foldS ops (fun o t =>
    let c := coreGet t k
    match o with
    | .waitCycle => if k = 32 then corePut k { c with st := 1 } t else corePut k { c with drain := true } t
    | .sync => if k != 32 && lb t (clBase (k / 8) + 0x1C) (k % 8) then corePut k { c with sync := true } t else t
    | .movs (.write n a) => sysWrite n (vGet x a) t
    | .user => { t with sup.sstat := t.sup.sstat ||| 1 }
    | .wfi => corePut k { c with wfi := true } t
    | .iret => framePop t
    | _ => t) s

/-- Survey's account of an issue at clock t (R471, R472).
[DEDUCED, unsafe: log entry 60] -/
def issueAccount (k back add : Nat) (retired waste front : Bool) (s : State) : State :=
  let s1 := srvCore k 3 back s
  let s2 := srvCore k (if retired then 0 else 1) 1 s1
  srvCore k (if waste then 1 else 2) (if waste || front then add else 0) s2

/-- The effects of a packet that raises nothing and waits for nothing. -/
def packetRun (k t back : Nat) (gap : Tab Nat) (active : Bool) (x : NCore) (ops : List SlotOp) (s : State) : State :=
  if active then
    let c1 := ops.foldl (fun c o => postFx x o (loadFx s k t x o (opFx s t x o c))) x
    let bo := busOp k x ops
    let n := ctlNext k x ops (busOut c1 bo)
    let c2 := { n.core with cyc := t + 1 + n.add, gap := if n.add = 0 then [] else [(n.why, n.add)] }
    let s1 := corePut k c2 (foldS ops (storeFx k x) s)
    let isLoad := match bo with
      | some (.inr _) => true
      | _ => false
    let s2 := whenS isLoad (srvCore k 6 1) (issueAccount k back n.add true n.waste true s1)
    let s3 := whenS (bo.isSome && k != 32) (srvUp (21 + k / 8) 1 1) s2
    let g := gapReason gap
    let lat := if isLoad then 0 else g.2 + max 1 (packetLat ops)
    waitFx k x ops (smpRetire k { core := k, reason := g.1, held := g.2, pc := x.pc, cyc := t, lat := lat, cycle := s.grat.cycle } s3)
  else
    let n := seqNext k x
    issueAccount k back n.add false false true
      (corePut k { n.core with cyc := t + 1 + n.add, gap := if n.add = 0 then [] else [(n.why, n.add)] } s)

/-- An exception of core k at clock t (R203, R210). -/
def excFx (k t back : Nat) (x : NCore) (e : Nat × Option Nat) (ops : List SlotOp) (s : State) : State :=
  let s1 := srvCore k 1 1 (srvCore k 3 back (corePut k { x with cyc := t + 1, gap := [] } s))
  if k = 32 then supException e.1 (if e.1 = 6 then trapOf ops else 0) e.2 s1 else coreHalt k e.1 s1

/-- One packet of core k: the guard of its C slot and its operations.
[DEDUCED, unsafe: log entry 53] [DEDUCED, unsafe: log entry 60] -/
def issuePacket (k : Nat) (guard : Option (Bool × Fin 4)) (ops : List SlotOp) (s : State) : State :=
  if !coreTakes s k then s
  else
    let x0 := { coreGet s k with levels := levelsOpen (coreGet s k).levels, wfi := false }
    let active := guardOn x0 guard
    let ready := if active then readyAt x0 ops else x0.cyc
    let xr := landTo ready x0
    let stalls := bankStalls (packetBanks k xr (if active then ops else []))
    let t := ready + stalls
    if k < 32 && decide ((clGet s (k / 8)).budget ≤ t) then budgetExpiryFx k s
    else
      let x := landTo t x0
      match lowestExc (packetExc s k x active ops) with
      | some e => excFx k t (t - x0.cyc) x e ops s
      | none =>
        if active && busWaits x (busOp k x ops) then corePut k { x0 with heldP := some (guard, ops) } s
        else
          let g1 := tset 0 x0.gap 2 (tget 0 x0.gap 2 + (ready - x0.cyc))
          packetRun k t (t - x0.cyc) (tset 0 g1 1 (tget 0 g1 1 + stalls)) active x ops s

/-- A packet with its own operation first.
[DEDUCED, unsafe: log entry 53] -/
def issueOp (is : Issue) (o : SlotOp) (s : State) : State := issuePacket is.core is.guard (o :: is.others) s

/-! ### Events of a core -/

/-- REPEAT_LEVEL_END (R194). -/
def levelEndFx (k : Nat) (s : State) : State :=
  let x := coreGet s k
  match x.levels with
  | l :: t => if l.lc = 0 then corePut k { x with levels := t } s else s
  | [] => s

/-- BUS_LOAD_RETURN (R193): the data returns after `clocks` clocks of stall. -/
def loadReturnFx (k clocks : Nat) (s : State) : State :=
  let x := coreGet s k
  match x.load with
  | none => s
  | some l =>
    let a := l.addr.toNat
    if waitsReset s a || waitsSnap s a false then s
    else
      let r := busRead (masterOfCore k) a (accSizeOf (!l.dbl)) s
      let y := coreGet r.2 k
      let t := y.cyc + clocks
      let y1 := fly t l.d (wd r.1) { y with load := none, cyc := t, gap := tset 0 y.gap 3 (tget 0 y.gap 3 + clocks) }
      let y2 := if l.dbl then fly t (l.d + 1) (wd (r.1 / 2 ^ 32)) y1 else y1
      let s1 := srvCore k 3 clocks (corePut k y2 r.2)
      { s1 with srv.wait := s1.srv.wait.map (fun e => if e.core = k && e.lat = 0 then { e with lat := e.held + 1 + clocks } else e) }

/-- POSTED_WRITE_COMPLETE (R193): the oldest posted store leaves the buffer, and a packet that waited is tried again. -/
def postedDoneFx (k : Nat) (s : State) : State :=
  let x := coreGet s k
  match x.posted with
  | [] => s
  | p :: t =>
    if waitsReset s p.addr.toNat then s
    else
      let s1 := busWrite (masterOfCore k) p.addr.toNat p.size p.val (corePut k { x with posted := t } s)
      let y := coreGet s1 k
      match y.heldP with
      | none => s1
      | some (g, ops) => issuePacket k g ops (corePut k { y with heldP := none } s1)

/-- At a boundary the waiting supervisor continues, and lines 37 rises (R204, R209). -/
def supBoundary (s : State) : State :=
  let x := coreGet s 32
  let s1 := { s with sup.strobe := true }
  if x.st = 1 then corePut 32 { landAll x with st := 2, cyc := 0, accVis := [], gap := [] } s1 else s1

end Sys2Proof.Machine
end

