-- ==== Sys2Proof/Machine/Boundary.lean ====
section
/-! DEFINITION. The cycle boundary (R16): what the node does at each boundary of the Graticule, in the order the
spec gives, and the egress samples that every output takes from it (R141 to R146, R104, R108). -/

namespace Sys2Proof.Machine

/-! ### Egress (R141 to R146) -/

/-- Does channel i of cluster c carry CH_MUTE (R28, R145, R216)? -/
def clSourceMute (s : State) (c i : Nat) : Bool :=
  blockSafe s (21 + c) || s.mix.clMute.contains c || s.mix.clMute.contains (1024 + c * 256 + i) ||
    (lb s (clBase c) 31 && (coresOn s c).any (fun j => [0, 3, 4].contains (coreGet s (c * 8 + j)).st))

/-- What a source word gives in this cycle, with its flags (R142, R145). -/
def egrSource (s : State) (w : Nat) : Chan :=
  let i := egrIndex w
  let c : Chan := match egrKind w with
    | 1 => { x := tget [] s.str.out i, mute := blockSafe s 19 }
    | 2 => { x := tget [] s.mix.clOut (egrCl w * 256 + i), mute := clSourceMute s (egrCl w) i }
    | 3 => let y := tget {} s.mix.inputs i; { y with mute := y.mute || blockSafe s 16 }
    | _ => silentChan
  if egrMute w then { c with x := [], mute := true } else c

/-- One sample of a route fade: rounded to nearest, ties upward (R143). -/
def fadeSample (old new : Int) (n m : Nat) : Int := roundDiv (old * ((n - m : Nat) : Int) + new * (m : Int)) n

/-- The samples and flags of a destination in cycle k before the gains of steps (R143 to R145).
[DESIGN CHOICE, safe: log entry 9] -/
def egrChan (s : State) (k : Nat) (e : EgrSt) : Chan :=
  let new := egrSource s e.cur
  let c : Chan := match e.fade with
    | some (k0, n) =>
      if k < k0 + n then
        let old := egrSource s e.old
        { x := (List.range (spc s)).map (fun i =>
            fadeSample (getAt 0 old.x i) (getAt 0 new.x i) (n * spc s) ((k - k0) * spc s + i + 1)),
          mute := old.mute && new.mute, conc := old.conc || new.conc }
      else new
    | none => new
  if blockSafe s 17 then { c with mute := true } else c

/-- A row times a gain; the rounding of these gains is not stated (R104, R108). -/
def gainRow (s : State) (key : Nat) (g : Nat → Nat × Nat) (l : List Int) : List Int :=
  l.zipIdx.map (fun e =>
    let f := g e.2
    if f.1 = f.2 then e.1 else looseDiv .roundTie (key * 16 + e.2) s (e.1 * f.1) f.2)

/-- The frame output that a destination belongs to: 8 + n a TDM port, 16 + t an AES3 transmitter (R108). -/
def destOut (d : Nat) : Option Nat :=
  if 2048 ≤ d && d < 2304 then some (8 + (d - 2048) / 32)
  else if 2304 ≤ d && d < 2312 then some (16 + (d - 2304) / 2)
  else none

/-- The gains of an FT step and of a stepped REALIGN (R104, R108). -/
def egrGains (s : State) (k d : Nat) (c : Chan) : Chan :=
  let x1 := if s.cmp.step.isNone then c.x else gainRow s (k * 8192 + d) (stepGain s k) c.x
  match destOut d with
  | some o => { c with x := if s.cmp.realign.isNone then x1 else gainRow s (k * 8192 + 4096 + d) (realignGain s o k) x1 }
  | none => { c with x := x1 }

/-- Egress of cycle k: every destination takes its sources as boundary k finds them. -/
def egressRun (k : Nat) (s0 : State) : State :=
  let s := egrAdvance k s0
  let tb := s.mix.egr.foldl (fun t e => tset silentChan t e.1 (egrGains s k e.1 (egrChan s k e.2))) ([] : Tab Chan)
  let fading := (s.mix.egr.filter (fun e => e.2.fade.isSome)).length
  srvUp 17 3 fading { s with mix.egPrev := s.mix.egress, mix.egress := tb, mix.clMute := [] }

/-! ### The engines (R16 step 4, R55, R147, R460) -/

/-- Is an engine off: its domain is not ON, or its function is in reset?
[DEDUCED, unsafe: log entry 103] -/
def engineOff (s : State) (d fn : Nat) : Bool := !domOn s d || fnBusy s fn

/-- Ingress of cycle k. -/
def ingRunAt (k : Nat) (s : State) : State :=
  if engineOff s 6 67 then { s with mix.inputs := [] }
  else if blockSafe s 16 then s
  else ingressRelease k s

/-- The matrix of cycle k: in its reset the buses are zero with MUTE, in its safe action they hold. -/
def mtxRunAt (k : Nat) (s : State) : State :=
  let old := { s with mix.busPrev2 := s.mix.busPrev, mix.busPrev := s.mix.buses }
  if engineOff s 6 64 then { old with mix.buses := [], mix.busMuted := true }
  else if blockSafe s 17 then { old with mix.busMuted := true }
  else
    let ramps := (s.mix.xp.filter (fun e => decide (k < e.2.start + e.2.len))).length
    srvUp 17 0 1 (srvUp 17 2 ramps (matrixRun k s))

/-- The silence detector of cycle k. -/
def silRunAt (k : Nat) (s : State) : State :=
  if engineOff s 6 68 then s
  else if blockSafe s 20 then silMute s
  else
    let t := silRun k s
    let asleep := ((grpsOn t).filter (fun g => (grpGet t g).st == 3)).length
    srvUp 20 2 asleep (srvUp 20 3 t.sil.gated.length t)

/-- The EQ engine of cycle k. -/
def eqRunAt (s : State) : State :=
  if engineOff s 7 65 then { s with eqs.out := [] }
  else if blockSafe s 18 then s
  else
    let t := eqRun s
    let l := (chainsLive t).filter (fun c => (chainGet t c).running)
    let secs := l.foldl (fun a c => a + chainCount t c) 0
    let crossed := (l.filter (fun c => (chainGet t c).xf)).length
    let put := (l.filter (fun c => (chainGet t c).deferred)).length
    srvUp 18 0 (secs * spc t) (srvUp 18 1 crossed (srvUp 18 2 put t))

/-- The steering unit of cycle k. -/
def strRunAt (k : Nat) (s : State) : State :=
  if engineOff s 7 66 then { s with str.out := [] }
  else if blockSafe s 19 then s
  else
    let l := s.str.line.filter (fun e => e.2.running)
    let moving := (l.filter (fun e => e.2.cur != e.2.target)).length
    srvUp 19 0 (l.length * spc s) (srvUp 19 1 (moving * spc s) (strRun k s))

/-! ### Clusters at a boundary (R199, R215, R362) -/

/-- Step 1 of every reserve: overruns, but not of cores that catch up. -/
def clustersEnd (s : State) : State :=
  if catching s then s else foldS (List.range 4) clusterOverruns s

/-- Stream DMA of boundary k: the results of cycle k − 1 out, then its buses in. -/
def clustersStream (k : Nat) (s : State) : State :=
  let s1 := { s with mix.clOut := [] }
  if catching s1 then s1 else foldS (List.range 4) (clusterReserve k) s1

/-! ### The common start (R82 to R84) -/

/-- A start whose cycle was passed over by a step of FT is refused as late.
[DEDUCED, unsafe: log entry 39] -/
def startPassed (k : Nat) (s : State) : State :=
  match s.grat.startCyc with
  | some c => if s.grat.armed && c < k then startLate (paired s) { s with grat.armed := false, grat.startCyc := none } else s
  | none => s

/-- Does a common start take place at boundary k? -/
def startNow (s : State) (k : Nat) : Bool := s.grat.armed && s.grat.startCyc == some k

/-- Can member i of the mask start, or does it run already? Bits 7:0 are TDM, 11:8 AES3, 19:16 TEV (R82).
[DEDUCED, unsafe: log entry 39] -/
def memberStarts (s : State) (i : Nat) : Bool :=
  if i < 8 then (tdmGet s i).running || (tdmRun s i && tdmAllowed s i)
  else if i < 12 then (txGet s (i - 8)).running || (lb s (txBase (i - 8)) 31 && txAllowed s (i - 8))
  else (tevGet s (i - 16)).armed

/-- Step 4 of R83 at boundary k: DONE, the members that did not start, and ARMED clears. -/
def startRun (k : Nat) (s : State) : State :=
  if startNow s k then
    let miss := (bitsOf 20 (lvn s 0x40070038 &&& 0xF0FFF)).filter (fun i => !memberStarts s i)
    let s1 := evOr 0x40070044 2 { s with grat.armed := false }
    srvUp 7 1 1 (whenS (!miss.isEmpty) (fun t => evOr 0x40070050 (maskOf miss) (evOr 0x40070044 8 t)) s1)
  else s

/-- Waiting TEV schedules begin at their common start, or once their mask bit is clear.
[DEDUCED, unsafe: log entry 39] -/
def tevStarts (common : Nat) (s : State) : State :=
  foldS (List.range 4) (fun n t =>
    let x := tevGet t n
    if x.armed && x.waiting && (nbit common (16 + n) || !lb t 0x40070038 (16 + n)) then tevBegin n x.sched x t else t) s

/-- Starts and arms of step 3 of R16, after the commits of boundary k. -/
def startsRun (k : Nat) (s0 : State) : State :=
  let s := startPassed k s0
  let common := if startNow s k then lvn s 0x40070038 else 0
  let s1 := tevStarts common (startRun k s)
  serialBoundary k common (realignAtBoundary k (serialTargets s1) (stepAtBoundary k s1))

/-! ### Writes during the copy (R47) -/

/-- A write that arrives in step 2: held where it is to a shadow of a group being copied, else it goes ahead.
[DEDUCED, unsafe: log entry 27] -/
def duringWrite (gs : List Nat) (w : BusWr) (s : State) : State :=
  let a := w.addr.toNat
  let shadowed := isReg a && (match rowOf a with
    | some r => r.acc == .rw || r.acc == .rh
    | none => false)
  if shadowed && gs.contains (grpOf s (winOf a)) then { s with hub.held := s.hub.held ++ [w] }
  else busWrite w.master a .word w.val.toNat s

/-- HELD_SHADOW_WRITE_LAND: the copy ends 250 ns after the boundary (R16, R47).
[DEDUCED, unsafe: log entry 27] -/
def heldLandFx (s : State) : State :=
  if s.hub.held.isEmpty then s else heldShadowLand (atFt (cycleFt s s.grat.cycle + 250 * 65536) s)

/-! ### The boundary -/

/-- Does the Graticule run? It stands while the node is held in a cold reset or the CLK domain is down.
[DEDUCED, unsafe: log entry 102] -/
def boundaryOn (s : State) : Bool := domOn s 1 && (s.boot.phase != 0 || s.boot.warm)

/-- The instant of the boundary: a due step of FT, then GRAT.CYCLE := k (R16 step 1, R22, R104). -/
def boundaryBegin (s0 : State) : State :=
  let s := ftStepFx (heldLandFx s0)
  let k := s.grat.nextCycle
  let s1 := srvBoundary k (atFt (cycleFt s k) s)
  srvUp 7 0 1 { s1 with grat.cycle := k, grat.nextCycle := k + 1 }

/-- What follows the strobe up to the end of the commit copy (R16 step 2). -/
def boundaryCommit (k : Nat) (s : State) : State :=
  let s1 := sleepEnter (stepBoundary (supBoundary s))
  let s2 := clustersEnd s1
  let s3 := whenS (domOn s2 0) (commitRun k) s2
  handOff (foldS (List.range 4) gateStep (frstResume k s3))

/-- What the partner is sent of the inputs captured in cycle k − 1 (R348). -/
def mirrorParts1 (k : Nat) (s : State) : List (List Byte) :=
  if pairEn s then
    let t := slipsEvaluate s
    mirrorRecord t (k - 1) (applySlips k t).2
  else []

/-- Links, frames past their cycle, and the pair controller's work ahead of the samples (R297, R351 to R364). -/
def boundaryLinks (k : Nat) (s : State) : State :=
  let s1 := foldS (List.range 4) (fun p t => dropStale k p (linkBoundary p t)) s
  resyncLog k (catchEnd (resyncRestore k (pairBoundary k s1)))

/-- Samples of cycle k: slips, stream DMA, egress, then every engine (R16 steps 4 and 5). -/
def boundarySamples (k : Nat) (sense : List SenseIn) (s : State) : State :=
  let s1 := clustersStream k (slipsRun k (ingressDiscard k s))
  let s2 := whenS (s1.pair.role == 1 && s1.pair.rphase != 0 && s1.pair.snapS == k && s1.pair.step == 4) psnapStart s1
  let s3 := mtxRunAt k (ingRunAt k (egressRun k s2))
  let s4 := strRunAt k (eqRunAt (silRunAt k s3))
  whenS (domOn s4 14) (fun t => outRun k sense (outStep k t)) s4

/-- What the node sends in cycle k (R16 step 7, R291, R317, R346). -/
def boundarySend (k : Nat) (parts : List (List Byte)) (s : State) : State :=
  whenS (domOn s 2) (fun t => pairFrames k parts (rsvBoundary k (helloRun k (flowsSend k (sendMode t) t)))) s

/-- CYCLE_BOUNDARY (R16).
[DESIGN CHOICE, unsafe: log entry 2] -/
def cycleBoundaryFx (inp : BoundaryInput) (s0 : State) : State :=
  if boundaryOn s0 then
    let s1 := boundaryBegin s0
    let k := s1.grat.cycle
    let gs := (commitsDue s1 k).1
    let s2 := fracIn inp.frac (startsRun k (boundaryCommit k s1))
    let s3 := boundaryLinks k s2
    let parts := mirrorParts1 k s3
    let s4 := boundarySend k parts (boundarySamples k inp.sense s3)
    foldS inp.during (duringWrite gs) s4
  else s0

end Sys2Proof.Machine
end

