-- ==== Sys2Proof/Machine/ExecCluster.lean ====
section
/-! DEFINITION. The meanings of the commands of the clusters, the silence detector and the events of the cores
(R167, R168, R193 to R226, R475).
Each is the effect that the module of its unit gives. -/

namespace Sys2Proof.Machine

/-- BUS_SILENT_SET (R167): a bus has been quiet for HOLD seconds. -/
def execBusSilentSet (b : Fin 256) (s : State) : Host.Outcome State Fault Refusal :=
  finish s (busSilentFx b s)

/-- SILENCE_SLEEP (R168): a group's hold count reaches its hold length. -/
def execSilenceSleep (g : Fin 32) (s : State) : Host.Outcome State Fault Refusal :=
  finish s (silenceSleepFx g s)

/-- CORE_RELEASE (R199): clock RESERVE of the cycle in cluster c. -/
def execCoreRelease (c : Fin 4) (s : State) : Host.Outcome State Fault Refusal :=
  finish s (releaseFxAll c s)

/-- CORE_BUDGET_EXPIRY (R199): CYC of a core that is not waiting reaches B. -/
def execCoreBudgetExpiry (k : Fin 32) (s : State) : Host.Outcome State Fault Refusal :=
  finish s (budgetFxAll k s)

/-- WAIT_CYCLE_DRAIN_END (R199): the drain after WAIT_CYCLE completes. -/
def execWaitCycleDrainEnd (k : Fin 32) (s : State) : Host.Outcome State Fault Refusal :=
  finish s (drainEndFx k s)

/-- BARRIER_RELEASE (R221): every barrier member has issued SYNC. -/
def execBarrierRelease (c : Fin 4) (s : State) : Host.Outcome State Fault Refusal :=
  finish s (barrierFx c s)

/-- BUS_LOAD_RETURN (R193): the data of a bus load returns after `clocks` clocks of stall. -/
def execBusLoadReturn (k : Fin 33) (clocks : Nat) (s : State) : Host.Outcome State Fault Refusal :=
  finish s (loadReturnFx k clocks s)

/-- REPEAT_LEVEL_END (R194): the innermost level, its LC at 0, closes. -/
def execRepeatLevelEnd (k : Fin 33) (s : State) : Host.Outcome State Fault Refusal :=
  finish s (levelEndFx k s)

/-- INTERRUPT_ENTRY (R209): the supervisor takes the takeable line, `clocks` clocks later (at most 24). -/
def execInterruptEntry (clocks : Nat) (s : State) : Host.Outcome State Fault Refusal :=
  finish s (interruptFx clocks s)

/-- SEM_ACQUIRE (R219): a read of CL.SEM[s] of cluster c. -/
def execSemAcquire (m : Master) (c : Fin 4) (sem : Fin 32) (s : State) : Host.Outcome State Fault Refusal :=
  finish s (readCmd m (clBase c + 0x40 + 4 * sem.val) s)

/-- SEM_RELEASE (R219): a write of CL.SEM[s]. -/
def execSemRelease (m : Master) (c : Fin 4) (sem : Fin 32) (val : Word)
    (s : State) : Host.Outcome State Fault Refusal :=
  finish s (writeCmd m (clBase c + 0x40 + 4 * sem.val) val.toNat s)

/-- MBX_PUSH (R220): a write of MBX[b].DATA. -/
def execMbxPush (m : Master) (c : Fin 4) (b : Fin 9) (val : Word)
    (s : State) : Host.Outcome State Fault Refusal :=
  finish s (writeCmd m (clBase c + 0x100 + 16 * b.val) val.toNat s)

/-- MBX_POP (R220): a read of MBX[b].DATA. -/
def execMbxPop (m : Master) (c : Fin 4) (b : Fin 9) (s : State) : Host.Outcome State Fault Refusal :=
  finish s (readCmd m (clBase c + 0x100 + 16 * b.val) s)

/-- PSNAP_DONE (R223): the snapshot engine of cluster c finishes, after `stalls` copy-before-write stall clocks. -/
def execPsnapDone (c : Fin 4) (stalls : Nat) (s : State) : Host.Outcome State Fault Refusal :=
  finish s (psnapDoneFx c stalls s)

/-- SAMPLE_RECORD (R475): the oldest sampled packet of core k whose last result has landed writes its record. -/
def execSampleRecord (k : Fin 32) (s : State) : Host.Outcome State Fault Refusal :=
  finish s (sampleFx k s)

/-- POSTED_WRITE_COMPLETE (R193). -/
def execPostedWriteComplete (k : Fin 33) (s : State) : Host.Outcome State Fault Refusal :=
  finish s (postedDoneFx k s)

end Sys2Proof.Machine
end

