-- ==== Sys2Proof/Machine/ExecCore.lean ====
section
/-! DEFINITION. The meanings of the commands of the packets of the Narix cores, one definition per operation
(R177 to R210).
Each is the effect that the module of its unit gives. -/

namespace Sys2Proof.Machine

/-- NOP (R189). -/
def execNop (is : Issue) (s : State) : Host.Outcome State Fault Refusal :=
  finish s (issueOp is .nop s)

/-- JMP (R189). -/
def execJmp (is : Issue) (t : JmpTarget) (s : State) : Host.Outcome State Fault Refusal :=
  finish s (issueOp is (.jmp t) s)

/-- CALL (R189). -/
def execCall (is : Issue) (t : BitVec 16) (s : State) : Host.Outcome State Fault Refusal :=
  finish s (issueOp is (.call t) s)

/-- RET (R189). -/
def execRet (is : Issue) (s : State) : Host.Outcome State Fault Refusal :=
  finish s (issueOp is .ret s)

/-- REP (R194). -/
def execRep (is : Issue) (n : RepCount) (stop : BitVec 16) (s : State) : Host.Outcome State Fault Refusal :=
  finish s (issueOp is (.rep n stop) s)

/-- BREAK (R196). -/
def execBreakC (is : Issue) (s : State) : Host.Outcome State Fault Refusal :=
  finish s (issueOp is .brk s)

/-- WAIT_CYCLE (R199). -/
def execWaitCycle (is : Issue) (s : State) : Host.Outcome State Fault Refusal :=
  finish s (issueOp is .waitCycle s)

/-- SYNC (R221). -/
def execSync (is : Issue) (s : State) : Host.Outcome State Fault Refusal :=
  finish s (issueOp is .sync s)

/-- CMAC (R190). -/
def execCmac (is : Issue) (p : Reg8) (x y : VReg) (mode : MulMode) (cj : Bool)
    (s : State) : Host.Outcome State Fault Refusal :=
  finish s (issueOp is (.cx .cmac p x y mode cj) s)

/-- CMSUB (R190). -/
def execCmsub (is : Issue) (p : Reg8) (x y : VReg) (mode : MulMode) (cj : Bool)
    (s : State) : Host.Outcome State Fault Refusal :=
  finish s (issueOp is (.cx .cmsub p x y mode cj) s)

/-- CMUL (R190). -/
def execCmul (is : Issue) (p : Reg8) (x y : VReg) (mode : MulMode) (cj : Bool)
    (s : State) : Host.Outcome State Fault Refusal :=
  finish s (issueOp is (.cx .cmul p x y mode cj) s)

/-- MAC (R190). -/
def execMac (is : Issue) (n : Reg8) (a b : VReg) (mode : MulMode)
    (s : State) : Host.Outcome State Fault Refusal :=
  finish s (issueOp is (.re .mac n a b mode) s)

/-- MSUB (R190). -/
def execMsub (is : Issue) (n : Reg8) (a b : VReg) (mode : MulMode)
    (s : State) : Host.Outcome State Fault Refusal :=
  finish s (issueOp is (.re .msub n a b mode) s)

/-- MUL (R190). -/
def execMul (is : Issue) (n : Reg8) (a b : VReg) (mode : MulMode)
    (s : State) : Host.Outcome State Fault Refusal :=
  finish s (issueOp is (.re .mul n a b mode) s)

/-- MAC2 (R190). -/
def execMac2 (is : Issue) (p : Reg8) (x y : VReg) (mode : MulMode)
    (s : State) : Host.Outcome State Fault Refusal :=
  finish s (issueOp is (.mac2 p x y mode) s)

/-- ACLR (R190). -/
def execAclr (is : Issue) (pair : Bool) (n : Reg8) (s : State) : Host.Outcome State Fault Refusal :=
  finish s (issueOp is (.aclr pair n) s)

/-- RND (R187). -/
def execRnd (is : Issue) (pair : Bool) (d : VReg) (n : Reg8) (sh : Fin 64)
    (s : State) : Host.Outcome State Fault Refusal :=
  finish s (issueOp is (.rnd pair d n sh) s)

/-- SAT (R187). -/
def execSatX (is : Issue) (pair : Bool) (d : VReg) (n : Reg8) (sh : Fin 64)
    (s : State) : Host.Outcome State Fault Refusal :=
  finish s (issueOp is (.sat pair d n sh) s)

/-- ADD (R191). -/
def execAdd (is : Issue) (d a b : VReg) (s : State) : Host.Outcome State Fault Refusal :=
  finish s (issueOp is (.alu2 .add d a b) s)

/-- SUB (R191). -/
def execSub (is : Issue) (d a b : VReg) (s : State) : Host.Outcome State Fault Refusal :=
  finish s (issueOp is (.alu2 .sub d a b) s)

/-- ADDS (R191). -/
def execAdds (is : Issue) (d a b : VReg) (s : State) : Host.Outcome State Fault Refusal :=
  finish s (issueOp is (.alu2 .adds d a b) s)

/-- SUBS (R191). -/
def execSubs (is : Issue) (d a b : VReg) (s : State) : Host.Outcome State Fault Refusal :=
  finish s (issueOp is (.alu2 .subs d a b) s)

/-- NEG (R191). -/
def execNeg (is : Issue) (d a : VReg) (s : State) : Host.Outcome State Fault Refusal :=
  finish s (issueOp is (.alu1 .neg d a) s)

/-- ABS (R191). -/
def execAbs (is : Issue) (d a : VReg) (s : State) : Host.Outcome State Fault Refusal :=
  finish s (issueOp is (.alu1 .abs d a) s)

/-- AND (R191). -/
def execAndV (is : Issue) (d a b : VReg) (s : State) : Host.Outcome State Fault Refusal :=
  finish s (issueOp is (.alu2 .and d a b) s)

/-- OR (R191). -/
def execOrV (is : Issue) (d a b : VReg) (s : State) : Host.Outcome State Fault Refusal :=
  finish s (issueOp is (.alu2 .or d a b) s)

/-- XOR (R191). -/
def execXorV (is : Issue) (d a b : VReg) (s : State) : Host.Outcome State Fault Refusal :=
  finish s (issueOp is (.alu2 .xor d a b) s)

/-- NOT (R191). -/
def execNotV (is : Issue) (d a : VReg) (s : State) : Host.Outcome State Fault Refusal :=
  finish s (issueOp is (.alu1 .not d a) s)

/-- SHL (R191). -/
def execShl (is : Issue) (d a : VReg) (n : ShAmt) (s : State) : Host.Outcome State Fault Refusal :=
  finish s (issueOp is (.shift .shl d a n) s)

/-- SHR (R191). -/
def execShr (is : Issue) (d a : VReg) (n : ShAmt) (s : State) : Host.Outcome State Fault Refusal :=
  finish s (issueOp is (.shift .shr d a n) s)

/-- SHRA (R191). -/
def execShra (is : Issue) (d a : VReg) (n : ShAmt) (s : State) : Host.Outcome State Fault Refusal :=
  finish s (issueOp is (.shift .shra d a n) s)

/-- MIN (R191). -/
def execMinV (is : Issue) (d a b : VReg) (s : State) : Host.Outcome State Fault Refusal :=
  finish s (issueOp is (.alu2 .min d a b) s)

/-- MAX (R191). -/
def execMaxV (is : Issue) (d a b : VReg) (s : State) : Host.Outcome State Fault Refusal :=
  finish s (issueOp is (.alu2 .max d a b) s)

/-- CLZ (R191). -/
def execClz (is : Issue) (d a : VReg) (s : State) : Host.Outcome State Fault Refusal :=
  finish s (issueOp is (.alu1 .clz d a) s)

/-- MOV (R191). -/
def execMov (is : Issue) (d a : VReg) (s : State) : Host.Outcome State Fault Refusal :=
  finish s (issueOp is (.alu1 .mov d a) s)

/-- MOVI (R191). -/
def execMovi (is : Issue) (d : VReg) (imm : BitVec 20) (s : State) : Host.Outcome State Fault Refusal :=
  finish s (issueOp is (.movi d imm) s)

/-- MOVH (R191). -/
def execMovh (is : Issue) (d : VReg) (imm : BitVec 16) (s : State) : Host.Outcome State Fault Refusal :=
  finish s (issueOp is (.movh d imm) s)

/-- CMP (R191). -/
def execCmp (is : Issue) (cc : Cc) (p : Fin 4) (a b : VReg) (s : State) : Host.Outcome State Fault Refusal :=
  finish s (issueOp is (.cmp cc p a b) s)

/-- SEL (R191). -/
def execSel (is : Issue) (d a b : VReg) (p : Fin 4) (s : State) : Host.Outcome State Fault Refusal :=
  finish s (issueOp is (.sel d a b p) s)

/-- MRD (R191). -/
def execMrd (is : Issue) (d : VReg) (src : MrdSrc) (s : State) : Host.Outcome State Fault Refusal :=
  finish s (issueOp is (.mrd d src) s)

/-- MWR (R191). -/
def execMwr (is : Issue) (a : VReg) (s : State) : Host.Outcome State Fault Refusal :=
  finish s (issueOp is (.mwr a) s)

/-- AADD (R192): by an immediate or, with `byM`, by a modifier. -/
def execAadd (is : Issue) (n : Reg8) (byM : Option Reg8) (imm : BitVec 16)
    (s : State) : Host.Outcome State Fault Refusal :=
  finish s (issueOp is (match byM with | some j => .aaddM n j | none => .aaddI n imm) s)

/-- AMOD (R192). -/
def execAmod (is : Issue) (n : Reg8) (j : Reg8) (rev : Bool) (s : State) : Host.Outcome State Fault Refusal :=
  finish s (issueOp is (.amod n j rev) s)

/-- AMOV (R192). -/
def execAmov (is : Issue) (f : AFile) (n : Reg8) (v : VReg) (s : State) : Host.Outcome State Fault Refusal :=
  finish s (issueOp is (.amov f n v) s)

/-- AMOVI (R192). -/
def execAmovi (is : Issue) (f : AFile) (n : Reg8) (imm : BitVec 20)
    (s : State) : Host.Outcome State Fault Refusal :=
  finish s (issueOp is (.amovi f n imm) s)

/-- LD_W (R193). -/
def execLdW (is : Issue) (slot : MemSlot) (d : VReg) (ea : Ea)
    (s : State) : Host.Outcome State Fault Refusal :=
  finish s (issueOp is (.ld true slot d ea) s)

/-- LD_D (R193). -/
def execLdD (is : Issue) (slot : MemSlot) (d : VReg) (ea : Ea)
    (s : State) : Host.Outcome State Fault Refusal :=
  finish s (issueOp is (.ld false slot d ea) s)

/-- ST_W (R193). -/
def execStW (is : Issue) (slot : MemSlot) (v : VReg) (ea : Ea)
    (s : State) : Host.Outcome State Fault Refusal :=
  finish s (issueOp is (.st true slot v ea) s)

/-- ST_D (R193). -/
def execStD (is : Issue) (slot : MemSlot) (v : VReg) (ea : Ea)
    (s : State) : Host.Outcome State Fault Refusal :=
  finish s (issueOp is (.st false slot v ea) s)

/-- MOVS (R207). -/
def execMovs (is : Issue) (mv : SysMove) (s : State) : Host.Outcome State Fault Refusal :=
  finish s (issueOp is (.movs mv) s)

/-- IRET (R209). -/
def execIret (is : Issue) (s : State) : Host.Outcome State Fault Refusal :=
  finish s (issueOp is .iret s)

/-- USER (R206). -/
def execUser (is : Issue) (s : State) : Host.Outcome State Fault Refusal :=
  finish s (issueOp is .user s)

/-- WFI (R206). -/
def execWfi (is : Issue) (s : State) : Host.Outcome State Fault Refusal :=
  finish s (issueOp is .wfi s)

/-- TRAP (R206). -/
def execTrap (is : Issue) (n : Fin 16) (s : State) : Host.Outcome State Fault Refusal :=
  finish s (issueOp is (.trap n) s)

end Sys2Proof.Machine
end

