-- ==== Sys2Proof/Machine/ExecFabric.lean ====
section
/-! DEFINITION. The meanings of the commands of the fabric ports, the switch core and the Gazetteer (R285 to R341).
Each is the effect that the module of its unit gives. -/

namespace Sys2Proof.Machine

/-- The next descriptor of port p, or of the service bus as p = 4 (R305, R376). -/
def txRingFx (p : Nat) (s : State) : State := if p = 4 then svbDescFx s else txDescFx p s

/-- A descriptor ends. -/
def txRingDoneFx (p : Nat) (s : State) : State := if p = 4 then svbDescDoneFx s else txDoneFx p s

/-- LINK_UP (R286): port p finishes its bring-up, with the measured phases in ps, the polarity found and the partner's
PAUSE abilities. -/
def execLinkUp (p : Fin 4) (phaseTx phaseRx : Int) (rxInv : Bool) (anPause : Fin 4)
    (s : State) : Host.Outcome State Fault Refusal :=
  finish s (linkUpFx p phaseTx phaseRx rxInv anPause s)

/-- LINK_DOWN (R288). -/
def execLinkDown (p : Fin 4) (s : State) : Host.Outcome State Fault Refusal :=
  finish s (linkDownFx p s)

/-- RX_FRAME (R295): port p receives a frame, given from the DA to the end of its payload, with a good or bad FCS. -/
def execRxFrame (p : Fin 4) (bytes : List Byte) (fcsOk : Bool)
    (s : State) : Host.Outcome State Fault Refusal :=
  finish s (rxFrameFx p bytes fcsOk s)

/-- DUPLICATE_STATE_TIMEOUT (R301). -/
def execDuplicateStateTimeout (flow : BitVec 20) (s : State) : Host.Outcome State Fault Refusal :=
  finish s (dupTimeoutFx flow.toNat s)

/-- TX_FRAME_START (R74): a queued frame of port p starts. -/
def execTxFrameStart (p : Fin 4) (s : State) : Host.Outcome State Fault Refusal :=
  finish s (txStart p s)

/-- PAUSE_EXPIRY (R302). -/
def execPauseExpiry (p : Fin 4) (s : State) : Host.Outcome State Fault Refusal :=
  finish s (pauseExpiryFx p s)

/-- PAUSE_REPEAT (R303). -/
def execPauseRepeat (p : Fin 4) (s : State) : Host.Outcome State Fault Refusal :=
  finish s (pauseRepeatFx p s)

/-- PAUSE_WD_TRIP (R304). -/
def execPauseWdTrip (p : Fin 4) (s : State) : Host.Outcome State Fault Refusal :=
  finish s (pauseTripFx p s)

/-- HOLDOFF_END (R304). -/
def execHoldoffEnd (p : Fin 4) (s : State) : Host.Outcome State Fault Refusal :=
  finish s (holdoffFx p s)

/-- TX_DESCRIPTOR (R305): port p, or with 4 the service bus, takes its next descriptor. -/
def execTxDescriptor (p : Fin 5) (s : State) : Host.Outcome State Fault Refusal :=
  finish s (txRingFx p s)

/-- TX_DESCRIPTOR_COMPLETE (R305). -/
def execTxDescriptorComplete (p : Fin 5) (s : State) : Host.Outcome State Fault Refusal :=
  finish s (txRingDoneFx p s)

/-- HELLO_RECEIVED (R320): a hello frame arrives at port p. -/
def execHelloReceived (p : Fin 4) (bytes : List Byte) (s : State) : Host.Outcome State Fault Refusal :=
  finish s (helloRxFx p bytes s)

/-- ADJACENCY_DEAD (R320). -/
def execAdjacencyDead (p : Fin 4) (s : State) : Host.Outcome State Fault Refusal :=
  finish s (adjacencyDeadFx p s)

/-- FLOOD_ARM (R341): a write of ADJ[p].FLOOD_LEN. -/
def execFloodArm (m : Master) (p : Fin 4) (len : Word) (s : State) : Host.Outcome State Fault Refusal :=
  finish s (writeCmd m (adjBase p + 0x14) len.toNat s)

/-- RECORD_REFRESH (R323). -/
def execRecordRefresh (s : State) : Host.Outcome State Fault Refusal :=
  finish s (recordRefreshFx s)

/-- RECORD_MAXAGE (R323): the record of this type and key reaches MAXAGE. -/
def execRecordMaxage (typ : Fin 3) (key : BitVec 64) (s : State) : Host.Outcome State Fault Refusal :=
  finish s (recordMaxageFx typ key.toNat s)

/-- BIND_HOLD_EXPIRY (R326). -/
def execBindHoldExpiry (key : BitVec 64) (s : State) : Host.Outcome State Fault Refusal :=
  finish s (bindHoldFx key.toNat s)

/-- RESERVE (R332): received at port p. -/
def execReserve (p : Fin 4) (m : RsvMsg) (s : State) : Host.Outcome State Fault Refusal :=
  finish s (reserveFx p m s)

/-- CONFIRM (R333). -/
def execConfirm (p : Fin 4) (m : RsvMsg) (s : State) : Host.Outcome State Fault Refusal :=
  finish s (confirmFx p m s)

/-- REFUSE (R333). -/
def execRefuse (p : Fin 4) (m : RsvMsg) (s : State) : Host.Outcome State Fault Refusal :=
  finish s (refuseFx p m s)

/-- RELEASE (R335). -/
def execRelease (p : Fin 4) (m : RsvMsg) (s : State) : Host.Outcome State Fault Refusal :=
  finish s (releaseFx p m s)

/-- BROKEN (R337). -/
def execBroken (p : Fin 4) (m : RsvMsg) (s : State) : Host.Outcome State Fault Refusal :=
  finish s (brokenFx p m s)

/-- RSV_HOLD_EXPIRY (R334). -/
def execRsvHoldExpiry (tag : BitVec 32) (s : State) : Host.Outcome State Fault Refusal :=
  finish s (rsvHoldFx tag.toNat s)

/-- FLOW_IDLE_EXPIRY (R335): entry x has been idle for FLOW_IDLE. -/
def execFlowIdleExpiry (x : Fin 4096) (s : State) : Host.Outcome State Fault Refusal :=
  finish s (flowIdleFx x s)

/-- MOVE_OVERLAP_EXPIRY (R338). -/
def execMoveOverlapExpiry (flow : BitVec 20) (s : State) : Host.Outcome State Fault Refusal :=
  finish s (moveOverlapFx flow.toNat s)

/-- RETRY_EXPIRY (R336). -/
def execRetryExpiry (flow : BitVec 20) (s : State) : Host.Outcome State Fault Refusal :=
  finish s (retryFlowFx flow.toNat s)

end Sys2Proof.Machine
end

