-- ==== Sys2Proof/Machine/ExecNode.lean ====
section
/-! DEFINITION. The meanings of the commands of the host link, power, boot, faults, resets and the Survey
(R378 to R482).
Each is the effect that the module of its unit gives. -/

namespace Sys2Proof.Machine

/-- An edge or a clock that may end a sleep: `i` is its bit of WAKE_CFG, `cause` its bit of WAKE_SRC (R407, R408). -/
def wakeFx (cause i : Nat) (s : State) : State :=
  if s.pwr.sleep = 0 || !wakeOn s i then s
  else if s.pwr.sleep = 1 then srvUp 32 0 1 (wakeListen cause s)
  else coldReset 64 { s with pwr.wakeSrc := cause }

/-- SLEEP_ALARM: ALARM / 1,024 s after entry; 0 disables it (R409). -/
def sleepAlarmFx (s : State) : State :=
  if s.pwr.alarm = 0 || s.pwr.sleep = 0 then s
  else wakeFx 4 2 (atLc (s.pwr.sleepLc + s.pwr.alarm * 500000000 / 1024) s)

/-- READ (R387). -/
def execRead (f : HostFrame) (s : State) : Host.Outcome State Fault Refusal :=
  finish s (hostReadFx f s)

/-- WRITE (R387). -/
def execWrite (f : HostFrame) (s : State) : Host.Outcome State Fault Refusal :=
  finish s (hostWriteFx f s)

/-- READ_STATUS (R384). -/
def execReadStatus (f : HostFrame) (s : State) : Host.Outcome State Fault Refusal :=
  finish s (readStatusFx f s)

/-- ENUMERATE (R388). -/
def execEnumerate (f : HostFrame) (s : State) : Host.Outcome State Fault Refusal :=
  finish s (enumerateFx f s)

/-- WHO_CALLS (R390). -/
def execWhoCalls (f : HostFrame) (s : State) : Host.Outcome State Fault Refusal :=
  finish s (whoCallsFx f s)

/-- BOOT_STREAM (R391). -/
def execBootStream (f : HostFrame) (s : State) : Host.Outcome State Fault Refusal :=
  finish s (bootStreamFx f s)

/-- HOST_EXEC_DONE (R385): execution took `us` microseconds of busy. -/
def execHostExecDone (us : Nat) (s : State) : Host.Outcome State Fault Refusal :=
  finish s (hostDoneFx us s)

/-- TRANSACTION_ABORT (R386). -/
def execTransactionAbort (s : State) : Host.Outcome State Fault Refusal :=
  finish s (transAbortFx s)

/-- FORGET (R388): a write of HOST.ENUM.FORGET. -/
def execForget (m : Master) (s : State) : Host.Outcome State Fault Refusal :=
  finish s (writeCmd m 0x40040008 1 s)

/-- ATN_SET_SUP (R389). -/
def execAtnSetSup (m : Master) (s : State) : Host.Outcome State Fault Refusal :=
  finish s (writeCmd m 0x40040014 8 s)

/-- MSG_OUT (R389). -/
def execMsgOut (m : Master) (val : Word) (s : State) : Host.Outcome State Fault Refusal :=
  finish s (writeCmd m 0x40040018 val.toNat s)

/-- MSG_IN (R394). -/
def execMsgIn (m : Master) (val : Word) (s : State) : Host.Outcome State Fault Refusal :=
  finish s (writeCmd m 0x4004001C val.toNat s)

/-- GUST_ADMIT (R404). -/
def execGustAdmit (s : State) : Host.Outcome State Fault Refusal :=
  finish s (gustAdmitFx s)

/-- DOMAIN_UP (R399): domain d reaches its first clock. -/
def execDomainUp (d : Fin 15) (s : State) : Host.Outcome State Fault Refusal :=
  finish s (domainUpFx d s)

/-- DOMAIN_DOWN (R402): a lowering of domain d completes. -/
def execDomainDown (d : Fin 15) (s : State) : Host.Outcome State Fault Refusal :=
  finish s (domainDownFx d s)

/-- DROOP (R406): VSYS is read, in mV. -/
def execDroop (vsys : BitVec 16) (s : State) : Host.Outcome State Fault Refusal :=
  finish s (droopFx vsys.toNat s)

/-- DROOP_RECOVERY (R406): VSYS has been back for 100 µs. -/
def execDroopRecovery (vsys : BitVec 16) (s : State) : Host.Outcome State Fault Refusal :=
  finish s (droopOverFx vsys.toNat s)

/-- LISTEN (R407): a write of PWR.SLEEP.LISTEN. -/
def execListen (m : Master) (s : State) : Host.Outcome State Fault Refusal :=
  finish s (writeCmd m 0x401D0030 1 s)

/-- STANDBY (R407): a write of PWR.SLEEP.STANDBY. -/
def execStandby (m : Master) (s : State) : Host.Outcome State Fault Refusal :=
  finish s (writeCmd m 0x401D0030 2 s)

/-- WAKE_FRAME (R408). -/
def execWakeFrame (p : Fin 4) (bytes : List Byte) (fcsOk : Bool)
    (s : State) : Host.Outcome State Fault Refusal :=
  finish s (wakeFrameFx p bytes fcsOk s)

/-- WAKE_HCS_N (R393, R408). -/
def execWakeHcsN (s : State) : Host.Outcome State Fault Refusal :=
  finish s (wakeHcsFx s)

/-- WAKE_SYNC_START (R408). -/
def execWakeSyncStart (s : State) : Host.Outcome State Fault Refusal :=
  finish s (wakeFx 2 1 s)

/-- SLEEP_ALARM (R409). -/
def execSleepAlarm (s : State) : Host.Outcome State Fault Refusal :=
  finish s (sleepAlarmFx s)

/-- THERMAL_SAMPLE (R411): the highest sensor reads `temp` tenths of a degree. -/
def execThermalSample (temp : BitVec 16) (s : State) : Host.Outcome State Fault Refusal :=
  finish s (thermalSampleFx temp.toInt s)

/-- THROTTLE_STEP (R411). -/
def execThrottleStep (s : State) : Host.Outcome State Fault Refusal :=
  finish s (throttleFx s)

/-- THERMAL_FATAL (R411). -/
def execThermalFatal (s : State) : Host.Outcome State Fault Refusal :=
  finish s (thermalFatalFx s)

/-- POWER_ON_RESET (R414): `logLost` when VSYS has been below 1.8 V (R451). -/
def execPowerOnReset (logLost : Bool) (s : State) : Host.Outcome State Fault Refusal :=
  finish s (powerOnFx logLost s)

/-- RESET_N_LOW (R414). -/
def execResetNLow (s : State) : Host.Outcome State Fault Refusal :=
  finish s (resetNFx s)

/-- BROWNOUT (R395). -/
def execBrownout (s : State) : Host.Outcome State Fault Refusal :=
  finish s (coldReset 4 s)

/-- VCORE_UNDERVOLTAGE (R396). -/
def execVcoreUndervoltage (s : State) : Host.Outcome State Fault Refusal :=
  finish s (coldReset 8 s)

/-- WARM_RESET (R414): a write of SYS.RESET.WARM. -/
def execWarmReset (m : Master) (s : State) : Host.Outcome State Fault Refusal :=
  finish s (writeCmd m 0x40000008 1 s)

/-- JTAG_WARM_RESET (R414). -/
def execJtagWarmReset (s : State) : Host.Outcome State Fault Refusal :=
  finish s ((if debugOn s then Machine.warmReset 32 s else s))

/-- RESET_RELEASE (R395, R426): VSYS averages `vsys` mV; the boot ROM runs for `us` microseconds over the flash. -/
def execResetRelease (vsys : BitVec 16) (us : Nat) (flash : FlashIn)
    (s : State) : Host.Outcome State Fault Refusal :=
  finish s (resetReleaseFx vsys.toNat us flash s)

/-- BOOT_DOMAINS_ON (R429). -/
def execBootDomainsOn (s : State) : Host.Outcome State Fault Refusal :=
  finish s (bootDomainsFx s)

/-- RB_BURN (R438). -/
def execRbBurn (m : Master) (s : State) : Host.Outcome State Fault Refusal :=
  finish s (writeCmd m 0x40030014 1 s)

/-- OTP_PGM_GO (R437). -/
def execOtpPgmGo (m : Master) (s : State) : Host.Outcome State Fault Refusal :=
  finish s (writeCmd m 0x40200208 1 s)

/-- FGO_SEND (R440). -/
def execFgoSend (m : Master) (s : State) : Host.Outcome State Fault Refusal :=
  finish s (writeCmd m 0x40030030 1 s)

/-- FGO_READ (R440). -/
def execFgoRead (m : Master) (s : State) : Host.Outcome State Fault Refusal :=
  finish s (writeCmd m 0x40030030 2 s)

/-- RAISE (R449): a write of FLT.RAISE. -/
def execRaiseFault (m : Master) (val : Word) (s : State) : Host.Outcome State Fault Refusal :=
  finish s (writeCmd m 0x40010030 val.toNat s)

/-- FLT_ACK (R446). -/
def execFltAck (m : Master) (s : State) : Host.Outcome State Fault Refusal :=
  finish s (writeCmd m 0x4001000C 1 s)

/-- WATCHDOG_EXPIRY (R450). -/
def execWatchdogExpiry (s : State) : Host.Outcome State Fault Refusal :=
  finish s (watchdogFx s)

/-- WDOG_KICK (R450). -/
def execWdogKick (m : Master) (s : State) : Host.Outcome State Fault Refusal :=
  finish s (writeCmd m 0x40010044 1 s)

/-- FLOG_CLR (R451). -/
def execFlogClr (m : Master) (s : State) : Host.Outcome State Fault Refusal :=
  finish s (writeCmd m 0x40200018 1 s)

/-- FUNCTION_RESET (R456): a write of SYS.FRST0 to FRST2. -/
def execFunctionReset (m : Master) (reg : Fin 3) (val : Word) (s : State) : Host.Outcome State Fault Refusal :=
  finish s (writeCmd m (0x40000100 + 4 * reg.val) val.toNat s)

/-- FUNCTION_RESET_DRAIN_END (R457): the drain and step 3 of a function end (R460 numbers the functions here 0-31 for
FRST0, 32-63 for FRST1, 64-74 for FRST2). -/
def execFunctionResetDrainEnd (fn : Fin 75) (s : State) : Host.Outcome State Fault Refusal :=
  finish s (drainEndCmd fn s)

/-- FREEZE (R477). -/
def execFreeze (m : Master) (s : State) : Host.Outcome State Fault Refusal :=
  finish s (writeCmd m 0x401E0018 1 s)

/-- THAW (R477). -/
def execThaw (m : Master) (s : State) : Host.Outcome State Fault Refusal :=
  finish s (writeCmd m 0x401E0018 2 s)

/-- SNAP (R477). -/
def execSnap (m : Master) (s : State) : Host.Outcome State Fault Refusal :=
  finish s (writeCmd m 0x401E0018 4 s)

/-- SURVEY_CLEAR (R477). -/
def execSurveyClear (m : Master) (s : State) : Host.Outcome State Fault Refusal :=
  finish s (writeCmd m 0x401E0018 8 s)

/-- SNAP_COMPLETE (R479). -/
def execSnapComplete (s : State) : Host.Outcome State Fault Refusal :=
  finish s (snapCompleteFx s)

/-- SNAP_COPY_DONE (R479). -/
def execSnapCopyDone (s : State) : Host.Outcome State Fault Refusal :=
  finish s (snapCopyFx s)

/-- SMP_CLR (R476). -/
def execSmpClr (m : Master) (mask : Word) (s : State) : Host.Outcome State Fault Refusal :=
  finish s (writeCmd m 0x401E0070 mask.toNat s)

/-- SMP_SEED (R474). -/
def execSmpSeed (m : Master) (val : Word) (s : State) : Host.Outcome State Fault Refusal :=
  finish s (writeCmd m 0x401E0048 val.toNat s)

/-- TRANSACTION_START (R385). -/
def execTransactionStart (s : State) : Host.Outcome State Fault Refusal :=
  finish s (transStartFx s)

/-- TRANSACTION_END (R385). -/
def execTransactionEnd (s : State) : Host.Outcome State Fault Refusal :=
  finish s (transEndFx s)

/-- ENUM_IN_CHANGE (R388). -/
def execEnumInChange (level : Bool) (s : State) : Host.Outcome State Fault Refusal :=
  finish s (enumInFx level s)

/-- FLASH_COMMAND_DONE (R440): the command ends; `data` are the bytes a read returned, `cells` what the device holds
anew. -/
def execFlashCommandDone (data : List Byte) (cells : List (Nat × List Byte))
    (s : State) : Host.Outcome State Fault Refusal :=
  finish s (flashDoneFx data cells s)

end Sys2Proof.Machine
end

