-- ==== Sys2Proof/Machine/ExecOutput.lean ====
section
/-! DEFINITION. The meanings of the commands of the output stage and the serial audio ports (R229 to R284).
Each is the effect that the module of its unit gives. -/

namespace Sys2Proof.Machine

/-- TDM_STOP of a leading port (R267). -/
def serialStopFx (p : SerialOut) (s : State) : State :=
  match p with
  | .tdm n => tdmStopFx n s
  | .aes t => txStopFx t s

/-- TDM_INTERNAL_FRAME of a port with elastic buffers (R270). -/
def serialInternalFx (p : SerialIn) (s : State) : State :=
  match p with
  | .tdm n => tdmInternalFx n s
  | .aes r => rxInternalFx r s

/-- TRIP (R245): a short or bridge fault on channel n, its pulse `lenNs` long. -/
def execTrip (n : Fin 32) (src : TripSrc) (lenNs : Nat) (s : State) : Host.Outcome State Fault Refusal :=
  finish s (tripPairFx n src lenNs s)

/-- DIAG_COMPLETE (R242): 60 ms of diagnostics of channel n end. -/
def execDiagComplete (n : Fin 32) (d : DiagIn) (s : State) : Host.Outcome State Fault Refusal :=
  finish s (diagFx n d s)

/-- SHORT_HOLD_EXPIRY (R246): channel n has been held 100 ms. -/
def execShortHoldExpiry (n : Fin 32) (s : State) : Host.Outcome State Fault Refusal :=
  finish s (shortHoldFx n s)

/-- RETEST_COMPLETE (R243): the 20 ms retest of channel n ends. -/
def execRetestComplete (n : Fin 32) (d : DiagIn) (s : State) : Host.Outcome State Fault Refusal :=
  finish s (retestFx n d s)

/-- SOFTSTART_COMPLETE (R240): W cycles of soft start of channel n are over. -/
def execSoftstartComplete (n : Fin 32) (s : State) : Host.Outcome State Fault Refusal :=
  finish s (softstartFx n s)

/-- RECOVER_COMPLETE (R238): W and 50 ms of RECOVER of channel n are over. -/
def execRecoverComplete (n : Fin 32) (s : State) : Host.Outcome State Fault Refusal :=
  finish s (recoverFx n s)

/-- SOFT_STOP_END (R240): the common duty of channel n has reached 0. -/
def execSoftStopEnd (n : Fin 32) (s : State) : Host.Outcome State Fault Refusal :=
  finish s (softStopFx n s)

/-- STOPPING_COMPLETE (R238): W cycles of STOPPING of channel n are over. -/
def execStoppingComplete (n : Fin 32) (s : State) : Host.Outcome State Fault Refusal :=
  finish s (stoppingFx n s)

/-- RETRY_REFILL (R238): channel n has been LIVE for 10 s without a trip. -/
def execRetryRefill (n : Fin 32) (s : State) : Host.Outcome State Fault Refusal :=
  finish s (retryFx n s)

/-- DC_DETECT (R248): the digital or the sensed detector of channel n completes its hold. -/
def execDcDetect (n : Fin 32) (sensed : Bool) (s : State) : Host.Outcome State Fault Refusal :=
  finish s (dcFx n sensed s)

/-- TH_RVC_MEASURE (R249): the pilot of channel n gives RVC in mΩ. -/
def execThRvcMeasure (n : Fin 32) (rvc : Nat) (s : State) : Host.Outcome State Fault Refusal :=
  finish s (rvcFx n rvc s)

/-- TDM_STOP (R267): the first frame start at least 2 bit clocks after the copy of RUN = 0. -/
def execTdmStop (p : SerialOut) (s : State) : Host.Outcome State Fault Refusal :=
  finish s (serialStopFx p s)

/-- MASK_APPLY (R269): a committed slot mask applies at its frame start. -/
def execMaskApply (n : Fin 8) (s : State) : Host.Outcome State Fault Refusal :=
  finish s (maskFx n s)

/-- TDM_FRAME (R263): a leading port runs its next frame; `din` are the slot words received in it. -/
def execTdmFrame (n : Fin 8) (din : List Word) (s : State) : Host.Outcome State Fault Refusal :=
  finish s (tdmFrameFx n din s)

/-- TDM_FRAME_RECEIVED (R270): a follower receives a frame of `bits` bit clocks. -/
def execTdmFrameReceived (n : Fin 8) (bits : Nat) (din : List Word)
    (s : State) : Host.Outcome State Fault Refusal :=
  finish s (tdmReceivedFx n bits din s)

/-- TDM_INTERNAL_FRAME (R270): an internal frame start of a follower or receiver. -/
def execTdmInternalFrame (p : SerialIn) (s : State) : Host.Outcome State Fault Refusal :=
  finish s (serialInternalFx p s)

/-- TDM_CLOCK_LOST (R274). -/
def execTdmClockLost (n : Fin 8) (s : State) : Host.Outcome State Fault Refusal :=
  finish s (tdmLostFx n s)

/-- TDM_CLOCK_REGAINED (R274). -/
def execTdmClockRegained (n : Fin 8) (s : State) : Host.Outcome State Fault Refusal :=
  finish s (tdmRegainedFx n s)

/-- AES_RX_FRAME (R277). -/
def execAesRxFrame (r : Fin 4) (f : AesFrame) (s : State) : Host.Outcome State Fault Refusal :=
  finish s (aesRxFx r f s)

/-- AES_RATE_MEASURE (R280): `frames` were received in the second, interpolated and rounded. -/
def execAesRateMeasure (r : Fin 4) (frames : Nat) (s : State) : Host.Outcome State Fault Refusal :=
  finish s (aesRateFx r frames s)

/-- AES_TX_FRAME (R281). -/
def execAesTxFrame (t : Fin 4) (s : State) : Host.Outcome State Fault Refusal :=
  finish s (aesTxFx t s)

end Sys2Proof.Machine
end

