-- ==== Sys2Proof/Machine/ExecPair.lean ====
section
/-! DEFINITION. The meanings of the commands of the pair controller and the service bus (R342 to R377).
Each is the effect that the module of its unit gives. -/

namespace Sys2Proof.Machine

/-- LEASE_RENEW (R353): RENEW is received. -/
def execLeaseRenew (m : LeaseMsg) (s : State) : Host.Outcome State Fault Refusal :=
  finish s (leaseRenewFx m s)

/-- LEASE_ACK (R353). -/
def execLeaseAck (m : LeaseMsg) (s : State) : Host.Outcome State Fault Refusal :=
  finish s (leaseAckFx m s)

/-- LEASE_RELINQUISH (R357). -/
def execLeaseRelinquish (m : LeaseMsg) (s : State) : Host.Outcome State Fault Refusal :=
  finish s (relinquishFx m s)

/-- LEASE_HANDOVER (R364). -/
def execLeaseHandover (m : LeaseMsg) (s : State) : Host.Outcome State Fault Refusal :=
  finish s (handoverFx m s)

/-- HANDOVER_ACK (R364). -/
def execHandoverAck (m : LeaseMsg) (s : State) : Host.Outcome State Fault Refusal :=
  finish s (handoverAckFx m s)

/-- LEASE_CLAIMED (R354). -/
def execLeaseClaimed (m : LeaseMsg) (s : State) : Host.Outcome State Fault Refusal :=
  finish s (claimedFx m s)

/-- LEASE_EXPIRY (R353): D_w passes. -/
def execLeaseExpiry (s : State) : Host.Outcome State Fault Refusal :=
  finish s (leaseExpiryFx s)

/-- CLAIM (R354). -/
def execClaim (s : State) : Host.Outcome State Fault Refusal :=
  finish s (claimFx s)

/-- FORMING_TIMEOUT (R345). -/
def execFormingTimeout (s : State) : Host.Outcome State Fault Refusal :=
  finish s (formingFx s)

/-- OVERLAP (R356): LEASE_OWN and PEER_OWN have both been high for longer than SEL_GAP. -/
def execOverlap (s : State) : Host.Outcome State Fault Refusal :=
  finish s (overlapFx s)

/-- PEER_OWN_CHANGE (R354): the level read on PEER_OWN changes. -/
def execPeerOwnChange (level : Bool) (s : State) : Host.Outcome State Fault Refusal :=
  finish s (peerOwnFx level s)

/-- PEER_OWN_STUCK (R359). -/
def execPeerOwnStuck (s : State) : Host.Outcome State Fault Refusal :=
  finish s (stuckFx s)

/-- DIGEST (R350): the partner's digest of egress cycle `cyc`. -/
def execDigest (cyc : BitVec 48) (dig : BitVec 64) (nsamp : Word)
    (s : State) : Host.Outcome State Fault Refusal :=
  finish s (digestFx cyc.toNat dig.toNat nsamp.toNat s)

/-- MIRROR (R348): the partner's record of capture cycle `cyc`. -/
def execMirror (cyc : BitVec 48) (entries : List MirrorEntry) (s : State) : Host.Outcome State Fault Refusal :=
  finish s (mirrorFx cyc.toNat entries s)

/-- SENSE (R349): the windward's sense samples of cycle `cyc`. -/
def execSense (cyc : BitVec 48) (rows : List SenseIn) (s : State) : Host.Outcome State Fault Refusal :=
  finish s (senseFx cyc.toNat rows s)

/-- TRIP_RECORD (R349): the channels tripped on the windward in cycle `cyc`. -/
def execTripRecord (cyc : BitVec 48) (mask : Word) (s : State) : Host.Outcome State Fault Refusal :=
  finish s (tripRecordFx cyc.toNat mask.toNat s)

/-- FORM (R344). -/
def execForm (tag : BitVec 16) (role : Fin 4) (own side : Bool)
    (s : State) : Host.Outcome State Fault Refusal :=
  finish s (formFx tag.toNat role own side s)

/-- RESYNC_REQ (R360). -/
def execResyncReq (s : State) : Host.Outcome State Fault Refusal :=
  finish s (resyncReqFx s)

/-- RESYNC_GO (R360): the snapshot boundary is `cyc`. -/
def execResyncGo (cyc : BitVec 48) (s : State) : Host.Outcome State Fault Refusal :=
  finish s (resyncGoFx cyc.toNat s)

/-- RESYNC_DONE (R360): byte count and CRC-64 of the transfer, and the block state it holds. -/
def execResyncDone (count : Word) (crc : BitVec 64) (blk : BlockSnap)
    (s : State) : Host.Outcome State Fault Refusal :=
  finish s (resyncDoneFx count.toNat crc.toNat blk s)

/-- XFER_SENT (R360). -/
def execXferSent (s : State) : Host.Outcome State Fault Refusal :=
  finish s (xferSentFx s)

/-- RESTORE_COMPLETE (R362). -/
def execRestoreComplete (s : State) : Host.Outcome State Fault Refusal :=
  finish s (restoreDoneFx s)

/-- RESYNC_RETRY (R363). -/
def execResyncRetry (s : State) : Host.Outcome State Fault Refusal :=
  finish s (resyncRetryFx s)

/-- ALARM_WINDOW_OPEN (R371). -/
def execAlarmWindowOpen (s : State) : Host.Outcome State Fault Refusal :=
  finish s (alarmOpenFx s)

/-- ALARM_WINDOW_CLOSE (R372). -/
def execAlarmWindowClose (s : State) : Host.Outcome State Fault Refusal :=
  finish s (alarmCloseFx s)

/-- SVB_TX_START (R372): the bus is idle. -/
def execSvbTxStart (s : State) : Host.Outcome State Fault Refusal :=
  finish s (svbTxFx s)

/-- SVB_COLLISION (R369). -/
def execSvbCollision (s : State) : Host.Outcome State Fault Refusal :=
  finish s (svbCollFx s)

/-- SVB_BACKOFF_EXPIRY (R369). -/
def execSvbBackoffExpiry (s : State) : Host.Outcome State Fault Refusal :=
  finish s (svbBackoffFx s)

/-- SVB_RX_FRAME (R375): a frame is received, its pair reversed or not. -/
def execSvbRxFrame (bytes : List Byte) (fcsOk reversed : Bool)
    (s : State) : Host.Outcome State Fault Refusal :=
  finish s (svbRxFx bytes fcsOk reversed s)

/-- PLCA_TX_OPPORTUNITY (R370). -/
def execPlcaTxOpportunity (s : State) : Host.Outcome State Fault Refusal :=
  finish s (plcaFx s)

/-- BEACON_LOST (R370): four PLCA cycles without a beacon. -/
def execBeaconLost (s : State) : Host.Outcome State Fault Refusal :=
  finish s (beaconLostFx s)

/-- BEACON_RECEIVED (R370). -/
def execBeaconReceived (s : State) : Host.Outcome State Fault Refusal :=
  finish s (beaconFx s)

end Sys2Proof.Machine
end

