-- ==== Sys2Proof/Machine/ExecTime.lean ====
section
/-! DEFINITION. The meanings of the commands of the boundary, the register model, fabric time and Compass
(R16, R30 to R114).
Each is the effect that the module of its unit gives. -/

namespace Sys2Proof.Machine

/-- A read of an RC word in the clock in which hardware sets some of its bits: the set wins (R36). -/
def clearReadFx (m : Master) (a hwSet : Nat) (s : State) : State :=
  whenS (isReg a && decodes s a) (evOr a (hwSet &&& rcMask a)) (readCmd m a s)

/-- COMPASS_TICK, with the supervisor's tick line (R85, R209). -/
def compassStepFx (s : State) : State := { compassTickFx s with sup.tick := true }

/-- CYCLE_BOUNDARY (R16): the next boundary, with what the outside supplies for it. -/
def execCycleBoundary (inp : BoundaryInput) (s : State) : Host.Outcome State Fault Refusal :=
  finish s (cycleBoundaryFx inp s)

/-- COMMIT_REQUEST (R45): a write of SYS.COMMIT by a master. -/
def execCommitRequest (m : Master) (mask : Word) (s : State) : Host.Outcome State Fault Refusal :=
  finish s (writeCmd m 0x40000010 mask.toNat s)

/-- REGISTER_WRITE (R35): a bus write to a register with no row of its own. -/
def execRegisterWrite (m : Master) (addr : Word) (size : AccSize) (val : Word)
    (s : State) : Host.Outcome State Fault Refusal :=
  finish s (busWrite m addr.toNat size val.toNat s)

/-- HELD_SHADOW_WRITE_LAND (R47): the writes held during the commit copy land. -/
def execHeldShadowWriteLand (s : State) : Host.Outcome State Fault Refusal :=
  finish s (heldLandFx s)

/-- TOP_WORD_WRITE (R51): a write to the top word of an RI multi-word value. -/
def execTopWordWrite (m : Master) (addr : Word) (val : Word) (s : State) : Host.Outcome State Fault Refusal :=
  finish s (writeCmd m addr.toNat val.toNat s)

/-- LOW_WORD_READ (R50): a read of the low word of a multi-word value. -/
def execLowWordRead (m : Master) (addr : Word) (s : State) : Host.Outcome State Fault Refusal :=
  finish s (readCmd m addr.toNat s)

/-- CLEAR_ON_READ (R36): a read of an RC word; `hwSet` are the bits hardware sets in the same clock. -/
def execClearOnRead (m : Master) (addr : Word) (hwSet : Word) (s : State) : Host.Outcome State Fault Refusal :=
  finish s (clearReadFx m addr.toNat hwSet.toNat s)

/-- SCRUBBER_SWEEP (R52): one sweep; `live` and `shadow` are words whose parity has failed since the last one. -/
def execScrubberSweep (live : List Word) (shadow : List Word) (s : State) : Host.Outcome State Fault Refusal :=
  finish s (scrubFx (live.map (fun w => w.toNat)) (shadow.map (fun w => w.toNat)) s)

/-- MEMORY_ECC_ERROR (R466): a bus read by `m` meets an uncorrectable error at `addr`. -/
def execMemoryEccError (m : Master) (addr : Word) (s : State) : Host.Outcome State Fault Refusal :=
  finish s (memoryEccFx m addr.toNat s)

/-- FT_STEP (R104): the boundary instant k1 + F of a step with fade. -/
def execFtStep (s : State) : Host.Outcome State Fault Refusal :=
  finish s (ftStepFx s)

/-- TXF_POP (R63): a read of PRT.TXF_NS. -/
def execTxfPop (m : Master) (port : Fin 4) (s : State) : Host.Outcome State Fault Refusal :=
  finish s (readCmd m (prtBase port + 0x42C) s)

/-- TXF_DROP_CLEAR (R63): a write of PRT.TXF_DROPCLR. -/
def execTxfDropClear (m : Master) (port : Fin 4) (s : State) : Host.Outcome State Fault Refusal :=
  finish s (writeCmd m (prtBase port + 0x424) 1 s)

/-- TEV_ARM (R76): ARM written. -/
def execTevArm (m : Master) (n : Fin 4) (s : State) : Host.Outcome State Fault Refusal :=
  finish s (writeCmd m (tevBase n + 0x20) 1 s)

/-- TEV_CANCEL (R76): CANCEL written. -/
def execTevCancel (m : Master) (n : Fin 4) (s : State) : Host.Outcome State Fault Refusal :=
  finish s (writeCmd m (tevBase n + 0x20) 2 s)

/-- TEV_EDGE (R77): fabric time reaches the next edge. -/
def execTevEdge (n : Fin 4) (s : State) : Host.Outcome State Fault Refusal :=
  finish s (tevFire n s)

/-- PPS_EDGE (R79): fabric time reaches the next selected second. -/
def execPpsEdge (s : State) : Host.Outcome State Fault Refusal :=
  finish s (ppsFire s)

/-- PULSE_END (R77): the width of a pulse has elapsed. -/
def execPulseEnd (o : PulseOut) (s : State) : Host.Outcome State Fault Refusal :=
  finish s (pulseDone o s)

/-- TCAP_EDGE (R81): an edge on a capture input, `quarter` steps of 250 ps after the tick, lasting `lenNs`. -/
def execTcapEdge (n : Fin 4) (rising : Bool) (quarter : Fin 8) (lenNs : Nat)
    (s : State) : Host.Outcome State Fault Refusal :=
  finish s (tcapCapture n rising quarter lenNs s)

/-- TCAP_POP (R81): a read of TCAP[n].TS_NS. -/
def execTcapPop (m : Master) (n : Fin 4) (s : State) : Host.Outcome State Fault Refusal :=
  finish s (readCmd m (tcapBase n + 8) s)

/-- START_ARM (R83): ARM written to GRAT.START_ARM. -/
def execStartArm (m : Master) (s : State) : Host.Outcome State Fault Refusal :=
  finish s (writeCmd m 0x40070040 1 s)

/-- START_CANCEL (R83): CANCEL written to GRAT.START_ARM. -/
def execStartCancel (m : Master) (s : State) : Host.Outcome State Fault Refusal :=
  finish s (writeCmd m 0x40070040 2 s)

/-- SYNC_START_EDGE (R83): a rising edge on SYNC_START_IN. -/
def execSyncStartEdge (quarter : Fin 8) (s : State) : Host.Outcome State Fault Refusal :=
  finish s (startEdge quarter s)

/-- COMPASS_TICK (R85): one Compass tick. -/
def execCompassTick (s : State) : Host.Outcome State Fault Refusal :=
  finish s (compassStepFx s)

/-- LOSS_OF_SIGNAL (R90): two expected periods of a candidate have passed without an arrival. -/
def execLossOfSignal (slot : Fin 8) (s : State) : Host.Outcome State Fault Refusal :=
  finish s (losFx slot s)

/-- CANDIDATE_QUALIFIED (R91): the conditions have held for QUAL_TIME. -/
def execCandidateQualified (slot : Fin 8) (s : State) : Host.Outcome State Fault Refusal :=
  finish s (qualifiedFx slot s)

/-- DRIFT_WARN_TIMEOUT (R93): drift beyond DRIFT_WARN for DRIFT_WARN_TIME. -/
def execDriftWarnTimeout (slot : Fin 8) (s : State) : Host.Outcome State Fault Refusal :=
  finish s (driftWarnFx slot s)

/-- WTR_EXPIRY (R97): the wait-to-restore timer of a better candidate expires. -/
def execWtrExpiry (slot : Fin 8) (s : State) : Host.Outcome State Fault Refusal :=
  finish s (wtrFx slot s)

/-- LOCKED (R95): ACQUIRING to LOCKED. -/
def execLocked (s : State) : Host.Outcome State Fault Refusal :=
  finish s (lockedFx s)

/-- UNLOCKED (R95): LOCKED to ACQUIRING. -/
def execUnlocked (s : State) : Host.Outcome State Fault Refusal :=
  finish s (unlockedFx s)

/-- HOLD_LIMIT_EXPIRY (R95): HOLDOVER to LOST. -/
def execHoldLimitExpiry (s : State) : Host.Outcome State Fault Refusal :=
  finish s (holdLimitFx s)

/-- HISTORY_RECORD (R105): the mean of RATE over a second joins the history. -/
def execHistoryRecord (s : State) : Host.Outcome State Fault Refusal :=
  finish s (historyFx s)

/-- BUILD_OUT_END (R100): the averaging of a switch ends. -/
def execBuildOutEnd (s : State) : Host.Outcome State Fault Refusal :=
  finish s (buildOutFx s)

/-- PHASE_SLEW_DONE (R102): a phase slew completes. -/
def execPhaseSlewDone (k : SlewKind) (s : State) : Host.Outcome State Fault Refusal :=
  finish s (slewDoneFx k s)

/-- PSTEP_GO (R107): GO written to CMP.PSTEP. -/
def execPstepGo (m : Master) (s : State) : Host.Outcome State Fault Refusal :=
  finish s (writeCmd m 0x400500D0 1 s)

/-- REALIGN_GO (R108): GO written to CMP.REALIGN. -/
def execRealignGo (m : Master) (s : State) : Host.Outcome State Fault Refusal :=
  finish s (writeCmd m 0x400500E4 1 s)

/-- REFERENCE_INPUT_EDGE (R87): an edge of an input that candidate `slot` measures. -/
def execReferenceInputEdge (slot : Fin 8) (pin : RefInput) (s : State) : Host.Outcome State Fault Refusal :=
  finish s (refEdge slot pin s)

end Sys2Proof.Machine
end

