-- ==== Sys2Proof/Machine/Dispatch.lean ====
section
/-! DEFINITION. The effect of a command on everything but the queue: one arm per constructor. -/

namespace Sys2Proof.Machine

def exec (i : Instr) (s : State) : Host.Outcome State Fault Refusal :=
  match i with
  | .cycleBoundary inp => Sys2Proof.Machine.execCycleBoundary inp s
  | .commitRequest m mask => Sys2Proof.Machine.execCommitRequest m mask s
  | .registerWrite m addr size val => Sys2Proof.Machine.execRegisterWrite m addr size val s
  | .heldShadowWriteLand => Sys2Proof.Machine.execHeldShadowWriteLand s
  | .topWordWrite m addr val => Sys2Proof.Machine.execTopWordWrite m addr val s
  | .lowWordRead m addr => Sys2Proof.Machine.execLowWordRead m addr s
  | .clearOnRead m addr hwSet => Sys2Proof.Machine.execClearOnRead m addr hwSet s
  | .scrubberSweep live shadow => Sys2Proof.Machine.execScrubberSweep live shadow s
  | .memoryEccError m addr => Sys2Proof.Machine.execMemoryEccError m addr s
  | .ftStep => Sys2Proof.Machine.execFtStep s
  | .txfPop m port => Sys2Proof.Machine.execTxfPop m port s
  | .txfDropClear m port => Sys2Proof.Machine.execTxfDropClear m port s
  | .tevArm m n => Sys2Proof.Machine.execTevArm m n s
  | .tevCancel m n => Sys2Proof.Machine.execTevCancel m n s
  | .tevEdge n => Sys2Proof.Machine.execTevEdge n s
  | .ppsEdge => Sys2Proof.Machine.execPpsEdge s
  | .pulseEnd o => Sys2Proof.Machine.execPulseEnd o s
  | .tcapEdge n rising quarter lenNs => Sys2Proof.Machine.execTcapEdge n rising quarter lenNs s
  | .tcapPop m n => Sys2Proof.Machine.execTcapPop m n s
  | .startArm m => Sys2Proof.Machine.execStartArm m s
  | .startCancel m => Sys2Proof.Machine.execStartCancel m s
  | .syncStartEdge quarter => Sys2Proof.Machine.execSyncStartEdge quarter s
  | .compassTick => Sys2Proof.Machine.execCompassTick s
  | .lossOfSignal slot => Sys2Proof.Machine.execLossOfSignal slot s
  | .candidateQualified slot => Sys2Proof.Machine.execCandidateQualified slot s
  | .driftWarnTimeout slot => Sys2Proof.Machine.execDriftWarnTimeout slot s
  | .wtrExpiry slot => Sys2Proof.Machine.execWtrExpiry slot s
  | .locked => Sys2Proof.Machine.execLocked s
  | .unlocked => Sys2Proof.Machine.execUnlocked s
  | .holdLimitExpiry => Sys2Proof.Machine.execHoldLimitExpiry s
  | .historyRecord => Sys2Proof.Machine.execHistoryRecord s
  | .buildOutEnd => Sys2Proof.Machine.execBuildOutEnd s
  | .phaseSlewDone k => Sys2Proof.Machine.execPhaseSlewDone k s
  | .pstepGo m => Sys2Proof.Machine.execPstepGo m s
  | .realignGo m => Sys2Proof.Machine.execRealignGo m s
  | .busSilentSet b => Sys2Proof.Machine.execBusSilentSet b s
  | .silenceSleep g => Sys2Proof.Machine.execSilenceSleep g s
  | .coreRelease c => Sys2Proof.Machine.execCoreRelease c s
  | .coreBudgetExpiry k => Sys2Proof.Machine.execCoreBudgetExpiry k s
  | .waitCycleDrainEnd k => Sys2Proof.Machine.execWaitCycleDrainEnd k s
  | .barrierRelease c => Sys2Proof.Machine.execBarrierRelease c s
  | .busLoadReturn k clocks => Sys2Proof.Machine.execBusLoadReturn k clocks s
  | .repeatLevelEnd k => Sys2Proof.Machine.execRepeatLevelEnd k s
  | .interruptEntry clocks => Sys2Proof.Machine.execInterruptEntry clocks s
  | .nop is => Sys2Proof.Machine.execNop is s
  | .jmp is t => Sys2Proof.Machine.execJmp is t s
  | .call is t => Sys2Proof.Machine.execCall is t s
  | .ret is => Sys2Proof.Machine.execRet is s
  | .rep is n stop => Sys2Proof.Machine.execRep is n stop s
  | .breakC is => Sys2Proof.Machine.execBreakC is s
  | .waitCycle is => Sys2Proof.Machine.execWaitCycle is s
  | .sync is => Sys2Proof.Machine.execSync is s
  | .cmac is p x y mode cj => Sys2Proof.Machine.execCmac is p x y mode cj s
  | .cmsub is p x y mode cj => Sys2Proof.Machine.execCmsub is p x y mode cj s
  | .cmul is p x y mode cj => Sys2Proof.Machine.execCmul is p x y mode cj s
  | .mac is n a b mode => Sys2Proof.Machine.execMac is n a b mode s
  | .msub is n a b mode => Sys2Proof.Machine.execMsub is n a b mode s
  | .mul is n a b mode => Sys2Proof.Machine.execMul is n a b mode s
  | .mac2 is p x y mode => Sys2Proof.Machine.execMac2 is p x y mode s
  | .aclr is pair n => Sys2Proof.Machine.execAclr is pair n s
  | .rnd is pair d n sh => Sys2Proof.Machine.execRnd is pair d n sh s
  | .satX is pair d n sh => Sys2Proof.Machine.execSatX is pair d n sh s
  | .add is d a b => Sys2Proof.Machine.execAdd is d a b s
  | .sub is d a b => Sys2Proof.Machine.execSub is d a b s
  | .adds is d a b => Sys2Proof.Machine.execAdds is d a b s
  | .subs is d a b => Sys2Proof.Machine.execSubs is d a b s
  | .neg is d a => Sys2Proof.Machine.execNeg is d a s
  | .abs is d a => Sys2Proof.Machine.execAbs is d a s
  | .andV is d a b => Sys2Proof.Machine.execAndV is d a b s
  | .orV is d a b => Sys2Proof.Machine.execOrV is d a b s
  | .xorV is d a b => Sys2Proof.Machine.execXorV is d a b s
  | .notV is d a => Sys2Proof.Machine.execNotV is d a s
  | .shl is d a n => Sys2Proof.Machine.execShl is d a n s
  | .shr is d a n => Sys2Proof.Machine.execShr is d a n s
  | .shra is d a n => Sys2Proof.Machine.execShra is d a n s
  | .minV is d a b => Sys2Proof.Machine.execMinV is d a b s
  | .maxV is d a b => Sys2Proof.Machine.execMaxV is d a b s
  | .clz is d a => Sys2Proof.Machine.execClz is d a s
  | .mov is d a => Sys2Proof.Machine.execMov is d a s
  | .movi is d imm => Sys2Proof.Machine.execMovi is d imm s
  | .movh is d imm => Sys2Proof.Machine.execMovh is d imm s
  | .cmp is cc p a b => Sys2Proof.Machine.execCmp is cc p a b s
  | .sel is d a b p => Sys2Proof.Machine.execSel is d a b p s
  | .mrd is d src => Sys2Proof.Machine.execMrd is d src s
  | .mwr is a => Sys2Proof.Machine.execMwr is a s
  | .aadd is n byM imm => Sys2Proof.Machine.execAadd is n byM imm s
  | .amod is n j rev => Sys2Proof.Machine.execAmod is n j rev s
  | .amov is f n v => Sys2Proof.Machine.execAmov is f n v s
  | .amovi is f n imm => Sys2Proof.Machine.execAmovi is f n imm s
  | .ldW is slot d ea => Sys2Proof.Machine.execLdW is slot d ea s
  | .ldD is slot d ea => Sys2Proof.Machine.execLdD is slot d ea s
  | .stW is slot v ea => Sys2Proof.Machine.execStW is slot v ea s
  | .stD is slot v ea => Sys2Proof.Machine.execStD is slot v ea s
  | .movs is mv => Sys2Proof.Machine.execMovs is mv s
  | .iret is => Sys2Proof.Machine.execIret is s
  | .user is => Sys2Proof.Machine.execUser is s
  | .wfi is => Sys2Proof.Machine.execWfi is s
  | .trap is n => Sys2Proof.Machine.execTrap is n s
  | .semAcquire m c sem => Sys2Proof.Machine.execSemAcquire m c sem s
  | .semRelease m c sem val => Sys2Proof.Machine.execSemRelease m c sem val s
  | .mbxPush m c b val => Sys2Proof.Machine.execMbxPush m c b val s
  | .mbxPop m c b => Sys2Proof.Machine.execMbxPop m c b s
  | .psnapDone c stalls => Sys2Proof.Machine.execPsnapDone c stalls s
  | .trip n src lenNs => Sys2Proof.Machine.execTrip n src lenNs s
  | .diagComplete n d => Sys2Proof.Machine.execDiagComplete n d s
  | .shortHoldExpiry n => Sys2Proof.Machine.execShortHoldExpiry n s
  | .retestComplete n d => Sys2Proof.Machine.execRetestComplete n d s
  | .softstartComplete n => Sys2Proof.Machine.execSoftstartComplete n s
  | .recoverComplete n => Sys2Proof.Machine.execRecoverComplete n s
  | .softStopEnd n => Sys2Proof.Machine.execSoftStopEnd n s
  | .stoppingComplete n => Sys2Proof.Machine.execStoppingComplete n s
  | .retryRefill n => Sys2Proof.Machine.execRetryRefill n s
  | .dcDetect n sensed => Sys2Proof.Machine.execDcDetect n sensed s
  | .thRvcMeasure n rvc => Sys2Proof.Machine.execThRvcMeasure n rvc s
  | .tdmStop p => Sys2Proof.Machine.execTdmStop p s
  | .maskApply n => Sys2Proof.Machine.execMaskApply n s
  | .tdmFrame n din => Sys2Proof.Machine.execTdmFrame n din s
  | .tdmFrameReceived n bits din => Sys2Proof.Machine.execTdmFrameReceived n bits din s
  | .tdmInternalFrame p => Sys2Proof.Machine.execTdmInternalFrame p s
  | .tdmClockLost n => Sys2Proof.Machine.execTdmClockLost n s
  | .tdmClockRegained n => Sys2Proof.Machine.execTdmClockRegained n s
  | .aesRxFrame r f => Sys2Proof.Machine.execAesRxFrame r f s
  | .aesRateMeasure r frames => Sys2Proof.Machine.execAesRateMeasure r frames s
  | .aesTxFrame t => Sys2Proof.Machine.execAesTxFrame t s
  | .linkUp p phaseTx phaseRx rxInv anPause => Sys2Proof.Machine.execLinkUp p phaseTx phaseRx rxInv anPause s
  | .linkDown p => Sys2Proof.Machine.execLinkDown p s
  | .rxFrame p bytes fcsOk => Sys2Proof.Machine.execRxFrame p bytes fcsOk s
  | .duplicateStateTimeout flow => Sys2Proof.Machine.execDuplicateStateTimeout flow s
  | .txFrameStart p => Sys2Proof.Machine.execTxFrameStart p s
  | .pauseExpiry p => Sys2Proof.Machine.execPauseExpiry p s
  | .pauseRepeat p => Sys2Proof.Machine.execPauseRepeat p s
  | .pauseWdTrip p => Sys2Proof.Machine.execPauseWdTrip p s
  | .holdoffEnd p => Sys2Proof.Machine.execHoldoffEnd p s
  | .txDescriptor p => Sys2Proof.Machine.execTxDescriptor p s
  | .txDescriptorComplete p => Sys2Proof.Machine.execTxDescriptorComplete p s
  | .helloReceived p bytes => Sys2Proof.Machine.execHelloReceived p bytes s
  | .adjacencyDead p => Sys2Proof.Machine.execAdjacencyDead p s
  | .floodArm m p len => Sys2Proof.Machine.execFloodArm m p len s
  | .recordRefresh => Sys2Proof.Machine.execRecordRefresh s
  | .recordMaxage typ key => Sys2Proof.Machine.execRecordMaxage typ key s
  | .bindHoldExpiry key => Sys2Proof.Machine.execBindHoldExpiry key s
  | .reserve p m => Sys2Proof.Machine.execReserve p m s
  | .confirm p m => Sys2Proof.Machine.execConfirm p m s
  | .refuse p m => Sys2Proof.Machine.execRefuse p m s
  | .release p m => Sys2Proof.Machine.execRelease p m s
  | .broken p m => Sys2Proof.Machine.execBroken p m s
  | .rsvHoldExpiry tag => Sys2Proof.Machine.execRsvHoldExpiry tag s
  | .flowIdleExpiry x => Sys2Proof.Machine.execFlowIdleExpiry x s
  | .moveOverlapExpiry flow => Sys2Proof.Machine.execMoveOverlapExpiry flow s
  | .retryExpiry flow => Sys2Proof.Machine.execRetryExpiry flow s
  | .leaseRenew m => Sys2Proof.Machine.execLeaseRenew m s
  | .leaseAck m => Sys2Proof.Machine.execLeaseAck m s
  | .leaseRelinquish m => Sys2Proof.Machine.execLeaseRelinquish m s
  | .leaseHandover m => Sys2Proof.Machine.execLeaseHandover m s
  | .handoverAck m => Sys2Proof.Machine.execHandoverAck m s
  | .leaseClaimed m => Sys2Proof.Machine.execLeaseClaimed m s
  | .leaseExpiry => Sys2Proof.Machine.execLeaseExpiry s
  | .claim => Sys2Proof.Machine.execClaim s
  | .formingTimeout => Sys2Proof.Machine.execFormingTimeout s
  | .overlap => Sys2Proof.Machine.execOverlap s
  | .peerOwnChange level => Sys2Proof.Machine.execPeerOwnChange level s
  | .peerOwnStuck => Sys2Proof.Machine.execPeerOwnStuck s
  | .digest cyc dig nsamp => Sys2Proof.Machine.execDigest cyc dig nsamp s
  | .mirror cyc entries => Sys2Proof.Machine.execMirror cyc entries s
  | .sense cyc rows => Sys2Proof.Machine.execSense cyc rows s
  | .tripRecord cyc mask => Sys2Proof.Machine.execTripRecord cyc mask s
  | .form tag role own side => Sys2Proof.Machine.execForm tag role own side s
  | .resyncReq => Sys2Proof.Machine.execResyncReq s
  | .resyncGo cyc => Sys2Proof.Machine.execResyncGo cyc s
  | .resyncDone count crc blk => Sys2Proof.Machine.execResyncDone count crc blk s
  | .xferSent => Sys2Proof.Machine.execXferSent s
  | .restoreComplete => Sys2Proof.Machine.execRestoreComplete s
  | .resyncRetry => Sys2Proof.Machine.execResyncRetry s
  | .alarmWindowOpen => Sys2Proof.Machine.execAlarmWindowOpen s
  | .alarmWindowClose => Sys2Proof.Machine.execAlarmWindowClose s
  | .svbTxStart => Sys2Proof.Machine.execSvbTxStart s
  | .svbCollision => Sys2Proof.Machine.execSvbCollision s
  | .svbBackoffExpiry => Sys2Proof.Machine.execSvbBackoffExpiry s
  | .svbRxFrame bytes fcsOk reversed => Sys2Proof.Machine.execSvbRxFrame bytes fcsOk reversed s
  | .plcaTxOpportunity => Sys2Proof.Machine.execPlcaTxOpportunity s
  | .beaconLost => Sys2Proof.Machine.execBeaconLost s
  | .read f => Sys2Proof.Machine.execRead f s
  | .write f => Sys2Proof.Machine.execWrite f s
  | .readStatus f => Sys2Proof.Machine.execReadStatus f s
  | .enumerate f => Sys2Proof.Machine.execEnumerate f s
  | .whoCalls f => Sys2Proof.Machine.execWhoCalls f s
  | .bootStream f => Sys2Proof.Machine.execBootStream f s
  | .hostExecDone us => Sys2Proof.Machine.execHostExecDone us s
  | .transactionAbort => Sys2Proof.Machine.execTransactionAbort s
  | .forget m => Sys2Proof.Machine.execForget m s
  | .atnSetSup m => Sys2Proof.Machine.execAtnSetSup m s
  | .msgOut m val => Sys2Proof.Machine.execMsgOut m val s
  | .msgIn m val => Sys2Proof.Machine.execMsgIn m val s
  | .gustAdmit => Sys2Proof.Machine.execGustAdmit s
  | .domainUp d => Sys2Proof.Machine.execDomainUp d s
  | .domainDown d => Sys2Proof.Machine.execDomainDown d s
  | .droop vsys => Sys2Proof.Machine.execDroop vsys s
  | .droopRecovery vsys => Sys2Proof.Machine.execDroopRecovery vsys s
  | .listen m => Sys2Proof.Machine.execListen m s
  | .standby m => Sys2Proof.Machine.execStandby m s
  | .wakeFrame p bytes fcsOk => Sys2Proof.Machine.execWakeFrame p bytes fcsOk s
  | .wakeHcsN => Sys2Proof.Machine.execWakeHcsN s
  | .wakeSyncStart => Sys2Proof.Machine.execWakeSyncStart s
  | .sleepAlarm => Sys2Proof.Machine.execSleepAlarm s
  | .thermalSample temp => Sys2Proof.Machine.execThermalSample temp s
  | .throttleStep => Sys2Proof.Machine.execThrottleStep s
  | .thermalFatal => Sys2Proof.Machine.execThermalFatal s
  | .powerOnReset logLost => Sys2Proof.Machine.execPowerOnReset logLost s
  | .resetNLow => Sys2Proof.Machine.execResetNLow s
  | .brownout => Sys2Proof.Machine.execBrownout s
  | .vcoreUndervoltage => Sys2Proof.Machine.execVcoreUndervoltage s
  | .warmReset m => Sys2Proof.Machine.execWarmReset m s
  | .jtagWarmReset => Sys2Proof.Machine.execJtagWarmReset s
  | .resetRelease vsys us flash => Sys2Proof.Machine.execResetRelease vsys us flash s
  | .bootDomainsOn => Sys2Proof.Machine.execBootDomainsOn s
  | .rbBurn m => Sys2Proof.Machine.execRbBurn m s
  | .otpPgmGo m => Sys2Proof.Machine.execOtpPgmGo m s
  | .fgoSend m => Sys2Proof.Machine.execFgoSend m s
  | .fgoRead m => Sys2Proof.Machine.execFgoRead m s
  | .raiseFault m val => Sys2Proof.Machine.execRaiseFault m val s
  | .fltAck m => Sys2Proof.Machine.execFltAck m s
  | .watchdogExpiry => Sys2Proof.Machine.execWatchdogExpiry s
  | .wdogKick m => Sys2Proof.Machine.execWdogKick m s
  | .flogClr m => Sys2Proof.Machine.execFlogClr m s
  | .functionReset m reg val => Sys2Proof.Machine.execFunctionReset m reg val s
  | .functionResetDrainEnd fn => Sys2Proof.Machine.execFunctionResetDrainEnd fn s
  | .freeze m => Sys2Proof.Machine.execFreeze m s
  | .thaw m => Sys2Proof.Machine.execThaw m s
  | .snap m => Sys2Proof.Machine.execSnap m s
  | .surveyClear m => Sys2Proof.Machine.execSurveyClear m s
  | .snapComplete => Sys2Proof.Machine.execSnapComplete s
  | .snapCopyDone => Sys2Proof.Machine.execSnapCopyDone s
  | .sampleRecord k => Sys2Proof.Machine.execSampleRecord k s
  | .smpClr m mask => Sys2Proof.Machine.execSmpClr m mask s
  | .smpSeed m val => Sys2Proof.Machine.execSmpSeed m val s
  | .referenceInputEdge slot pin => Sys2Proof.Machine.execReferenceInputEdge slot pin s
  | .transactionStart => Sys2Proof.Machine.execTransactionStart s
  | .transactionEnd => Sys2Proof.Machine.execTransactionEnd s
  | .enumInChange level => Sys2Proof.Machine.execEnumInChange level s
  | .beaconReceived => Sys2Proof.Machine.execBeaconReceived s
  | .flashCommandDone data cells => Sys2Proof.Machine.execFlashCommandDone data cells s
  | .postedWriteComplete k => Sys2Proof.Machine.execPostedWriteComplete k s

end Sys2Proof.Machine
end

