-- ==== Sys2Proof/Machine/Step.lean ====
section
/-! DEFINITION. The step of the block: the command at the front of the queue takes effect; on an empty queue the
local counter counts. -/

namespace Sys2Proof.Machine

/-- One step. With no command waiting the block idles for one tick of LC (R56).
[DESIGN CHOICE, unsafe: log entry 1] [DESIGN CHOICE, unsafe: log entry 2] -/
def step (s : State) : Host.Outcome State Fault Refusal :=
  match s.pending with
  | [] => .next { s with time.lc := s.time.lc + 1 }
  | c :: rest => exec c { s with pending := rest }

/-- The state with the command a table word spells at the front of its queue; the table's rows give no bits, so no
word spells one. -/
def State.withFetchWord (s : State) (nbits w : Nat) : State :=
  match decodeTableWord nbits w with
  | some c => { s with pending := c :: s.pending }
  | none => s

end Sys2Proof.Machine
end

