-- ==== Sys2Proof/Safety.lean ====
section
/-! DEFINITION. The terms in which claims are stated: a bus access that goes through, the end of every command, a
packet that issues, the invariants. -/

namespace Sys2Proof.Machine

/-- Nothing detected waits for its place in FLT. -/
def quiet (s : State) : Bool := s.flt.fresh.isEmpty

/-- Where a command that began in `s` and had the effect `u` ends: the faults that `u` detected are placed, the draw
counter of the free values has moved on, and the queue is as it was. -/
def placed (s u : State) : State := { settle u with pending := s.pending }

/-- A bus access that a master makes counts in the Survey (R470). -/
def counted (s : State) : State := srvUp 31 0 1 s

/-- A write of a register by master `m` goes through: the master issues, the firewall allows it, the address decodes,
the window is not locked and no reset in progress holds it (R30 to R39, R416, R433, R434, R457, R480). -/
def writes (s : State) (m : Master) (a : Nat) : Bool :=
  isReg a && issues s m && (fwCheck s m a true).isNone && !badAccess s a .word
    && !(winOf a == 30 && !srvMay s m true) && !locked s m a && !waitsReset s a

/-- A read of a register by master `m` goes through, and the word passes parity (R52). -/
def reads (s : State) (m : Master) (a : Nat) : Bool :=
  isReg a && issues s m && (fwCheck s m a false).isNone && !badAccess s a .word
    && !(winOf a == 30 && !srvMay s m false) && !waitsReset s a && !waitsSnap s a false
    && !s.hub.liveBad.contains a

/-- The lower-half address of a register that is neither a semaphore nor a mailbox (R32, R219, R220). -/
def plainReg (a : Nat) : Bool :=
  decide (offOf a < 0x8000) &&
    !(decide (21 ≤ winOf a) && decide (winOf a ≤ 24) &&
      ((decide (0x40 ≤ offOf a) && decide (offOf a < 0xC0)) ||
       (decide (0x100 ≤ offOf a) && decide (offOf a < 0x190) && decide (offOf a % 16 = 0))))

/-- A read of a word of memory by master `m` reaches it. -/
def memReads (s : State) (m : Master) (a : Nat) : Bool :=
  !isReg a && issues s m && (fwCheck s m a false).isNone && !badAccess s a .word && decide (a % 4 = 0)

/-! ### Packets -/

/-- The table of cores is in its canonical form. -/
def coresWf (s : State) : Bool := tabWf (fun _ => ({} : NCore)) s.core

/-- Core k as its next packet finds it: levels whose count is 0 are closed. -/
def issueCore (s : State) (k : Nat) : NCore :=
  { coreGet s k with levels := levelsOpen (coreGet s k).levels, wfi := false }

/-- The clock at which a packet of core k issues: its sources are visible (R188), and each further access to a bank
has its extra clock (R174). -/
def issueClock (s : State) (k : Nat) (ops : List SlotOp) : Nat :=
  readyAt (issueCore s k) ops + bankStalls (packetBanks k (landTo (readyAt (issueCore s k) ops) (issueCore s k)) ops)

/-- The registers of core k that the packet sees: every result that has landed by its clock (R182, R188). -/
def issueView (s : State) (k : Nat) (ops : List SlotOp) : NCore := landTo (issueClock s k ops) (issueCore s k)

/-- A packet of core k issues and raises nothing: the core takes packets, its guard holds, its clock is below the
budget, no cause of R202 stands, and no access waits for the write buffer. -/
def packetGoes (s : State) (k : Nat) (guard : Option (Bool × Fin 4)) (ops : List SlotOp) : Bool :=
  coreTakes s k && guardOn (issueCore s k) guard
    && !(decide (k < 32) && decide ((clGet s (k / 8)).budget ≤ issueClock s k ops))
    && (lowestExc (packetExc s k (issueView s k ops) true ops)).isNone
    && !busWaits (issueView s k ops) (busOp k (issueView s k ops) ops)

/-- Core c, its own registers done, after the clock t of a packet that no control operation diverts: the next packet, or
the end of an iteration with its clocks (R194, R197). -/
def packetEnd (k t : Nat) (c : NCore) : NCore :=
  { (seqNext k c).core with
    cyc := t + 1 + (seqNext k c).add, gap := if (seqNext k c).add = 0 then [] else [((seqNext k c).why, (seqNext k c).add)] }

/-- Among the results in flight, `v` for register r lands at clock t; it is the only one for r if none was before. -/
def lands (old c : NCore) (t r : Nat) (v : Word) : Prop :=
  { land := t, reg := r, val := v } ∈ c.flight ∧
    (old.flight.all (fun f => f.reg != r) = true →
      c.flight.filter (fun f => f.reg == r) = [{ land := t, reg := r, val := v }])

/-- The command `i`, which is a packet `is` with the operation `o`, leaves its core's registers so that `P` holds of
the clock of its issue, the registers it saw and the registers it left, whatever its other slots hold. -/
def packetAmong (i : Instr) (is : Issue) (o : SlotOp) (s : State) (P : Nat → NCore → NCore → Prop) : Prop :=
  packetGoes s is.core is.guard (o :: is.others) = true → coresWf s = true →
    ∃ u, exec i s = .next (placed s u) ∧
      P (issueClock s is.core (o :: is.others)) (issueView s is.core (o :: is.others)) (coreGet u is.core)

/-- The same command with no other slot changes nothing but the Survey and its core: to the registers it saw it does
`r`, and the sequencer goes on. -/
def packetAlone (i : Instr) (is : Issue) (o : SlotOp) (s : State) (r : Nat → NCore → NCore) : Prop :=
  is.others = [] → packetGoes s is.core is.guard [o] = true →
    ∃ srv, exec i s = .next (placed s { s with
      core := tset {} s.core is.core
        (packetEnd is.core (issueClock s is.core [o]) (r (issueClock s is.core [o]) (issueView s is.core [o]))),
      srv := srv })

/-- The command `i` gives Vd the value `val` one clock later and FLAGS the value `flags`, both of the clock and the
registers it saw; no other operation but IRET writes FLAGS at its issue. -/
def packetGives (i : Instr) (is : Issue) (o : SlotOp) (s : State) (d : Nat) (val flags : Nat → NCore → Word) : Prop :=
  packetAmong i is o s (fun t x c => lands x c (t + 1) d (val t x) ∧ ((∀ p ∈ is.others, p ≠ .iret) → c.flags = flags t x)) ∧
    packetAlone i is o s (fun t x => { fly (t + 1) d (val t x) x with flags := flags t x })

/-- The command `i` gives FLAGS the value `flags`, and no register a value. -/
def packetFlags (i : Instr) (is : Issue) (o : SlotOp) (s : State) (flags : NCore → Word) : Prop :=
  packetAmong i is o s (fun _ x c => (∀ p ∈ is.others, p ≠ .iret) → c.flags = flags x) ∧
    packetAlone i is o s (fun _ x => { x with flags := flags x })

/-- The command `i` does `acc` to the accumulators, which RND, SAT and MRD see from three clocks on; no other operation
of a packet writes one. -/
def packetAccs (i : Instr) (is : Issue) (o : SlotOp) (s : State) (acc : NCore → List (Nat × Int)) : Prop :=
  packetAmong i is o s (fun t x c =>
      c.acc = (acc x).foldl (fun m e => tset 0 m e.1 (wrap72 e.2)) x.acc ∧
        c.accVis = (acc x).foldl (fun m e => tset 0 m e.1 (t + 3)) x.accVis) ∧
    packetAlone i is o s (fun t x => { x with
      acc := (acc x).foldl (fun m e => tset 0 m e.1 (wrap72 e.2)) x.acc,
      accVis := (acc x).foldl (fun m e => tset 0 m e.1 (t + 3)) x.accVis })

/-- The address registers after the post-modifications of a packet's memory slots (R183). -/
def postMods (x : NCore) (ops : List SlotOp) (a : Tab Word) : Tab Word :=
  ops.foldl (fun m o => if (opEa o).any eaModifies then
    tset 0 m ((opEa o).elim 0 eaReg) ((opEa o).elim 0 (eaNext x)) else m) a

/-- Core c after a control operation of a packet at clock t, with its added clocks. -/
def controlEnd (t add : Nat) (c : NCore) : NCore :=
  { c with cyc := t + 1 + add, gap := if add = 0 then [] else [(9, add)] }

/-- Two cores stand at the same place: packet, clock, repeat levels, return stack, loop cache. -/
def samePlace (c e : NCore) : Prop :=
  c.pc = e.pc ∧ c.cyc = e.cyc ∧ c.levels = e.levels ∧ c.rstk = e.rstk ∧ c.rdep = e.rdep ∧ c.cache = e.cache

/-- The command `i` leads its core to the place that `r` gives of the clock and the registers it saw, whatever its other
slots hold; with no other slot nothing else changes but the Survey. -/
def packetLeads (i : Instr) (is : Issue) (o : SlotOp) (s : State) (r : Nat → NCore → NCore) : Prop :=
  packetAmong i is o s (fun t x c => samePlace c (r t x)) ∧
    (is.others = [] → packetGoes s is.core is.guard [o] = true →
      ∃ srv, exec i s = .next (placed s { s with
        core := tset {} s.core is.core (r (issueClock s is.core [o]) (issueView s is.core [o])), srv := srv }))

/-! ### The fault manager -/

/-- The queue stands in service order: no class after a lower one (R444). -/
def queueSorted : List FaultRec → Bool
  | x :: y :: t => decide (y.cls ≤ x.cls) && queueSorted (y :: t)
  | _ => true

/-- What holds of the fault manager between commands: a record stands in the slot of its own class, at most sixteen
wait in service order, none of them outranks the current record, and a FATAL record has made the node safe
(R443, R444, R446, R454). -/
def faultsWf (s : State) : Bool :=
  tabWf (fun _ => none) s.flt.slots &&
    s.flt.slots.all (fun e => decide (e.1 < 4) && e.2.any (fun r => r.cls == e.1)) &&
    decide (s.flt.queue.length ≤ 16) && queueSorted s.flt.queue &&
    s.flt.queue.all (fun q => (curClass s).any (fun c => decide (q.cls ≤ c))) &&
    (s.flt.safe || (curClass s != some 3))

/-! ### Tables of the units in canonical form -/

/-- The output channels are in canonical form. -/
def outsWf (s : State) : Bool := tabWf (fun _ => ({} : OutCh)) s.out.ch

/-- The receivers are in canonical form. -/
def rxWf (s : State) : Bool := tabWf (fun _ => ({} : AesRx)) s.ser.rx

end Sys2Proof.Machine
end

