-- ==== Sys2Proof/Certificates/Slice0/Obligations.lean ====
section
/-! DEFINITION. The statements about the machine, each a proposition for the provers. -/

open Sys2Proof Sys2Proof.Machine

/-- The queue of commands (log entry 1). -/
def Obligations.FrontCommandRuns : Prop :=
  ∀ (c : Instr) (rest : List Instr) (s : State),
    step { s with pending := c :: rest } = exec c { s with pending := rest }

/-- The idle step (R56, log entry 2). -/
def Obligations.IdleStepCounts : Prop :=
  ∀ s : State, s.pending = [] → step s = .next { s with time.lc := s.time.lc + 1 }

/-- No command stops, and none touches the queue (log entry 1). -/
def Obligations.EveryCommandAnswers : Prop :=
  ∀ (c : Instr) (s : State), ∃ t, exec c s = .next t ∧ t.pending = s.pending

/-- The end of a command (R447, R454; log entry 3 for the draw counter). -/
def Obligations.PlacementFrame : Prop :=
  ∀ s u : State,
    (u.flt.fresh = [] → placed s u = { u with free := u.free + 1, pending := s.pending }) ∧
    (let t := placed s u
     t.time = u.time ∧ t.grat = u.grat ∧ t.cmp = u.cmp ∧ t.mem = u.mem ∧ t.eccBad = u.eccBad ∧ t.rdata = u.rdata ∧
     t.mix = u.mix ∧ t.eqs = u.eqs ∧ t.str = u.str ∧ t.sil = u.sil ∧ t.core = u.core ∧ t.cl = u.cl ∧ t.sup = u.sup ∧
     t.pwr = u.pwr ∧ t.out = u.out ∧ t.ser = u.ser ∧ t.gaz = u.gaz ∧ t.boot = u.boot ∧ t.host = u.host ∧
     t.frst = u.frst ∧ t.free = u.free + 1 ∧ t.pending = s.pending)

/-- No fault is left unplaced (R444, R447). -/
def Obligations.EveryCommandPlacesItsFaults : Prop :=
  ∀ s t : State, quiet s = true → step s = .next t → quiet t = true

/-- The invariants hold at reset. -/
def Obligations.ResetHoldsInvariants : Prop :=
  State.reset.pending = [] ∧ quiet State.reset = true ∧ Memory.wf State.reset.mem = true ∧
  coresWf State.reset = true ∧ outsWf State.reset = true ∧ rxWf State.reset = true ∧ faultsWf State.reset = true

/-- The order of the fault manager (R443, R444, R446, R448, R454). -/
def Obligations.FaultManagerKept : Prop :=
  (∀ (r : FaultRec) (s : State), r.cls < 4 → faultsWf s = true → faultsWf (takeFault r s) = true) ∧
  (∀ s : State, faultsWf s = true → faultsWf (faultAck s) = true)

/-- Merging (R445; REPEAT saturates at 15, R442). -/
def Obligations.RepeatedFaultMerges : Prop :=
  ∀ (r : FaultRec) (s : State), tabWf (fun _ => none) s.flt.slots = true →
    let t := placeFault r s
    let same := fun q : FaultRec => q.code = r.code ∧ q.cls = r.cls ∧ q.inst = r.inst
    (∀ (c : Nat) (q : FaultRec), tget none s.flt.slots c = some q → same q →
      (∀ c' q', tget none s.flt.slots c' = some q' → same q' → c' = c) →
      tget none t.flt.slots c = some { q with rep := min 15 (q.rep + 1) } ∧
      (∀ c', c' ≠ c → tget none t.flt.slots c' = tget none s.flt.slots c') ∧ t.flt.queue = s.flt.queue) ∧
    ((∀ c q, tget none s.flt.slots c = some q → ¬ same q) → (∃ q ∈ s.flt.queue, same q) →
      t.flt.slots = s.flt.slots ∧ t.flt.queue.length = s.flt.queue.length ∧
      ∀ (i : Nat) (q : FaultRec), s.flt.queue[i]? = some q →
        (same q → t.flt.queue[i]? = some { q with rep := min 15 (q.rep + 1) }) ∧ (¬ same q → t.flt.queue[i]? = some q))

/-- FLT.ACK (R446). -/
def Obligations.AcknowledgedFaultLeaves : Prop :=
  ∀ (m : Master) (s : State), writes s m 0x4001000C = true → faultsWf s = true →
    ∃ u, exec (.fltAck m) s = .next (placed s u) ∧
      (curClass s = none → u = counted s) ∧
      (∀ c, curClass s = some c →
        let below := [3, 2, 1, 0].find? (fun k => k != c && (slotRec s k).isSome)
        (∀ q rest, s.flt.queue = q :: rest → (∀ k, below = some k → k < q.cls) →
          curClass u = some q.cls ∧ slotRec u q.cls = some q ∧ u.flt.queue = rest ∧ (q.cls ≠ c → slotRec u c = none) ∧
          lb u 0x40010004 0 = true) ∧
        (∀ k, below = some k → (∀ q, s.flt.queue.head? = some q → q.cls ≤ k) →
          curClass u = some k ∧ slotRec u k = slotRec s k ∧ u.flt.queue = s.flt.queue ∧ slotRec u c = none ∧
          lb u 0x40010004 0 = true) ∧
        (below = none → s.flt.queue = [] → curClass u = none ∧ u.flt.queue = []))

/-- The laws of memory (R30, R172; that unlisted bytes read as their reset contents or 0 is log entry 4). -/
def Obligations.MemoryOperations : Prop :=
  ∀ s : State, Memory.wf s.mem = true →
    (∀ (a : Nat) (l : List Byte), Memory.wf (mStores a l s).mem = true ∧
      (∀ i b, l[i]? = some b → mByte (mStores a l s) (a + i) = b) ∧
      (∀ x, x < a ∨ a + l.length ≤ x → mByte (mStores a l s) x = mByte s x)) ∧
    (∀ a v : Nat, Memory.wf (mStoreW a v s).mem = true ∧ mWord (mStoreW a v s) a = v % 2 ^ 32 ∧
      (∀ i < 4, mByte (mStoreW a v s) (a + i) = BitVec.ofNat 8 (v / 2 ^ (8 * i))) ∧
      (∀ x, x < a ∨ a + 4 ≤ x → mByte (mStoreW a v s) x = mByte s x))

/-- The form of register accesses (R34, R464). -/
def Obligations.RegisterAccessForm : Prop :=
  ∀ (m : Master) (a : Nat) (z : AccSize) (v : Nat) (s : State), isReg a = true →
    (z ≠ .word ∨ a % 4 ≠ 0 → issues s m = true →
      (fwCheck s m a false = none → busRead m a z s = (0, decodeErr (masterId m) a false (counted s))) ∧
      (fwCheck s m a true = none → busWrite m a z v s = decodeErr (masterId m) a true (counted s))) ∧
    (a % 4 = 0 → decodes s a = true → decodes s (a + 3) = true → badAccess s a .word = false)

/-- Locks (R434, R37). -/
def Obligations.LockedWritesIgnored : Prop :=
  ∀ (m : Master) (a : Nat) (v : Word) (s : State), isReg a = true → issues s m = true →
    badAccess s a .word = false → (winOf a ≠ 30 ∨ srvMay s m true = true) → a < 2 ^ 32 →
    let lock := if winOf a < 32 then lb s 0x40020010 (winOf a) else lb s 0x40020014 0
    (isSealed s = true → m ≠ .sup → lb s 0x40020018 (masterId m) = true → lock = true → fwCheck s m a true = none →
      exec (.registerWrite m (wd a) .word v) s =
        .next (placed s (srvUp 2 1 1 (violation (masterId m) a (counted s))))) ∧
    (reads s m a = true → busRead m a .word s = ((regRead m a (counted s)).1.toNat, (regRead m a (counted s)).2)) ∧
    locked s .sup a = false ∧ (isSealed s = false → locked s m a = false)

/-- BMX.QOS at reset (R468). -/
def Obligations.BusPriorityReset : Prop :=
  (∀ m : Master, lvn State.reset (0x401F0010 + 4 * masterId m) = (match m with
    | .sup => 8
    | .dma _ => 12
    | .core _ _ => 6
    | .fabric => 10
    | .host => 7
    | .debug => 4
    | .srv => 2)) ∧
  (∀ m : Master, masterId m < 13) ∧ (∀ i < 13, ∃ m, masterId m = i)

/-- The state after a cold reset (R3, R56, R75, R149, R238, R345, R388, R398, R413, R414, R443). -/
def Obligations.ResetState : Prop :=
  let s := State.reset
  regVal s 0x40000000 = 0x1024B000 ∧ lv s 0x4003001C = 1 ∧
  (∀ d < 15, (domGet s d).st = if d ≤ 1 then 3 else 0) ∧
  s.time.lc = 0 ∧ curClass s = none ∧ s.flt.queue = [] ∧ s.flt.safe = false ∧
  (∀ n, (outGet s n).st = 0) ∧ paired s = false ∧ lb s 0x40040000 31 = false ∧ s.boot.phase = 0 ∧
  (∀ i < 4096, mWord s (0x30400000 + 32 * i) = 0x40000000 ∧
    ∀ j, 4 ≤ j → j < 32 → mByte s (0x30400000 + 32 * i + j) = 0) ∧
  (∀ p < 4, ∀ k < 48,
    let e := 0x30700000 + 0x10000 * p + 32 * k
    mWord s e = 0 ∧ mWord s (e + 4) = 0 ∧ mWord s (e + 8) = 1 ∧ mWord s (e + 12) = 0 ∧
    mWord s (e + 16) = 0xFFFFFFFE ∧ mWord s (e + 20) = 0xFFFFFFFF ∧
    ∀ j < 24, mByte s (e + 0x8000 + j) = 0)

/-- The commands of a timed-event output (R76, R77). `counted` is the Survey's count of the bus access. -/
def Obligations.TimedEventCommands : Prop :=
  (∀ (m : Master) (n : Fin 4) (s : State), writes s m (tevBase n + 0x20) = true →
    tevBad (counted s) n = false → lb s 0x40070038 (16 + n) = false →
    ((tevGet s n).active && (tevGet s n).endLc.isSome) = false →
    ftNow (counted s) ≤ tevEdgeFt (counted s) n (tevRegs (counted s) n) 0 →
    exec (.tevArm m n) s = .next (placed s (tevPut n { tevGet s n with
      armed := true, waiting := false, active := false, next := none, nextJ := 0,
      sched := tevRegs (counted s) n } (counted s)))) ∧
  (∀ (m : Master) (n : Fin 4) (s : State), writes s m (tevBase n + 0x20) = true → tevBad (counted s) n = true →
    exec (.tevArm m n) s = .next (placed s (evOr (tevBase n + 0x1C) 8 (tevPut n { tevGet s n with
      armed := false, waiting := false, active := false, next := none } (counted s))))) ∧
  (∀ (m : Master) (n : Fin 4) (s : State), writes s m (tevBase n + 0x20) = true →
    exec (.tevCancel m n) s = .next (placed s (tevPut n { tevGet s n with
      armed := false, waiting := false, next := none,
      active := (tevGet s n).active && (tevGet s n).endLc.isSome } (counted s)))) ∧
  (∀ (m : Master) (n : Fin 4) (s : State), writes s m (tevBase n + 0x20) = true →
    tevBad (counted s) n = false → lb s 0x40070038 (16 + n) = true →
    exec (.tevArm m n) s = .next (placed s (tevPut n { tevGet s n with
      armed := true, waiting := true, next := none, sched := tevRegs (counted s) n } (counted s)))) ∧
  (∀ (m : Master) (n : Fin 4) (s : State), writes s m (tevBase n + 0x20) = true →
    tevBad (counted s) n = false → lb s 0x40070038 (16 + n) = false →
    ((tevGet s n).active && (tevGet s n).endLc.isSome) = true →
    exec (.tevArm m n) s = .next (placed s (tevPut n { tevGet s n with
      armed := false, waiting := false, next := some (tevRegs (counted s) n) } (counted s)))) ∧
  (∀ (n : Fin 4) (s : State), (tevGet s n).armed = true → (tevGet s n).waiting = false →
    exec (.tevEdge n) s = .next (placed s (srvUp 6 1 1 (evOr (tevBase n + 0x1C) 2 (tevPut n { tevGet s n with
      armed := (tevGet s n).sched.periodic, nextJ := (tevGet s n).nextJ + 1, active := true,
      endLc :=
        if (!(tevGet s n).sched.periodic && (tevGet s n).sched.width == 0) = true then none
        else some ((atFt (tevEdgeFt s n (tevGet s n).sched (tevGet s n).nextJ) s).time.lc + ceilDiv
          (if (tevGet s n).sched.width = 0 then
              ceilDiv (tevPer (tevGet s n).sched) (2 * 65536 * tevDen s (tevGet s n).sched)
            else (tevGet s n).sched.width) 2) }
      (atFt (tevEdgeFt s n (tevGet s n).sched (tevGet s n).nextJ) s)))))) ∧
  (∀ (n : Fin 4) (e : Nat) (s : State), (tevGet s n).active = true → (tevGet s n).endLc = some e →
    (tevGet s n).next = none →
    exec (.pulseEnd (.tev n)) s = .next (placed s (tevPut n { tevGet s n with active := false, endLc := none }
      { s with time.lc := max s.time.lc e })))

/-- The second pulses, the capture inputs and the transmit-timestamp FIFOs (R63, R79, R81). -/
def Obligations.PulseAndCaptureCommands : Prop :=
  (∀ (s : State), lb s 0x40060200 0 = true →
    exec .ppsEdge s = .next (placed s (srvUp 6 1 1 (evOr 0x4006020C 2 { atFt (ppsFt s (ppsSecond s)) s with
      time.ppsNext := ppsSecond s + 1, time.ppsOn := true,
      time.ppsEnd := (atFt (ppsFt s (ppsSecond s)) s).time.lc + ceilDiv (max 1 (lvn s 0x40060204)) 2 })))) ∧
  (∀ (s : State), s.time.ppsOn = true →
    exec (.pulseEnd .pps) s = .next (placed s { atLc s.time.ppsEnd s with time.ppsOn := false })) ∧
  (∀ (n : Fin 4) (rising : Bool) (q : Fin 8) (len : Nat) (s : State), lb s (tcapBase n) 0 = true →
    lb s (tcapBase n) (if rising then 1 else 2) = true → (lb s (tcapBase n) 4 = false ∨ 8 ≤ len) →
    exec (.tcapEdge n rising q len) s = .next (placed s (srvUp 6 0 1 (srvUp 6 2 1
      (if (tget [] s.time.tcap n).length < 16 then
        { s with time.tcap := tset [] s.time.tcap n (tget [] s.time.tcap n ++
          [{ rising := rising, ts := ftOf s.time.offset s.time.rate s.time.lc q }]) }
      else ctrUp (tcapBase n + 0x14) 0 16 s))))) ∧
  (∀ (m : Master) (n : Fin 4) (e : CapEntry) (rest : List CapEntry) (s : State),
    reads s m (tcapBase n + 8) = true → tget [] s.time.tcap n = e :: rest →
    exec (.tcapPop m n) s = .next (placed s { latchPut m ((ftWords e.ts).drop 1) (counted s) with
      time.tcap := tset [] s.time.tcap n rest, rdata := (ftWords e.ts).take 1 })) ∧
  (∀ (m : Master) (n : Fin 4) (s : State), reads s m (tcapBase n + 8) = true → tget [] s.time.tcap n = [] →
    exec (.tcapPop m n) s = .next (placed s { latchPut m [0, 0] (counted s) with rdata := [0] })) ∧
  (∀ (m : Master) (p : Fin 4) (e : TxStamp) (rest : List TxStamp) (s : State),
    reads s m (prtBase p + 0x42C) = true → tget [] s.time.txf p = e :: rest →
    exec (.txfPop m p) s = .next (placed s { latchPut m ((ftWords e.ts).drop 1) (counted s) with
      time.txf := tset [] s.time.txf p rest, rdata := (ftWords e.ts).take 1 })) ∧
  (∀ (m : Master) (p : Fin 4) (s : State), reads s m (prtBase p + 0x42C) = true → tget [] s.time.txf p = [] →
    exec (.txfPop m p) s = .next (placed s { latchPut m [0, 0] (counted s) with rdata := [0] })) ∧
  (∀ (m : Master) (p : Fin 4) (s : State), writes s m (prtBase p + 0x424) = true →
    exec (.txfDropClear m p) s = .next (placed s { counted s with time.txDrop := tset 0 s.time.txDrop p 0 }))

/-- The common start (R83, R84). -/
def Obligations.CommonStartCommands : Prop :=
  (∀ (m : Master) (s : State), writes s m 0x40070040 = true → lb s 0x4007003C 0 = true →
    exec (.startArm m) s = .next (placed s { counted s with
      grat.armed := true, grat.src := true, grat.startCyc := none })) ∧
  (∀ (m : Master) (s : State), writes s m 0x40070040 = true → lb s 0x4007003C 0 = false →
    s.grat.cycle + 2 ≤ lvn s 0x40070030 + lvn s 0x40070034 * 2 ^ 32 →
    exec (.startArm m) s = .next (placed s { counted s with
      grat.armed := true, grat.src := false,
      grat.startCyc := some (lvn s 0x40070030 + lvn s 0x40070034 * 2 ^ 32),
      grat.shownCyc := lvn s 0x40070030 + lvn s 0x40070034 * 2 ^ 32 })) ∧
  (∀ (m : Master) (s : State), writes s m 0x40070040 = true → lb s 0x4007003C 0 = false →
    lvn s 0x40070030 + lvn s 0x40070034 * 2 ^ 32 < s.grat.cycle + 2 →
    exec (.startArm m) s = .next (placed s (raise 0x0712 (if paired s then 2 else 1) 255 0
      (evOr 0x40070044 4 (counted s))))) ∧
  (∀ (m : Master) (s : State), writes s m 0x40070040 = true →
    exec (.startCancel m) s = .next (placed s { counted s with grat.armed := false, grat.startCyc := none })) ∧
  (∀ (q : Fin 8) (s : State), s.grat.armed = true → s.grat.src = true → s.grat.startCyc = none →
    let ft := ftOf s.time.offset s.time.rate s.time.lc q
    let pos := ft * famF s - cycleOfFt s ft * secU
    let g := min 31 (lf s 0x4007003C 16 6)
    let c := cycleOfFt s ft + max 2 (lf s 0x4007003C 8 8)
    let u : State := { s with grat.startCyc := some c, grat.shownCyc := c }
    exec (.syncStartEdge q) s = .next (placed s (srvUp 6 0 1
      (if pos * 64 ≤ g * secU ∨ (secU - pos) * 64 ≤ g * secU then evOr 0x40070044 16 u else u))))

/-- The events of a candidate slot (R90, R91, R93, R97). -/
def Obligations.CandidateCommands : Prop :=
  (∀ (n : Fin 8) (s : State), (candGet s n).signal = true →
    exec (.lossOfSignal n) s = .next (placed s (raise 0x0511 0 n 0 (evOr (candBase n + 0x30) 2
      (ctrUp (candBase n + 0x34) 0 16 (candPut n { candGet s n with
        signal := false, qual := false, qualT := 0, wtrRun := false, wtrT := 0, wtrDue := false }
        (atLc (losDue s n) s))))))) ∧
  (∀ (n : Fin 8) (s : State), candPrio s n ≠ 0 → (candGet s n).qual = false →
    cmpW s 0x20 * 1000 ≤ (candGet s n).qualT →
    (List.range 8).filter (fun m => candPrio s m != 0 && !(candGet s m).qual && sameSource s n m) = [n.val] →
    exec (.candidateQualified n) s = .next (placed s (raise 0x0510 0 n 0 (evOr (candBase n + 0x30) 1
      (candPut n { candGet s n with
        qual := true, disq := false, qualT := 0, wtrT := 0, wtrDue := false,
        wtrRun := (cmpHeld s).any (fun c => lb s 0x40050000 1 && eligible s n && betterSlot s n c) } s))))) ∧
  (∀ (n : Fin 8) (s : State), (candGet s n).warn = true → (candGet s n).warned = false →
    cmpW s 0x2C * 1000 ≤ (candGet s n).warnT →
    exec (.driftWarnTimeout n) s = .next (placed s (raise 0x0516 1 n 0 (evOr (candBase n + 0x30) 4
      (candPut n { candGet s n with warned := true } s))))) ∧
  (∀ (n : Fin 8) (s : State), (candGet s n).wtrRun = true → cmpW s 0x3C * 1000 ≤ (candGet s n).wtrT →
    mayRevert s n = true →
    exec (.wtrExpiry n) s = .next (placed s (beginSwitch n (candPut n { candGet s n with
      wtrRun := false, wtrT := 0, wtrDue := false } s)))) ∧
  (∀ (n : Fin 8) (s : State), (candGet s n).wtrRun = true → cmpW s 0x3C * 1000 ≤ (candGet s n).wtrT →
    mayRevert s n = false →
    exec (.wtrExpiry n) s = .next (placed s (candPut n { candGet s n with
      wtrRun := false, wtrT := 0, wtrDue := true } s)))

/-- The transitions of Compass that have a command of their own (R95, R100, R103, R105). -/
def Obligations.CompassStateCommands : Prop :=
  (∀ (n : Nat) (s : State), s.cmp.st = 1 → s.cmp.cur = some n → s.cmp.sw = none → cmpW s 0x48 ≤ s.cmp.lockT →
    exec .locked s = .next (placed s (raise 0x0514 0 n 0 (evOr 0x4005000C 1 { s with
      cmp.st := 2, cmp.everLock := true, cmp.lockT := 0, cmp.unlockT := 0 })))) ∧
  (∀ (n : Nat) (s : State), s.cmp.st = 2 → s.cmp.cur = some n → s.cmp.drifting = false → s.cmp.sw = none →
    cmpW s 0x48 ≤ s.cmp.unlockT →
    exec .unlocked s = .next (placed s (raise 0x051A 1 n 0 (evOr 0x4005000C 2 { s with
      cmp.st := 1, cmp.lockT := 0, cmp.unlockT := 0, cmp.histSum := 0, cmp.histCnt := 0 })))) ∧
  (∀ (s : State), s.cmp.st = 3 → cmpW s 0x50 ≠ 0 → cmpW s 0x50 < holdElapsed s →
    exec .holdLimitExpiry s = .next (placed s (showSel (raise 0x0519 1 255 0 (evOr 0x4005000C 8 { s with
      cmp.st := 4, cmp.cur := none, cmp.sw := none, cmp.drifting := false, cmp.histSum := 0, cmp.histCnt := 0 }))))) ∧
  (∀ (s : State), s.cmp.st = 2 → s.cmp.drifting = false → s.cmp.sw = none → 1000 ≤ s.cmp.histCnt →
    exec .historyRecord s = .next (placed s { s with
      cmp.hist := ((s.cmp.ticks, nearDiv .roundTie 7 s s.cmp.histSum s.cmp.histCnt) :: s.cmp.hist).take 3600,
      cmp.histSum := 0, cmp.histCnt := 0 })) ∧
  (∀ (w : Switch) (s : State), s.cmp.sw = some w → w.moving = false → cmpW s 0x40 ≤ w.tick → w.tick ≠ 0 →
    let avg := nearDiv .roundTie 8 s w.sum w.tick
    let u : State := { s with cmp.cur := some w.target, cmp.sw := some { w with moving := true } }
    exec .buildOutEnd s = .next (placed s
      (if candTime s w.target = true then
        (if avg.natAbs ≤ cmpW s 0x58 * 1000 * 65536 then
          { candPut w.target { candGet s w.target with built := 0 } u with
            cmp.st := 1, cmp.slew := some { kind := 0, delta := -avg, p := cmpW s 0x5C, a := cmpW s 0x34 } }
        else { candPut w.target { candGet s w.target with built := 0 } u with
          cmp.st := 1, cmp.step := some { amount := -avg } })
      else candPut w.target { candGet s w.target with built := avg } u)))

/-- Phase steps and realignment (R102, R104, R106 to R108). -/
def Obligations.PhaseStepCommands : Prop :=
  (∀ (m : Master) (s : State), writes s m 0x400500D0 = true → lb s 0x40050000 2 = false →
    exec (.pstepGo m) s = .next (placed s (raise 0x051B 1 255 0 (evOr 0x400500D4 8 (counted s))))) ∧
  (∀ (m : Master) (s : State), writes s m 0x400500D0 = true → lb s 0x40050000 2 = true →
    ((pstepRegs s).abs && (pstepRegs s).slew) = true ∨ 1000000000 ≤ cmpW s 0xC4 →
    exec (.pstepGo m) s = .next (placed s (evOr 0x400500D4 32 (counted s)))) ∧
  (∀ (m : Master) (s : State), writes s m 0x400500D0 = true → lb s 0x40050000 2 = true →
    ((pstepRegs s).abs && (pstepRegs s).slew) = false → cmpW s 0xC4 < 1000000000 → cmpBusy s = true →
    s.cmp.pstepQ = none →
    exec (.pstepGo m) s = .next (placed s { counted s with cmp.pstepQ := some (pstepRegs s) })) ∧
  (∀ (m : Master) (s : State), writes s m 0x400500D0 = true → lb s 0x40050000 2 = true →
    (pstepRegs s).abs = false → (pstepRegs s).slew = true → cmpW s 0xC4 < 1000000000 → cmpBusy s = false →
    exec (.pstepGo m) s = .next (placed s { counted s with
      cmp.bo := 0, cmp.pstepQ := none,
      cmp.slew := some { kind := 1, delta := (pstepRegs s).val, p := cmpW s 0x68, a := cmpW s 0x34 } })) ∧
  (∀ (m : Master) (s : State), writes s m 0x400500D0 = true → lb s 0x40050000 2 = true →
    (pstepRegs s).slew = false → cmpW s 0xC4 < 1000000000 → cmpBusy s = false →
    exec (.pstepGo m) s = .next (placed s { counted s with
      cmp.bo := 0, cmp.pstepQ := none,
      cmp.step := some { abs := (pstepRegs s).abs, amount := (pstepRegs s).val, pstep := true } })) ∧
  (∀ (m : Master) (s : State), writes s m 0x400500E4 = true →
    let k := cmpW s 0xEC + cmpW s 0xF0 * 2 ^ 32
    let r (at_ : Nat) : RealignSt := { slew := lb s 0x400500E0 0, bo := lb s 0x400500E0 1, at_ := at_ }
    exec (.realignGo m) s = .next (placed s
      (if k ≠ 0 ∧ k < s.grat.nextCycle then evOr 0x400500E8 4 { counted s with cmp.realign := some (r 0) }
      else { counted s with cmp.realign := some (r k) }))) ∧
  (∀ (w : FtSlew) (s : State), s.cmp.slew = some w → ftSlewOver w = true → s.cmp.pstepQ = none → s.cmp.nextSel = none →
    (w.kind ≠ 1 ∨ s.cmp.cur = none) →
    exec (.phaseSlewDone .ft) s = .next (placed s
      (if w.kind = 1 then evOr 0x400500D4 4 { s with cmp.slew := none }
      else if w.kind = 2 then { s with cmp.slew := none, cmp.bo := 0 } else { s with cmp.slew := none }))) ∧
  (∀ (r : RealignSt) (s : State), s.cmp.realign = some r → r.slew = true → r.begun.isSome = true → r.moves = [] →
    exec (.phaseSlewDone .realign) s = .next (placed s (evOr 0x400500E8 2 { s with cmp.realign := none }))) ∧
  (∀ (w : FtStepSt) (k1 : Nat) (s : State), s.cmp.step = some w → w.k1 = some k1 → w.done = false →
    k1 + cmpW s 0x60 = s.grat.nextCycle → w.abs = false →
    let u := atFt (cycleFt s (k1 + cmpW s 0x60)) s
    unsgn 96 ((ftNow u : Int) + w.amount) ≤ ftNow u →
    exec .ftStep s = .next (placed s (srvUp 5 4 1 (raise 0x0515 0 255 0 (evOr 0x4005000C 0x40
      (stepOrigin w w.amount { u with
        time.offset := unsgn 96 ((u.time.offset : Int) + w.amount), time.stepCnt := (u.time.stepCnt + 1) % 2 ^ 32,
        cmp.step := some { w with done := true } }))))))

/-- What every Compass tick, reference edge and forward step does (R22, R85, R87, R104). -/
def Obligations.CompassMeasurementCommands : Prop :=
  (∀ (s : State), ∃ t, exec .compassTick s = .next t ∧ t.cmp.ticks = s.cmp.ticks + 1 ∧ t.sup.tick = true ∧
    t.time.lc = max s.time.lc ((s.cmp.ticks + 1) * 500000) ∧ t.mem = s.mem ∧ t.core = s.core ∧ t.mix = s.mix ∧
    t.out = s.out ∧ t.ser = s.ser) ∧
  (∀ (slot : Fin 8) (i : RefInput) (s : State), ∃ m : Meas, m.seen = true ∧ m.last = s.time.lc ∧
    (m.since = s.time.lc ∨ m.since = (measGet s (refKey i)).since) ∧ m.aux = (measGet s (refKey i)).aux ∧
    ((measGet s (refKey i)).seen = false → m.since = s.time.lc ∧ m.y = (measGet s (refKey i)).y) ∧
    exec (.referenceInputEdge slot i) s = .next (placed s (measPut (refKey i) m s))) ∧
  (∀ (w : FtStepSt) (k1 : Nat) (s : State), s.cmp.step = some w → w.k1 = some k1 → w.done = false →
    k1 + cmpW s 0x60 = s.grat.nextCycle → w.abs = false →
    let u := atFt (cycleFt s (k1 + cmpW s 0x60)) s
    let offset := unsgn 96 ((s.time.offset : Int) + w.amount)
    ftNow u < unsgn 96 ((ftNow u : Int) + w.amount) →
    ∃ t, exec .ftStep s = .next t ∧ t.time.offset = offset ∧ t.time.rate = s.time.rate ∧
      t.time.stepCnt = (s.time.stepCnt + 1) % 2 ^ 32 ∧ t.time.lc = u.time.lc ∧
      t.cmp.step = some { w with done := true } ∧ t.mem = s.mem ∧
      t.grat.nextCycle = max s.grat.nextCycle
        (ceilDiv (ftOf offset s.time.rate u.time.lc 0 * famF s) secU))

/-- Writes of registers (R33, R35, R47, R51, R457, R464). -/
def Obligations.RegisterWriteCommands : Prop :=
  (∀ (m : Master) (a val : Word) (r : RegRow) (s : State), writes s m a.toNat = true → plainReg a.toNat = true →
    rowOf a.toNat = some r → (r.acc = .rw ∨ r.acc = .rh) → egrUnused s a.toNat = false →
    exec (.registerWrite m a .word val) s = .next (placed s { counted s with
      hub.shadow := tabSet resetOf s.hub.shadow a.toNat (mergeW (shv s a.toNat) val (wd r.wmask)),
      hub.dirty := addTo a.toNat s.hub.dirty,
      hub.shadowBad := dropFrom a.toNat s.hub.shadowBad, hub.badFound := dropFrom a.toNat s.hub.badFound })) ∧
  (∀ (m : Master) (a val : Word) (r : RegRow) (s : State), writes s m a.toNat = true → plainReg a.toNat = true →
    rowOf a.toNat = some r → (r.acc = .rc ∨ (r.acc = .rw ∧ egrUnused s a.toNat = true)) →
    exec (.registerWrite m a .word val) s = .next (placed s (counted s))) ∧
  (∀ (m : Master) (a val : Word) (z : AccSize) (s : State), issues s m = true → fwCheck s m a.toNat true = none →
    badAccess s a.toNat z = true →
    exec (.registerWrite m a z val) s = .next (placed s (srvUp 31 2 1 (busCapture 0x401F0060 0x1F10 1 (masterId m)
      a.toNat (masterId m + 256) (counted s))))) ∧
  (∀ (m : Master) (a val : Word) (r : RegRow) (low n : Nat) (s : State), writes s m a.toNat = true →
    plainReg a.toNat = true → rowOf a.toNat = some r → r.acc = .ri → riMulti a.toNat = some (low, n) →
    (a.toNat - low) / 4 + 1 = n →
    let h := tget {} s.hub.hold (latchKey m)
    exec (.topWordWrite m a val) s = .next (placed s
      (foldS ((if h.tag = low then h.words else []) ++ [((a.toNat - low) / 4, val)])
        (fun e t => setLv (low + 4 * e.1) e.2 t)
        { counted s with hub.hold := tset {} s.hub.hold (latchKey m) {} }))) ∧
  (∀ (m : Master) (a val : Word) (r : RegRow) (low n : Nat) (s : State), writes s m a.toNat = true →
    plainReg a.toNat = true → rowOf a.toNat = some r → r.acc = .ri → riMulti a.toNat = some (low, n) →
    (a.toNat - low) / 4 + 1 < n →
    let h := tget {} s.hub.hold (latchKey m)
    let ws := (if h.tag = low then h.words else []).filter (fun e => e.1 != (a.toNat - low) / 4)
    exec (.registerWrite m a .word val) s = .next (placed s { counted s with
      hub.hold := tset {} s.hub.hold (latchKey m)
        { tag := low, words := ws ++ [((a.toNat - low) / 4, val)] } })) ∧
  (∀ (m : Master) (a val : Word) (s : State), isReg a.toNat = true → issues s m = true →
    fwCheck s m a.toNat true = none → badAccess s a.toNat .word = false → winOf a.toNat ≠ 30 →
    locked s m a.toNat = false → waitsReset s a.toNat = true →
    exec (.registerWrite m a .word val) s = .next (placed s { counted s with
      frst.held := s.frst.held ++ [{ master := m, addr := a.toNat, wr := some val }] })) ∧
  (∀ (w : BusWr) (s : State), s.hub.held = [w] →
    exec .heldShadowWriteLand s = .next (placed s (busWrite w.master w.addr.toNat .word w.val.toNat
      { atFt (cycleFt s s.grat.cycle + 250 * 65536) s with hub.held := [] })))

/-- Reads, parity and ECC (R36, R50, R52, R53, R466). -/
def Obligations.RegisterReadCommands : Prop :=
  (∀ (m : Master) (a : Word) (n : Nat) (s : State), reads s m a.toNat = true → plainReg a.toNat = true →
    multiAt a.toNat = some (a.toNat, n) → (winOf a.toNat < 8 ∨ 11 < winOf a.toNat) →
    (winOf a.toNat ≠ 6 ∨ offOf a.toNat < 0x300) →
    let u := counted s
    exec (.lowWordRead m a) s = .next (placed s
      { latchPut m ((List.range (n - 1)).map (fun i => regVal u (a.toNat + 4 * (i + 1)))) (plainRead a.toNat u).2 with
        rdata := [regVal u a.toNat] })) ∧
  (∀ (m : Master) (a hw : Word) (s : State), reads s m a.toNat = true → plainReg a.toNat = true →
    multiAt a.toNat = none → rcMask a.toNat ≠ 0 →
    let u := counted s
    exec (.clearOnRead m a hw) s = .next (placed s
      (evOr a.toNat (hw.toNat &&& rcMask a.toNat)
        { readSide a.toNat (setLv a.toNat (lv u a.toNat &&& ~~~(wd (rcMask a.toNat))) u) with
          rdata := [regVal u a.toNat] }))) ∧
  (∀ (s : State), s.hub.shadowBad = [] → s.hub.liveBad = [] →
    exec (.scrubberSweep [] []) s = .next (placed s (srvUp 0 3 1 (setLv 0x40000038 (lv s 0x40000038 + 1) s)))) ∧
  (∀ (a : Nat) (s : State), s.hub.shadowBad = [] → s.hub.liveBad = [a] → scrubbed s a = true → hasShadow a = true →
    a ∉ s.hub.dirty →
    let u := evOr (0x40000040 + 4 * winOf a) 0x20000000 { s with hub.liveBad := [] }
    let v := raise (winOf a * 256 + 1) 1 255 0
      (srvUp 0 4 1 { setLv a (shv s a) u with hub.pend := tset none s.hub.pend a none })
    exec (.scrubberSweep [] []) s = .next (placed s (srvUp 0 3 1 (setLv 0x40000038 (lv v 0x40000038 + 1) v)))) ∧
  (∀ (m : Master) (a : Word) (s : State), memReads s m a.toNat = true → s.eccBad = [] →
    exec (.memoryEccError m a) s = .next (placed s
      { eccOwner a.toNat (busCapture 0x401F0080 0x1F12 2 (masterId m) a.toNat (masterId m)
          (counted { s with eccBad := [a.toNat] })) with rdata := [0] }))

/-- Commit requests and the boundary (R16, R45, R46). -/
def Obligations.BoundaryCommands : Prop :=
  (∀ (m : Master) (mask : Word) (s : State), writes s m 0x40000010 = true →
    exec (.commitRequest m mask) s = .next (placed s (foldS (bitsOf 32 mask.toNat) (fun g t =>
      if (tget none t.hub.commits g).isSome = true then
        evOr 0x4000002C 2 { t with
          hub.commits := tset none t.hub.commits g (some (lvn s 0x40000018 + lvn s 0x4000001C * 2 ^ 32)) }
      else { t with
        hub.commits := tset none t.hub.commits g (some (lvn s 0x40000018 + lvn s 0x4000001C * 2 ^ 32)) })
      (counted s)))) ∧
  (∀ (inp : BoundaryInput) (s : State), boundaryOn s = true → s.hub.held = [] → s.cmp.step = none → inp.during = [] →
    ∃ t, exec (.cycleBoundary inp) s = .next t ∧ t.grat.cycle = s.grat.nextCycle ∧
      t.grat.nextCycle = s.grat.nextCycle + 1) ∧
  (∀ (inp : BoundaryInput) (s : State), boundaryOn s = false →
    exec (.cycleBoundary inp) s = .next (placed s s))

/-- Events of the silence detector, the cores, the snapshot engine and the sampler (R167, R168, R194, R199, R223,
R475, R476). -/
def Obligations.SilenceAndCoreEventCommands : Prop :=
  (∀ (b : Fin 256) (s : State), lf s 0x40140010 0 12 * famF s ≤ s.grat.cycle + 1 - tget 0 s.sil.loudAt b →
    exec (.busSilentSet b) s = .next (placed s { s with sil.flags := addTo b.val s.sil.flags })) ∧
  (∀ (g : Fin 32) (s : State), (grpGet s g).st = 2 → lf s (grpBase g) 0 12 * famF s ≤ (grpGet s g).hold →
    exec (.silenceSleep g) s = .next (placed s (srvUp 20 0 1 (evOr 0x40140004 1 (ctrUp (grpBase g + 0x34) 0 16
      { s with sil.grp := tset {} s.sil.grp g { st := 3, hold := (grpGet s g).hold } }))))) ∧
  (∀ (k : Fin 33) (l : RepLevel) (rest : List RepLevel) (s : State), (coreGet s k).levels = l :: rest → l.lc = 0 →
    exec (.repeatLevelEnd k) s = .next (placed s (corePut k { coreGet s k with levels := rest } s))) ∧
  (∀ (k : Fin 32) (s : State),
    let x := coreGet s k
    let t := x.accVis.foldl (fun t e => max t e.2) (x.flight.foldl (fun t f => max t f.land) x.cyc)
    x.st = 2 → x.drain = true → x.posted = [] → x.load = none →
    exec (.waitCycleDrainEnd k) s = .next (placed s (setLv (coreBase k + 0x14) (wd (max (lvn s (coreBase k + 0x14)) t))
      (srvCore k 3 (t - x.cyc) (corePut k { landAll x with st := 1, drain := false, cyc := t, cycLast := t, accVis := [] } s))))) ∧
  (∀ (c : Fin 4) (stalls : Nat) (s : State), (clGet s c).psnap.isSome = true →
    exec (.psnapDone c stalls) s = .next (placed s (srvUp (21 + c) 6 stalls (evOr (clBase c + 0xC) 64
      { setLv (clBase c + 0x28) (wd (min (2 ^ 32 - 1) (lvn s (clBase c + 0x28) + stalls))) s with
        cl := tset {} s.cl c { clGet s c with psnap := none } })))) ∧
  (∀ (k : Fin 32) (r : SmpRec) (s : State), s.srv.wait.find? (fun r => r.core == k.val && r.lat != 0) = some r →
    s.srv.frozen = false → (lb s 0x401E0040 30 = false ∨ tget 0 s.srv.fill (k / 8) ≠ 256) →
    let n := tget 0 s.srv.next (k / 8)
    exec (.sampleRecord k) s = .next (placed s (srvCore k 5 1 (srvUp 30 0 1 { s with
      srv.wait := s.srv.wait.erase r, srv.smp := tset none s.srv.smp (k / 8 * 256 + n) (some r),
      srv.next := tset 0 s.srv.next (k / 8) ((n + 1) % 256),
      srv.fill := tset 0 s.srv.fill (k / 8) (min 256 (tget 0 s.srv.fill (k / 8) + 1)) })))) ∧
  (∀ (k : Fin 32) (r : SmpRec) (s : State), s.srv.wait.find? (fun r => r.core == k.val && r.lat != 0) = some r →
    s.srv.frozen = false → lb s 0x401E0040 30 = true → tget 0 s.srv.fill (k / 8) = 256 →
    let u := srvUp 30 1 1 (ctrUp (0x401E0060 + 4 * (k / 8)) 0 16 { s with srv.wait := s.srv.wait.erase r })
    exec (.sampleRecord k) s = .next (placed s
      (if s.srv.full.contains (k.val / 8) then u
       else evOr 0x401E0004 2 { u with srv.full := addTo (k.val / 8) s.srv.full })))

/-- The release, the budget and the barrier of a cluster (R199, R200, R201, R221). -/
def Obligations.CoreCycleCommands : Prop :=
  (∀ (c : Fin 4) (s : State), tabWf (fun _ => {}) s.core = true → (clGet s c).inRes = true →
    (s.pair.role = 2 → s.pair.rphase < 3) →
    ∃ t : State, exec (.coreRelease c) s = .next (placed s t) ∧
      t = { s with cl := tset {} s.cl c { clGet s c with inRes := false }, core := t.core, srv := t.srv } ∧
      ∀ k : Nat, coreGet t k =
        (if k / 8 = c.val ∧ coreEn s c (k % 8) = true ∧ (coreGet s k).st = 1 then
          { coreGet s k with
            st := 2, cyc := 0, accVis := [], flight := [], ovr := false, restart := false, drain := false, gap := [],
            pc := if (coreGet s k).restart then lf s (coreBase k) 0 12 else (coreGet s k).pc }
        else coreGet s k)) ∧
  (∀ (c : Fin 4) (s : State), s.pair.role = 2 → s.pair.rphase = 3 →
    exec (.coreRelease c) s = .next (placed s s)) ∧
  (∀ (c : Fin 4) (s : State), tabWf (fun _ => {}) s.core = true →
    (∃ k, k ∈ barMembers s c) → (∀ k, k ∈ barMembers s c → (coreGet s k).sync = true) →
    (∀ j : Fin 8, lb s (clBase c + 0x1C) j = true → coreBusyRun s (c * 8 + j) = true →
      (coreGet s (c * 8 + j)).drain = false) →
    ∃ t : State, exec (.barrierRelease c) s = .next (placed s t) ∧ t = { s with core := t.core, srv := t.srv } ∧
      ∃ last : Nat, (∀ k, k ∈ barMembers s c → (coreGet s k).cyc ≤ last) ∧
        (∃ k, k ∈ barMembers s c ∧ (coreGet s k).cyc = last) ∧
        ∀ k : Nat, coreGet t k =
          (if k ∈ barMembers s c then
            { coreGet s k with sync := false, cyc := last + 1, gap := tset 0 (coreGet s k).gap 6 (last + 1 - (coreGet s k).cyc) }
          else coreGet s k)) ∧
  (∀ (k : Fin 32) (s : State), coreBusyRun s k = true →
    let c := k.val / 8
    let x := { coreGet s k with cyc := max (coreGet s k).cyc (clGet s c).budget }
    let u := srvUp (21 + c) 7 1 (srvCore k 3 ((clGet s c).budget - (coreGet s k).cyc) (corePut k x s))
    let v := evOr (coreBase k + 8) 16
      (if lvn u (coreBase k + 8) % 128 = 0 then corePut k { coreGet u k with excPc := (coreGet u k).pc } u else u)
    let y := coreGet v k
    let halt := lb v (coreBase k) 16
    let w := evOr (clBase c + 0xC) 1 (ctrUp (coreBase k + 0x1C) 0 16 (corePut k { y with
      flight := [], levels := [], rstk := [], rdep := 0, load := none, heldP := none, drain := false, sync := false,
      accVis := [], st := if halt then 3 else 1, restart := !halt, ovr := true, cycLast := 0xFFFFFFFF } v))
    let w2 := if y.sync then evOr (clBase c + 0xC) 16 w else w
    let z := semLoseCore c (k % 8) (if halt then evOr (clBase c + 0xC) 2 w2 else w2)
    let r := raise (0x1510 + c * 0x100) 2 (k % 8) 0 { z with mix.clMute := addTo c z.mix.clMute }
    exec (.coreBudgetExpiry k) s = .next (placed s (if catching s then resyncFail r else r))) ∧
  (∀ (c j n : Nat) (s : State), tabWf (fun _ => {}) s.cl = true → tabWf (fun _ => 0) (clGet s c).sem = true →
    tget 0 (clGet (semLoseCore c j s) c).sem n =
      if tget 0 (clGet s c).sem n = j + 1 then 0 else tget 0 (clGet s c).sem n)

/-- Semaphores and mailboxes of a cluster (R219, R220). -/
def Obligations.SemaphoreAndMailboxCommands : Prop :=
  (∀ (m : Master) (c : Fin 4) (sem : Fin 32) (o : Nat) (s : State), reads s m (clBase c + 0x40 + 4 * sem) = true →
    semOwnerCode c m = some o →
    exec (.semAcquire m c sem) s = .next (placed s
      (if tget 0 (clGet s c).sem sem = 0 then
        { srvUp (21 + c) 2 1 (clPut c { clGet s c with sem := tset 0 (clGet s c).sem sem o } (counted s)) with rdata := [1] }
      else { srvUp (21 + c) 3 1 (counted s) with rdata := [0] }))) ∧
  (∀ (m : Master) (c : Fin 4) (sem : Fin 32) (s : State), reads s m (clBase c + 0x40 + 4 * sem) = true →
    semOwnerCode c m = none →
    exec (.semAcquire m c sem) s = .next (placed s { counted s with rdata := [0] })) ∧
  (∀ (m : Master) (c : Fin 4) (sem : Fin 32) (v : Word) (s : State), writes s m (clBase c + 0x40 + 4 * sem) = true →
    exec (.semRelease m c sem v) s = .next (placed s
      (if v = 0 ∧ semOwnerCode c m = some (tget 0 (clGet s c).sem sem) then
        clPut c { clGet s c with sem := tset 0 (clGet s c).sem sem 0 } (counted s)
      else ctrUp (clBase c + 0x20) 0 8 (counted s)))) ∧
  (∀ (m : Master) (c : Fin 4) (b : Fin 9) (v : Word) (s : State), writes s m (clBase c + 0x100 + 16 * b) = true →
    let q := tget [] (clGet s c).mbx b
    let u := clPut c { clGet s c with mbx := tset [] (clGet s c).mbx b (q ++ [v]) } (counted s)
    exec (.mbxPush m c b v) s = .next (placed s (srvUp (21 + c) 4 1
      (if q.length < 16 then (if b = 8 then evOr (clBase c + 0xC) 4 u else u)
      else evOr (clBase c + 0xC) 8 (evOr (clBase c + 0x104 + b * 0x10) 0x80000000 (counted s)))))) ∧
  (∀ (m : Master) (c : Fin 4) (b : Fin 9) (v : Word) (rest : List Word) (s : State),
    reads s m (clBase c + 0x100 + 16 * b) = true → tget [] (clGet s c).mbx b = v :: rest →
    exec (.mbxPop m c b) s = .next (placed s
      { clPut c { clGet s c with mbx := tset [] (clGet s c).mbx b rest } (counted s) with rdata := [v] })) ∧
  (∀ (m : Master) (c : Fin 4) (b : Fin 9) (s : State),
    reads s m (clBase c + 0x100 + 16 * b) = true → tget [] (clGet s c).mbx b = [] →
    exec (.mbxPop m c b) s = .next (placed s { counted s with rdata := [0] }))

/-- The two-source operations of the A slot (R178, R188, R191). -/
def Obligations.AluTwoSourceCommands : Prop :=
  (∀ (is : Issue) (d a b : VReg) (s : State), packetGives (.add is d a b) is (.alu2 .add d a b) s d
    (fun _ x => vGet x a + vGet x b)
    (fun _ x => flagsCV (flagsZN x.flags (vGet x a + vGet x b)) (decide (2 ^ 32 ≤ (vGet x a).toNat + (vGet x b).toNat))
      (overI32 ((vGet x a).toInt + (vGet x b).toInt)))) ∧
  (∀ (is : Issue) (d a b : VReg) (s : State), packetGives (.sub is d a b) is (.alu2 .sub d a b) s d
    (fun _ x => vGet x a - vGet x b)
    (fun _ x => flagsCV (flagsZN x.flags (vGet x a - vGet x b)) (decide ((vGet x b).toNat ≤ (vGet x a).toNat))
      (overI32 ((vGet x a).toInt - (vGet x b).toInt)))) ∧
  (∀ (is : Issue) (d a b : VReg) (s : State), packetGives (.adds is d a b) is (.alu2 .adds d a b) s d
    (fun _ x => wd (unsgn 32 (satI 32 ((vGet x a).toInt + (vGet x b).toInt))))
    (fun _ x => flagsSat (flagsZN x.flags (wd (unsgn 32 (satI 32 ((vGet x a).toInt + (vGet x b).toInt)))))
      (overI32 ((vGet x a).toInt + (vGet x b).toInt)))) ∧
  (∀ (is : Issue) (d a b : VReg) (s : State), packetGives (.subs is d a b) is (.alu2 .subs d a b) s d
    (fun _ x => wd (unsgn 32 (satI 32 ((vGet x a).toInt - (vGet x b).toInt))))
    (fun _ x => flagsSat (flagsZN x.flags (wd (unsgn 32 (satI 32 ((vGet x a).toInt - (vGet x b).toInt)))))
      (overI32 ((vGet x a).toInt - (vGet x b).toInt)))) ∧
  (∀ (is : Issue) (d a b : VReg) (s : State), packetGives (.andV is d a b) is (.alu2 .and d a b) s d
    (fun _ x => vGet x a &&& vGet x b) (fun _ x => flagsZN x.flags (vGet x a &&& vGet x b))) ∧
  (∀ (is : Issue) (d a b : VReg) (s : State), packetGives (.orV is d a b) is (.alu2 .or d a b) s d
    (fun _ x => vGet x a ||| vGet x b) (fun _ x => flagsZN x.flags (vGet x a ||| vGet x b))) ∧
  (∀ (is : Issue) (d a b : VReg) (s : State), packetGives (.xorV is d a b) is (.alu2 .xor d a b) s d
    (fun _ x => vGet x a ^^^ vGet x b) (fun _ x => flagsZN x.flags (vGet x a ^^^ vGet x b))) ∧
  (∀ (is : Issue) (d a b : VReg) (s : State), packetGives (.minV is d a b) is (.alu2 .min d a b) s d
    (fun _ x => if (vGet x a).toInt ≤ (vGet x b).toInt then vGet x a else vGet x b) (fun _ x => x.flags)) ∧
  (∀ (is : Issue) (d a b : VReg) (s : State), packetGives (.maxV is d a b) is (.alu2 .max d a b) s d
    (fun _ x => if (vGet x a).toInt ≤ (vGet x b).toInt then vGet x b else vGet x a) (fun _ x => x.flags))

/-- The one-source operations and the moves of the A slot (R178, R188, R191). -/
def Obligations.AluOneSourceAndMoveCommands : Prop :=
  (∀ (is : Issue) (d a : VReg) (s : State), packetGives (.neg is d a) is (.alu1 .neg d a) s d
    (fun _ x => 0 - vGet x a)
    (fun _ x => flagsCV (flagsZN x.flags (0 - vGet x a)) (decide ((vGet x a).toNat ≤ 0)) (overI32 (0 - (vGet x a).toInt)))) ∧
  (∀ (is : Issue) (d a : VReg) (s : State), packetGives (.abs is d a) is (.alu1 .abs d a) s d
    (fun _ x => if bit (vGet x a) 31 then 0 - vGet x a else vGet x a)
    (fun _ x => if bit (vGet x a) 31 then
        flagsCV (flagsZN x.flags (0 - vGet x a)) (decide ((vGet x a).toNat ≤ 0)) (overI32 (0 - (vGet x a).toInt))
      else flagsCV (flagsZN x.flags (vGet x a)) false false)) ∧
  (∀ (is : Issue) (d a : VReg) (s : State), packetGives (.notV is d a) is (.alu1 .not d a) s d
    (fun _ x => ~~~(vGet x a)) (fun _ x => flagsZN x.flags (~~~(vGet x a)))) ∧
  (∀ (is : Issue) (d a : VReg) (s : State), packetGives (.clz is d a) is (.alu1 .clz d a) s d
    (fun _ x => wd (clzN 32 (vGet x a).toNat)) (fun _ x => x.flags)) ∧
  (∀ (is : Issue) (d a : VReg) (s : State), packetGives (.mov is d a) is (.alu1 .mov d a) s d
    (fun _ x => vGet x a) (fun _ x => x.flags)) ∧
  (∀ (is : Issue) (d a : VReg) (n : ShAmt) (s : State), packetGives (.shl is d a n) is (.shift .shl d a n) s d
    (fun _ x => vGet x a <<< shiftAmt x n) (fun _ x => flagsZN x.flags (vGet x a <<< shiftAmt x n))) ∧
  (∀ (is : Issue) (d a : VReg) (n : ShAmt) (s : State), packetGives (.shr is d a n) is (.shift .shr d a n) s d
    (fun _ x => vGet x a >>> shiftAmt x n) (fun _ x => flagsZN x.flags (vGet x a >>> shiftAmt x n))) ∧
  (∀ (is : Issue) (d a : VReg) (n : ShAmt) (s : State), packetGives (.shra is d a n) is (.shift .shra d a n) s d
    (fun _ x => (vGet x a).sshiftRight (shiftAmt x n)) (fun _ x => flagsZN x.flags ((vGet x a).sshiftRight (shiftAmt x n)))) ∧
  (∀ (is : Issue) (d : VReg) (imm : BitVec 20) (s : State), packetGives (.movi is d imm) is (.movi d imm) s d
    (fun _ _ => imm.signExtend 32) (fun _ x => x.flags)) ∧
  (∀ (is : Issue) (d : VReg) (imm : BitVec 16) (s : State), packetGives (.movh is d imm) is (.movh d imm) s d
    (fun _ x => (vGet x d &&& 0xFFFF#32) ||| wd (imm.toNat * 65536)) (fun _ x => x.flags)) ∧
  (∀ (is : Issue) (d a b : VReg) (p : Fin 4) (s : State), packetGives (.sel is d a b p) is (.sel d a b p) s d
    (fun _ x => if bit x.flags (4 + p) then vGet x a else vGet x b) (fun _ x => x.flags)) ∧
  (∀ (is : Issue) (d : VReg) (src : MrdSrc) (s : State), packetGives (.mrd is d src) is (.mrd d src) s d
    (fun t x => mrdVal t x src) (fun _ x => x.flags))

/-- CMP, MWR and the accumulators (R178, R186, R187, R188, R190, R191). -/
def Obligations.FlagAndAccumulatorCommands : Prop :=
  (∀ (is : Issue) (cc : Cc) (p : Fin 4) (a b : VReg) (s : State), packetFlags (.cmp is cc p a b) is (.cmp cc p a b) s
    (fun x => flagsP x.flags p (ccHolds cc (vGet x a) (vGet x b)))) ∧
  (∀ (is : Issue) (a : VReg) (s : State), packetFlags (.mwr is a) is (.mwr a) s (fun x => vGet x a &&& 0x1FF#32)) ∧
  (∀ (is : Issue) (n : Reg8) (a b : VReg) (mode : MulMode) (s : State), packetAccs (.mac is n a b mode) is (.re .mac n a b mode) s
    (fun x => [(n.val, accGet x n + (vGet x a).toInt * (vGet x b).toInt * (2 ^ mulShift mode : Nat))])) ∧
  (∀ (is : Issue) (n : Reg8) (a b : VReg) (mode : MulMode) (s : State), packetAccs (.msub is n a b mode) is (.re .msub n a b mode) s
    (fun x => [(n.val, accGet x n - (vGet x a).toInt * (vGet x b).toInt * (2 ^ mulShift mode : Nat))])) ∧
  (∀ (is : Issue) (n : Reg8) (a b : VReg) (mode : MulMode) (s : State), packetAccs (.mul is n a b mode) is (.re .mul n a b mode) s
    (fun x => [(n.val, (vGet x a).toInt * (vGet x b).toInt * (2 ^ mulShift mode : Nat))])) ∧
  (∀ (is : Issue) (p : Reg8) (a b : VReg) (mode : MulMode) (s : State), packetAccs (.mac2 is p a b mode) is (.mac2 p a b mode) s
    (fun x => [(p.val, accGet x p + (vGet x a).toInt * (vGet x b).toInt * (2 ^ mulShift mode : Nat)),
      (p.val + 1, accGet x (p.val + 1) + (vGet x (a.val + 1)).toInt * (vGet x (b.val + 1)).toInt * (2 ^ mulShift mode : Nat))])) ∧
  (∀ (is : Issue) (p : Reg8) (a b : VReg) (mode : MulMode) (cj : Bool) (s : State),
    let im (x : NCore) : Int := if cj then -(vGet x (b.val + 1)).toInt else (vGet x (b.val + 1)).toInt
    let re' (x : NCore) : Int := ((vGet x a).toInt * (vGet x b).toInt - (vGet x (a.val + 1)).toInt * im x) * (2 ^ mulShift mode : Nat)
    let im' (x : NCore) : Int := ((vGet x a).toInt * im x + (vGet x (a.val + 1)).toInt * (vGet x b).toInt) * (2 ^ mulShift mode : Nat)
    packetAccs (.cmac is p a b mode cj) is (.cx .cmac p a b mode cj) s
      (fun x => [(p.val, accGet x p + re' x), (p.val + 1, accGet x (p.val + 1) + im' x)]) ∧
    packetAccs (.cmsub is p a b mode cj) is (.cx .cmsub p a b mode cj) s
      (fun x => [(p.val, accGet x p - re' x), (p.val + 1, accGet x (p.val + 1) - im' x)]) ∧
    packetAccs (.cmul is p a b mode cj) is (.cx .cmul p a b mode cj) s (fun x => [(p.val, re' x), (p.val + 1, im' x)])) ∧
  (∀ (is : Issue) (pair : Bool) (n : Reg8) (s : State), packetAccs (.aclr is pair n) is (.aclr pair n) s
    (fun _ => if pair then [(n.val, 0), (n.val + 1, 0)] else [(n.val, 0)]))

/-- Extraction, and the G slot (R183, R184, R187, R188, R190, R192). -/
def Obligations.ExtractionAndAddressCommands : Prop :=
  (∀ (rounding : Bool) (is : Issue) (d : VReg) (n : Reg8) (sh : Fin 64) (s : State),
    let i : Instr := if rounding then .rnd is false d n sh else .satX is false d n sh
    let o : SlotOp := if rounding then .rnd false d n sh else .sat false d n sh
    let q (x : NCore) : Int := (accGet x n + (if rounding ∧ 0 < sh.val then 2 ^ (sh.val - 1) else 0 : Nat)) / (2 ^ sh.val : Nat)
    packetAmong i is o s (fun t x c => lands x c (t + 3) d (wd (unsgn 32 (satI 32 (q x)))) ∧
      (satI 32 (q x) ≠ q x → { land := t + 3, reg := 32, val := 0 } ∈ c.flight)) ∧
    packetAlone i is o s (fun t x => if satI 32 (q x) ≠ q x then fly (t + 3) 32 0 (fly (t + 3) d (wd (unsgn 32 (satI 32 (q x)))) x)
      else fly (t + 3) d (wd (unsgn 32 (satI 32 (q x)))) x)) ∧
  (∀ (rounding : Bool) (is : Issue) (d : VReg) (n : Reg8) (sh : Fin 64) (s : State),
    let i : Instr := if rounding then .rnd is true d n sh else .satX is true d n sh
    let o : SlotOp := if rounding then .rnd true d n sh else .sat true d n sh
    let q (x : NCore) (n : Nat) : Int :=
      (accGet x n + (if rounding ∧ 0 < sh.val then 2 ^ (sh.val - 1) else 0 : Nat)) / (2 ^ sh.val : Nat)
    packetAmong i is o s (fun t x c => lands x c (t + 3) d (wd (unsgn 32 (satI 32 (q x n)))) ∧
      lands x c (t + 3) (d.val + 1) (wd (unsgn 32 (satI 32 (q x (n.val + 1))))) ∧
      (satI 32 (q x n) ≠ q x n ∨ satI 32 (q x (n.val + 1)) ≠ q x (n.val + 1) → { land := t + 3, reg := 32, val := 0 } ∈ c.flight))) ∧
  (∀ (is : Issue) (n : Reg8) (byM : Option Reg8) (imm : BitVec 16) (s : State),
    let o : SlotOp := if byM.isSome then .aaddM n (byM.getD 0) else .aaddI n imm
    let v (x : NCore) : Word := tget 0 x.a n + (if byM.isSome then tget 0 x.m (byM.getD 0).val else imm.signExtend 32)
    packetAmong (.aadd is n byM imm) is o s (fun _ x c =>
      c.a = postMods x is.others (tset 0 x.a n (v x)) ∧ c.m = x.m ∧ c.l = x.l ∧ c.b = x.b) ∧
    packetAlone (.aadd is n byM imm) is o s (fun _ x => { x with a := tset 0 x.a n (v x) })) ∧
  (∀ (is : Issue) (n j : Reg8) (rev : Bool) (s : State),
    let v (x : NCore) : Word := eaNext x (if rev then .bitrev n j else .circ n j)
    packetAmong (.amod is n j rev) is (.amod n j rev) s (fun _ x c =>
      c.a = postMods x is.others (tset 0 x.a n (v x)) ∧ c.m = x.m ∧ c.l = x.l ∧ c.b = x.b) ∧
    packetAlone (.amod is n j rev) is (.amod n j rev) s (fun _ x => { x with a := tset 0 x.a n (v x) })) ∧
  (∀ (is : Issue) (f : AFile) (n : Reg8) (v : VReg) (s : State),
    packetAmong (.amov is f n v) is (.amov f n v) s (fun _ x c =>
      c.a = postMods x is.others (fileSet f n (vGet x v) x).a ∧ c.m = (fileSet f n (vGet x v) x).m ∧
        c.l = (fileSet f n (vGet x v) x).l ∧ c.b = (fileSet f n (vGet x v) x).b) ∧
    packetAlone (.amov is f n v) is (.amov f n v) s (fun _ x => fileSet f n (vGet x v) x)) ∧
  (∀ (is : Issue) (f : AFile) (n : Reg8) (imm : BitVec 20) (s : State),
    packetAmong (.amovi is f n imm) is (.amovi f n imm) s (fun _ x c =>
      c.a = postMods x is.others (fileSet f n (imm.signExtend 32) x).a ∧ c.m = (fileSet f n (imm.signExtend 32) x).m ∧
        c.l = (fileSet f n (imm.signExtend 32) x).l ∧ c.b = (fileSet f n (imm.signExtend 32) x).b) ∧
    packetAlone (.amovi is f n imm) is (.amovi f n imm) s (fun _ x => fileSet f n (imm.signExtend 32) x))

/-- Loads and stores (R172, R183, R188, R193, R205). -/
def Obligations.LoadAndStoreCommands : Prop :=
  (∀ (w : Bool) (is : Issue) (slot : MemSlot) (d : VReg) (ea : Ea) (s : State),
    let i : Instr := if w then .ldW is slot d ea else .ldD is slot d ea
    let o : SlotOp := .ld w slot d ea
    let k := is.core.val
    let a (x : NCore) : Nat := (eaAddr x ea).toNat
    let regs (t : Nat) (x : NCore) : NCore :=
      let y := fly (t + 2) d (wd (mWord s (localAddr k (a x)))) x
      { if w then y else fly (t + 2) (d.val + 1) (wd (mWord s (localAddr k (a x) + 4))) y with a := postMods x [o] x.a }
    (packetGoes s k is.guard (o :: is.others) = true → coresWf s = true →
      let t := issueClock s k (o :: is.others)
      let x := issueView s k (o :: is.others)
      ∃ u, exec i s = .next (placed s u) ∧
        (isLocal k (a x) = true → lands x (coreGet u k) (t + 2) d (wd (mWord s (localAddr k (a x)))) ∧
          (w = false → lands x (coreGet u k) (t + 2) (d.val + 1) (wd (mWord s (localAddr k (a x) + 4))))) ∧
        (isLocal k (a x) = false → (coreGet u k).load = some { addr := eaAddr x ea, d := d.val, dbl := !w }) ∧
        ((∀ p ∈ is.others, slotOfOp p ≠ .g) → (coreGet u k).a = postMods x (o :: is.others) x.a) ∧
        ((∀ p ∈ is.others, slotOfOp p ≠ .z) → u.mem = s.mem)) ∧
    (is.others = [] → packetGoes s k is.guard [o] = true →
      let t := issueClock s k [o]
      let x := issueView s k [o]
      ∃ srv, exec i s = .next (placed s { s with
        core := tset {} s.core k (packetEnd k t (if isLocal k (a x) then regs t x
          else { x with a := postMods x [o] x.a, load := some { addr := eaAddr x ea, d := d.val, dbl := !w } })),
        srv := srv }))) ∧
  (∀ (w : Bool) (is : Issue) (slot : MemSlot) (v : VReg) (ea : Ea) (s : State),
    let i : Instr := if w then .stW is slot v ea else .stD is slot v ea
    let o : SlotOp := .st w slot v ea
    let k := is.core.val
    let a (x : NCore) : Nat := (eaAddr x ea).toNat
    let n : Nat := if w then 4 else 8
    let val (x : NCore) : Nat := (vGet x v).toNat + (if w then 0 else (vGet x (v.val + 1)).toNat * 2 ^ 32)
    let post (x : NCore) : Posted := { addr := eaAddr x ea, size := if w then .word else .dword, val := val x }
    (packetGoes s k is.guard (o :: is.others) = true → coresWf s = true →
      let x := issueView s k (o :: is.others)
      ∃ u, exec i s = .next (placed s u) ∧
        (isLocal k (a x) = true → u.mem = (mStores (localAddr k (a x)) (leBytes n (val x)) s).mem) ∧
        (isLocal k (a x) = false → u.mem = s.mem ∧ (coreGet u k).posted = x.posted ++ [post x]) ∧
        ((∀ p ∈ is.others, slotOfOp p ≠ .g) → (coreGet u k).a = postMods x (o :: is.others) x.a)) ∧
    (is.others = [] → packetGoes s k is.guard [o] = true →
      let t := issueClock s k [o]
      let x := issueView s k [o]
      ∃ srv, exec i s = .next (placed s
        (if isLocal k (a x) then
          { eccWritten (localAddr k (a x)) n (mStores (localAddr k (a x)) (leBytes n (val x)) s) with
            core := tset {} s.core k (packetEnd k t { x with a := postMods x [o] x.a }), srv := srv }
        else { s with
          core := tset {} s.core k (packetEnd k t { x with a := postMods x [o] x.a, posted := x.posted ++ [post x] }),
          srv := srv }))))

/-- The C slot (R180, R189, R194 to R197). -/
def Obligations.ControlCommands : Prop :=
  (∀ (is : Issue) (s : State), packetLeads (.nop is) is .nop s (fun t x => packetEnd is.core t x)) ∧
  (∀ (is : Issue) (j : JmpTarget) (s : State), packetLeads (.jmp is j) is (.jmp j) s
    (fun t x => controlEnd t 3 { x with pc := jmpPc is.core x j })) ∧
  (∀ (is : Issue) (j : BitVec 16) (s : State), packetLeads (.call is j) is (.call j) s
    (fun t x => controlEnd t 3 { x with
      pc := pcWrap is.core j.toNat, rdep := x.rdep + 1,
      rstk := tset (0, 0) x.rstk x.rdep (pcWrap is.core (x.pc + 1), x.levels.length) })) ∧
  (∀ (is : Issue) (s : State), packetLeads (.ret is) is .ret s
    (fun t x => controlEnd t 3 { x with
      pc := (tget (0, 0) x.rstk (x.rdep - 1)).1, rdep := x.rdep - 1,
      rstk := tset (0, 0) x.rstk (x.rdep - 1) (0, 0) })) ∧
  (∀ (is : Issue) (n : RepCount) (j : BitVec 16) (s : State), packetLeads (.rep is n j) is (.rep n j) s
    (fun t x =>
      let start := pcWrap is.core (x.pc + 1)
      let stop := pcWrap is.core j.toNat
      let small := decide (stop + 1 - start ≤ 64)
      if repCount x n = 0 then controlEnd t 3 { x with pc := pcWrap is.core (stop + 1) }
      else controlEnd t 0 { x with
        pc := start, cache := if small then some start else x.cache,
        levels := { start := start, stop := stop, lc := repCount x n, dep := x.rdep,
                    hit := small && x.cache == some start } :: x.levels })) ∧
  (∀ (is : Issue) (s : State), packetLeads (.breakC is) is .brk s
    (fun t x => if x.levels = [] then packetEnd is.core t x
      else controlEnd t 3 { x with levels := x.levels.drop 1, pc := pcWrap is.core ((x.levels.map RepLevel.stop).headD 0 + 1) })) ∧
  (∀ (k t : Nat) (x : NCore), (x.levels = [] ∨ ∃ l r, x.levels = l :: r ∧ ¬ (l.stop = x.pc ∧ l.dep = x.rdep)) →
    packetEnd k t x = { x with pc := pcWrap k (x.pc + 1), cyc := t + 1, gap := [] }) ∧
  (∀ (k t : Nat) (x : NCore) (l : RepLevel) (r : List RepLevel), x.levels = l :: r → l.stop = x.pc → l.dep = x.rdep → l.lc ≤ 1 →
    packetEnd k t x = { x with
      levels := { l with lc := 0, first := false } :: r, pc := pcWrap k (x.pc + 1), cyc := t + 1, gap := [] }) ∧
  (∀ (k t : Nat) (x : NCore) (l : RepLevel) (r : List RepLevel), x.levels = l :: r → l.stop = x.pc → l.dep = x.rdep → 1 < l.lc →
    packetEnd k t x = { x with
      levels := { l with lc := l.lc - 1, first := false } :: r, pc := l.start, cyc := t + 1 + returnCost l,
      gap := if returnCost l = 0 then [] else [(10, returnCost l)] }) ∧
  (∀ (i : Instr) (is : Issue) (o : SlotOp) (s : State), exec i s = finish s (issueOp is o s) →
    let k := is.core.val
    let x0 := issueCore s k
    let t := x0.cyc + bankStalls (packetBanks k (landTo x0.cyc x0) [])
    coreTakes s k = true → guardOn x0 is.guard = false → (k < 32 → t < (clGet s (k / 8)).budget) →
    lowestExc (packetExc s k (landTo t x0) false (o :: is.others)) = none →
    ∃ srv, exec i s = .next (placed s { s with core := tset {} s.core k (packetEnd k t (landTo t x0)), srv := srv }))

/-- Waits, modes and system registers (R199, R206, R207, R209, R221). -/
def Obligations.WaitAndModeCommands : Prop :=
  (∀ (is : Issue) (s : State), (∀ p ∈ is.others, ∀ n a, p ≠ .movs (.write n a)) →
    packetAmong (.waitCycle is) is .waitCycle s
      (fun t x c => samePlace c (packetEnd is.core t x) ∧ if is.core = 32 then c.st = 1 else c.drain = true)) ∧
  (∀ (is : Issue) (s : State), is.others = [] → coresWf s = true → packetGoes s is.core is.guard [.waitCycle] = true →
    let e := packetEnd is.core (issueClock s is.core [.waitCycle]) (issueView s is.core [.waitCycle])
    ∃ srv, exec (.waitCycle is) s = .next (placed s { s with
      core := tset {} s.core is.core (if is.core = 32 then { e with st := 1 } else { e with drain := true }), srv := srv })) ∧
  (∀ (is : Issue) (s : State), (∀ p ∈ is.others, ∀ n a, p ≠ .movs (.write n a)) →
    packetAmong (.sync is) is .sync s (fun t x c => samePlace c (packetEnd is.core t x) ∧
      (is.core ≠ 32 ∧ lb s (clBase (is.core / 8) + 0x1C) (is.core % 8) = true → c.sync = true))) ∧
  (∀ (is : Issue) (s : State), is.others = [] → coresWf s = true → packetGoes s is.core is.guard [.sync] = true →
    let e := packetEnd is.core (issueClock s is.core [.sync]) (issueView s is.core [.sync])
    ∃ srv, exec (.sync is) s = .next (placed s { s with
      core := tset {} s.core is.core
        (if is.core ≠ 32 ∧ lb s (clBase (is.core / 8) + 0x1C) (is.core % 8) = true then { e with sync := true } else e),
      srv := srv })) ∧
  (∀ (is : Issue) (s : State), (∀ p ∈ is.others, ∀ n a, p ≠ .movs (.write n a)) →
    packetAmong (.wfi is) is .wfi s (fun t x c => samePlace c (packetEnd is.core t x) ∧ c.wfi = true)) ∧
  (∀ (is : Issue) (s : State), is.others = [] → coresWf s = true → packetGoes s is.core is.guard [.wfi] = true →
    let e := packetEnd is.core (issueClock s is.core [.wfi]) (issueView s is.core [.wfi])
    ∃ srv, exec (.wfi is) s = .next (placed s { s with core := tset {} s.core is.core { e with wfi := true }, srv := srv })) ∧
  (∀ (is : Issue) (s : State), packetGoes s is.core is.guard (.user :: is.others) = true → coresWf s = true →
    (∀ p ∈ is.others, ∀ n a, p ≠ .movs (.write n a)) →
    ∃ u, exec (.user is) s = .next (placed s u) ∧ u.sup = { s.sup with sstat := s.sup.sstat ||| 1 } ∧
      (is.others = [] → u = { s with
        sup := u.sup, srv := u.srv,
        core := tset {} s.core is.core
          (packetEnd is.core (issueClock s is.core [.user]) (issueView s is.core [.user])) })) ∧
  (∀ (is : Issue) (s : State), packetGoes s is.core is.guard (.iret :: is.others) = true → coresWf s = true → is.core = 32 →
    (∀ p ∈ is.others, (∀ n a, p ≠ .movs (.write n a)) ∧ (∀ w sl v ea, p ≠ .st w sl v ea)) →
    let w (j : Nat) : Nat := memWord s (s.sup.ssp.toNat + 4 * j)
    let x := issueView s 32 (.iret :: is.others)
    ∃ u, exec (.iret is) s = .next (placed s u) ∧
      u.sup = { s.sup with sstat := wd (w 1) &&& 0x1F1#32, ssp := s.sup.ssp + 64 } ∧
      (coreGet u 32).pc = w 0 % 65536 ∧ (coreGet u 32).flags = wd (w 2) &&& 0x1FF#32 ∧
      (coreGet u 32).levels = frameLevels (packetEnd 32 (issueClock s 32 (.iret :: is.others)) x) w ∧
      (coreGet u 32).rdep = min 8 (w 15 / 256 % 16) ∧ (coreGet u 32).rstk = x.rstk ∧ u.mem = s.mem) ∧
  (∀ (is : Issue) (d : VReg) (n : Nat) (s : State), packetGives (.movs is (.read d n)) is (.movs (.read d n)) s d
    (fun _ _ => sysRead s n) (fun _ x => x.flags)) ∧
  (∀ (is : Issue) (n : Nat) (a : VReg) (s : State), packetGoes s is.core is.guard (.movs (.write n a) :: is.others) = true →
    coresWf s = true → (∀ p ∈ is.others, p ≠ .user ∧ p ≠ .iret) →
    ∃ u, exec (.movs is (.write n a)) s = .next (placed s u) ∧
      u.sup = (sysWrite n (vGet (issueView s is.core (.movs (.write n a) :: is.others)) a) s).sup ∧
      (is.others = [] → u = { s with
        sup := u.sup, srv := u.srv,
        core := tset {} s.core is.core (packetEnd is.core
          (issueClock s is.core [.movs (.write n a)]) (issueView s is.core [.movs (.write n a)])) })) ∧
  (∀ (v : Word) (s : State), (sysWrite 0 v s).sup = { s.sup with sstat := v &&& 0x1F1#32 } ∧
    (sysWrite 1 v s).sup = { s.sup with vbase := v } ∧ (sysWrite 2 v s).sup = { s.sup with ssp := v } ∧
    sysRead (sysWrite 8 v s) 8 = v ∧ sysRead (sysWrite 8 v s) 9 = sysRead s 9 ∧
    sysRead (sysWrite 9 v s) 9 = v ∧ sysRead (sysWrite 9 v s) 8 = sysRead s 8 ∧
    (∀ n, n = 3 ∨ n = 4 ∨ n = 5 ∨ n = 10 ∨ n = 11 → sysWrite n v s = s) ∧
    (∀ g : Fin 8, bit (tget 0 s.sup.grd (2 * g.val)) 4 = true → sysWrite (32 + 2 * g.val) v s = s ∧ sysWrite (33 + 2 * g.val) v s = s))

/-- Exceptions of a packet (R181, R202, R203, R206, R208, R210). -/
def Obligations.PacketExceptions : Prop :=
  (∀ (i : Instr) (is : Issue) (o : SlotOp) (e : Nat × Option Nat) (s : State), exec i s = finish s (issueOp is o s) →
    let k := is.core.val
    let ops := o :: is.others
    let t := issueClock s k ops
    coreTakes s k = true → guardOn (issueCore s k) is.guard = true → k < 32 → t < (clGet s (k / 8)).budget →
    lowestExc (packetExc s k (issueView s k ops) true ops) = some e →
    let c := k / 8
    let s1 := srvCore k 1 1 (srvCore k 3 (t - (issueCore s k).cyc) (corePut k { issueView s k ops with cyc := t + 1, gap := [] } s))
    let s2 := evOr (coreBase k + 8) (2 ^ e.1)
      (if lvn s1 (coreBase k + 8) % 128 = 0 then corePut k { coreGet s1 k with excPc := (coreGet s1 k).pc } s1 else s1)
    let s3 := evOr (clBase c + 0xC) 2 (corePut k { landAll (coreGet s2 k) with
      flight := [], levels := [], rstk := [], rdep := 0, load := none, heldP := none, drain := false, sync := false,
      accVis := [], st := 3 } s2)
    exec i s = .next (placed s (raise (0x1511 + c * 0x100) 2 (k % 8) e.1 (semLoseCore c (k % 8) s3)))) ∧
  (∀ (i : Instr) (is : Issue) (o : SlotOp) (e : Nat × Option Nat) (s : State), exec i s = finish s (issueOp is o s) →
    let ops := o :: is.others
    let t := issueClock s 32 ops
    let a := (s.sup.ssp - 64).toNat
    is.core = 32 → coresWf s = true → coreTakes s 32 = true → guardOn (issueCore s 32) is.guard = true →
    lowestExc (packetExc s 32 (issueView s 32 ops) true ops) = some e →
    let x := { issueView s 32 ops with cyc := t + 1, gap := [] }
    let trapN := if e.1 = 6 then trapOf ops else 0
    (s.sup.ssp.toNat % 64 = 0 → guardDenies s false .write a = false → guardDenies s false .write (a + 32) = false →
      inSupRam a = true →
      ∃ u, exec i s = .next (placed s u) ∧ coreGet u 32 = { x with
          pc := (s.sup.vbase.toNat / 16 + 64 + e.1) % 65536, wfi := false } ∧
        u.sup = { s.sup with
          ssp := s.sup.ssp - 64, sstat := sstatWith false 15 s.sup.sstat, epc := wd x.pc, ecause := wd (e.1 + trapN * 256),
          eaddr := if e.2.isSome then wd (e.2.getD 0) else s.sup.eaddr } ∧
        u.mem = (mStoreWs a (frameWords s x) s).mem ∧ u.hub = s.hub ∧
        u.flt = (if e.1 = 2 then (raise 0x0112 2 255 0 s).flt else s.flt)) ∧
    ((s.sup.ssp.toNat % 64 ≠ 0 ∨ guardDenies s false .write a = true ∨ guardDenies s false .write (a + 32) = true) →
      ∃ u, exec i s = .next (placed s u) ∧ u.sup = s.sup ∧ u.mem = s.mem ∧ coreGet u 32 = x ∧
        u.flt = (raise 0x0111 3 255 0 (if e.1 = 2 then raise 0x0112 2 255 0 s else s)).flt)) ∧
  (∀ (is : Issue) (n : Fin 16) (s : State),
    let ops := SlotOp.trap n :: is.others
    let a := (s.sup.ssp - 64).toNat
    is.core = 32 → coresWf s = true → coreTakes s 32 = true → guardOn (issueCore s 32) is.guard = true →
    lowestExc (packetExc s 32 (issueView s 32 ops) true ops) = some (6, none) →
    s.sup.ssp.toNat % 64 = 0 → guardDenies s false .write a = false → guardDenies s false .write (a + 32) = false →
    inSupRam a = true →
    ∃ u, exec (.trap is n) s = .next (placed s u) ∧ (coreGet u 32).pc = (s.sup.vbase.toNat / 16 + 70) % 65536 ∧
      u.sup = { s.sup with
        ssp := s.sup.ssp - 64, sstat := sstatWith false 15 s.sup.sstat, epc := wd (issueView s 32 ops).pc,
        ecause := wd (6 + n.val * 256) } ∧
      u.mem = (mStoreWs a (frameWords s (issueView s 32 ops)) s).mem ∧ u.hub = s.hub ∧ u.flt = s.flt)

/-- Events of the bus and the interrupts of a core (R193, R208, R209, R210). -/
def Obligations.BusLoadReturnCommands : Prop :=
  (∀ (k : Fin 33) (n : Nat) (l : BusLoad) (s : State), (coreGet s k).load = some l →
    waitsReset s l.addr.toNat = false → waitsSnap s l.addr.toNat false = false →
    let r := busRead (masterOfCore k) l.addr.toNat (accSizeOf (!l.dbl)) s
    let y := coreGet r.2 k
    let t := y.cyc + n
    let y1 := fly t l.d (wd r.1) { y with load := none, cyc := t, gap := tset 0 y.gap 3 (tget 0 y.gap 3 + n) }
    let y2 := if l.dbl then fly t (l.d + 1) (wd (r.1 / 2 ^ 32)) y1 else y1
    let s1 := srvCore k 3 n (corePut k y2 r.2)
    exec (.busLoadReturn k n) s = .next (placed s
      { s1 with srv.wait := s1.srv.wait.map (fun e => if e.core = k.val && e.lat = 0 then { e with lat := e.held + 1 + n } else e) }) ∧
    (reads s (masterOfCore k) l.addr.toNat = true → l.dbl = false →
      r.1 = (regRead (masterOfCore k) l.addr.toNat (counted s)).1.toNat)) ∧
  (∀ (k : Fin 33) (p : Posted) (rest : List Posted) (s : State), (coreGet s k).posted = p :: rest →
    waitsReset s p.addr.toNat = false →
    let s1 := busWrite (masterOfCore k) p.addr.toNat p.size p.val (corePut k { coreGet s k with posted := rest } s)
    let y := coreGet s1 k
    (y.heldP = none → exec (.postedWriteComplete k) s = .next (placed s s1)) ∧
    (∀ g ops, y.heldP = some (g, ops) →
      exec (.postedWriteComplete k) s = .next (placed s (issuePacket k g ops (corePut k { y with heldP := none } s1))))) ∧
  (∀ (n i : Nat) (s : State), supBetween s = true → supIe s = true → bestLine s = some i → coresWf s = true →
    let a := (s.sup.ssp - 64).toNat
    let x0 := coreGet s 32
    let x := { x0 with levels := x0.levels.dropWhile (fun l => l.lc == 0) }
    (s.sup.ssp.toNat % 64 = 0 → guardDenies s false .write a = false → guardDenies s false .write (a + 32) = false →
      inSupRam a = true →
      ∃ u, exec (.interruptEntry n) s = .next (placed s u) ∧ coreGet u 32 = { x with
          pc := (s.sup.vbase.toNat / 16 + i) % 65536, wfi := false, cyc := x.cyc + min 24 n } ∧
        u.sup = { s.sup with
          ssp := s.sup.ssp - 64, sstat := sstatWith false (linePri s i) s.sup.sstat,
          strobe := s.sup.strobe && i != 37, tick := s.sup.tick && i != 38 } ∧
        u.mem = (mStoreWs a (frameWords s x) s).mem ∧ u.hub = s.hub ∧ u.flt = s.flt) ∧
    (s.sup.ssp.toNat % 64 ≠ 0 ∨ guardDenies s false .write a = true ∨ guardDenies s false .write (a + 32) = true →
      exec (.interruptEntry n) s = .next (placed s (raise 0x0111 3 255 0 s))))

/-- The timed rows of the channel states (R238, R240, R242, R243, R244, R246, R257). -/
def Obligations.OutputStateCommands : Prop :=
  ∀ (n : Fin 32) (s : State), outsWf s = true →
    let x := outGet s n
    let b := outBase n
    let k := s.grat.cycle
    (∀ d : DiagIn, x.st = 2 → x.since + cy60ms s ≤ k →
      let l3 := lf s b 20 1 = 0
      let fall := l3 && lf s (b + 0xC) 0 16 < d.cap
      let y := { x with
        z := min 65535 d.z, cap := if l3 then min 65535 d.cap else x.cap, vofs := d.vofs.toInt, iofs := d.iofs.toInt,
        since := k, down := false }
      (diagResult s n d true = 0 → exec (.diagComplete n d) s = .next (placed s (diagBatch k (outPass k n (outEvent n 1 (outPut n
        { y with
          diagOk := true, fallback := fall, c := outRampTo s x.c k (softW s) 1,
          g := { n0 := 0, n1 := 1, start := k, len := softW s * spc s }, st := 3 }
        (whenS fall (raise 0x1B17 1 n 0) (srvUp 27 4 1 s)))))))) ∧
      (diagResult s n d true ≠ 0 → exec (.diagComplete n d) s = .next (placed s (diagBatch k (raise 0x1B16 2 n (diagResult s n d true)
        (outEvent n 2 (outEvent n 1 (outPut n { y with st := 9, result := diagResult s n d true } (srvUp 27 4 1 s))))))))) ∧
    (x.st = 6 → x.since + cy100ms s ≤ k →
      (0 < x.retry → exec (.shortHoldExpiry n) s = .next (placed s (outEvent n 1 (outPut n
        { x with latch := false, retry := x.retry - 1, st := 7, since := k, down := false } s)))) ∧
      (x.retry = 0 → exec (.shortHoldExpiry n) s = .next (placed s (raise 0x1B12 2 n 0 (outEvent n 2 (outEvent n 1 (outPut n
        { x with latch := false, st := 9, since := k, down := false, result := 8 } s))))))) ∧
    (∀ d : DiagIn, x.st = 7 → x.since + cy20ms s ≤ k →
      (diagResult s n d false = 0 → exec (.retestComplete n d) s = .next (placed s (raise 0x1B11 0 n 0 (outEvent n 1 (outPut n
        { x with
          z := min 65535 d.z, c := outRampTo s (constRamp 0) k (softW s) 1,
          g := { n0 := 0, n1 := 1, start := k + softW s, len := cy50ms s * spc s }, st := 8, since := k, down := false } s))))) ∧
      (diagResult s n d false ≠ 0 → exec (.retestComplete n d) s = .next (placed s (outEvent n 1 (outPut n
        { x with
          z := min 65535 d.z, result := diagResult s n d false, st := 6, since := k, down := false } s))))) ∧
    (x.st = 3 → x.since + softW s ≤ k → exec (.softstartComplete n) s = .next (placed s (outEvent n 1 (outPut n
      { x with st := 4, since := k, down := false } s)))) ∧
    (x.st = 8 → x.since + softW s + cy50ms s ≤ k →
      let y := { x with g := constRamp 0, c := outRampTo s x.c k (softW s) 0, stopLen := k, st := 5, since := k, down := false }
      let u := outEvent n 1 (outPut n y s)
      exec (.recoverComplete n) s = .next (placed s
        (if silBridge s n then outPut n { y with duty := (outDuty u k n y).1 } u
        else outEvent n 1 (outPut n { x with st := 4, since := k, down := false } s)))) ∧
    ((x.st = 5 ∨ x.st = 11) → x.down = false → x.stopLen + softW s ≤ k →
      exec (.softStopEnd n) s = .next (placed s (outPut n { x with down := true } s))) ∧
    (x.st = 11 → x.since + softW s ≤ k →
      exec (.stoppingComplete n) s = .next (placed s (pendApplyMask 0x401C0000 (wd (2 ^ n.val)) (pendApply (b + 0xC)
        (pendApply (b + 8) (pendApply b (outEvent n 1 (outPut n
          { x with
            st := 0, since := k, down := false, fallback := false, c := constRamp 0, g := constRamp 0, duty := [] } s)))))))) ∧
    (x.st = 4 → x.since + cy10s s ≤ k →
      exec (.retryRefill n) s = .next (placed s (outPut n { x with retry := lf s (b + 4) 8 4 } s)))

/-- Trips, the squall, DC detection and the voice-coil measurement (R245, R247 to R249, R254, R349). -/
def Obligations.OutputFaultCommands : Prop :=
  (∀ (n : Fin 32) (src : TripSrc) (ns : Nat) (s : State),
    let x := outGet s n
    let b := outBase n
    let hit := (∃ l, src = .current l ∧ lf s (b + 4) 16 8 < l) ∨ (src = .bflt ∧ lb s b 24 = true)
    (hit → 20 ≤ ns → outActive s n = true → x.latch = false →
      let c := tripCycle s
      let s1 := srvUp 27 0 1 (ctrUp (b + 0x28) 0 16 (outEvent n 0 (outPut n { x with latch := true } s)))
      let s2 := raise 0x1B10 1 n 0 { s1 with out.tripLoc := tset 0 s.out.tripLoc c (tget 0 s.out.tripLoc c ||| 2 ^ n.val) }
      let l := (s.out.trips.filter (fun e => decide (s.time.lc ≤ e.1 + 500000))) ++ [(s.time.lc, n.val)]
      let t := if 8 ≤ l.length ∧ s.out.squallDue = false ∧ s.out.squall = false then
          raise 0x1B13 2 255 (maskOf (l.map (fun e => e.2))) { s2 with out.trips := l, out.squallDue := true }
        else { s2 with out.trips := l }
      exec (.trip n src ns) s = .next (placed s
        (if tget 0 t.out.tripLoc c ≠ tget 0 s.out.tripLoc c ∧ pairEn s = true ∧ s.pair.role = 1 then
          stateSend 3 c (2 ^ n.val * 2 ^ 32) 0 [] (windowAfter t (ftNow t)) t
        else t))) ∧
    (¬ hit ∨ ns < 20 ∨ outActive s n = false ∨ x.latch = true → exec (.trip n src ns) s = .next (placed s s))) ∧
  (∀ (n : Fin 32) (sensed : Bool) (s : State),
    let x := outGet s n
    let hold := if fam44 s then (if sensed then 4410 else 11025) else (if sensed then 4800 else 12000)
    (x.st = 3 ∨ x.st = 4 ∨ x.st = 5 ∨ x.st = 8 ∨ x.st = 11) → x.dcPend = 0 → x.dcSince + hold ≤ s.grat.cycle →
    exec (.dcDetect n sensed) s = .next (placed s (raise (if sensed then 0x1B15 else 0x1B14) 2 n 0 (outPut n
      { x with
        dcPend := if sensed then 10 else 9, latch := true, g := constRamp 0,
        duty := x.duty.zipIdx.map (fun e => if windowNow s * spc s / 64 < e.2 then 0 else e.1) } s)))) ∧
  (∀ (n : Fin 32) (rvc : Nat) (s : State),
    let x := outGet s n
    let b := outBase n
    lb s b 28 = true → lb s b 29 = true → x.rvcAt + famF s ≤ s.grat.cycle →
    ∃ m : Int,
      let s1 := outPut n { x with rvc := min 65535 rvc, tMeas := some m, rvcAt := s.grat.cycle, loud := false } s
      exec (.thRvcMeasure n rvc) s = .next (placed s
        (if lb s b 26 = true ∧ x.st = 4 then adapt1 n (if x.loud then 0 else 1) s1 else s1)))

/-- TDM ports and the stop of a transmitter (R263, R266 to R275, R283). -/
def Obligations.TdmPortCommands : Prop :=
  (∀ (n : Fin 8) (ft : Nat) (s : State), (tdmGet s n).stopDue = some ft → ft ≤ tdmNextFt s n →
    exec (.tdmStop (.tdm n)) s = .next (placed s (pendApply (tdmBase n + 4) (pendApply (tdmBase n)
      (tdmPut n {} (atFt (tdmNextFt s n) s)))))) ∧
  (∀ (t : Fin 4) (ft : Nat) (s : State), (txGet s t).stopDue = some ft → ft ≤ txNextFt s t →
    exec (.tdmStop (.aes t)) s = .next (placed s (txPut t {} (atFt (txNextFt s t) s)))) ∧
  (∀ (n : Fin 8) (ft : Nat) (s : State), (tdmGet s n).maskDue = some ft → (tdmGet s n).running = true →
    ft ≤ tdmNextFt s n →
    ∃ new : Nat, exec (.maskApply n) s = .next (placed s (tdmPut n
      { tdmGet s n with
        maskDue := none, txM := lvn s (tdmBase n + 8), rxM := lvn s (tdmBase n + 0xC), newTx := new }
      (atFt (tdmNextFt s n) s))) ∧
      new = ((bitsOf 32 (lvn s (tdmBase n + 8))).filter (fun i => !nbit (tdmGet s n).txM i)).foldl (fun a i => a + 2 ^ i) 0) ∧
  (∀ (n : Fin 8) (din : List Word) (s : State), (tdmGet s n).running = true → tdmFollower s n = false →
    let x := tdmGet s n
    let j := nextFrame s (spc s) x.j x.stepSeen (tdmOfs s n)
    let s1 := atFt (frameFt s (spc s) j (tdmOfs s n)) s
    let sent := fun i => if x.first ∨ j = 0 then 0 else
      getAt 0 ((List.range (tdmNslot s n)).map (fun i => if s.flt.safe then 0 else egressAt s1 (2048 + n * 32 + i) (j - 1))) i
    let cells := (List.range (tdmNslot s n)).map (fun i =>
      if nbit x.txM i = false then (if lb s (tdmBase n) 7 then some 0 else none, false)
      else if nbit x.newTx i then (some 0, false)
      else (some (tdmFromA32 s n (sent i)).1, (tdmFromA32 s n (sent i)).2))
    let sats := (cells.filter (fun c => c.2)).length
    let s2 := srvUp 25 0 1 (foldS (List.range sats) (fun _ t => ctrUp (tdmBase n + 0x28) 0 8 t)
      (whenS (sats != 0) (evOr (tdmBase n + 0x20) 8)
        (tdmPut n { tdmGet s1 n with dout := cells.map (fun c => c.1), newTx := 0 } s1)))
    let s3 := arriveLocal 3 n (j + 1) (tdmMasked s2 n (tdmRow s2 n din)) s2
    exec (.tdmFrame n din) s = .next (placed s
      (tdmPut n { tdmGet s3 n with j := j + 1, first := false, stepSeen := s3.time.stepCnt } s3))) ∧
  (∀ (n : Fin 8) (bits : Nat) (din : List Word) (s : State), (tdmGet s n).running = true → tdmFollower s n = true →
    let x := tdmGet s n
    let taken := bits = tdmFlen s n ∧ x.inb.length < 16
    let fs := famF s * spc s
    ∃ r : List Int, (x.outb ≠ [] → r = getAt [] x.outb 0) ∧ (x.outb = [] → r.length = tdmNslot s n) ∧
      (let s1 := tdmSend n r s
      let x1 := { tdmGet s1 n with
        outb := x.outb.drop 1, fsync := s.time.lc, frac := 0, inb := if taken then x.inb ++ [tdmRow s n din] else x.inb,
        refill := x.refill || (bits == tdmFlen s n && decide (16 ≤ x.inb.length)) }
      let s2 := tdmPut n x1 s1
      exec (.tdmFrameReceived n bits din) s = .next (placed s
        (arrive (24 + n) (ceilDiv 500000000 fs) (frameY s x.fsync fs)
          (((2048 : Int) - tdmLevel x1) * secU / (256 * fs : Nat)) 0
          (srvUp 25 0 1 (if taken then s2 else
            srvUp 25 3 1 (evOr (tdmBase n + 0x20) 2 (ctrUp (tdmBase n + 0x28) 16 8 s2)))))))) ∧
  (∀ (n : Fin 8) (s : State), (tdmGet s n).running = true → tdmFollower s n = true →
    let x := tdmGet s n
    let j := nextFrame s (spc s) x.j x.stepSeen 0
    let s1 := atFt (frameFt s (spc s) j 0) s
    let s2 := if x.inb = [] then s1 else
      arriveLocal 3 n (j + 1) (tdmMasked s1 n (getAt [] x.inb 0)) (tdmPut n { x with inb := x.inb.drop 1, lastIn := getAt [] x.inb 0 } s1)
    let s3 := tdmPlace n j (if x.first ∨ j = 0 then List.replicate (tdmNslot s n) 0 else tdmEgress s2 n (j - 1)) s2
    exec (.tdmInternalFrame (.tdm n)) s = .next (placed s
      (tdmPut n { tdmGet s3 n with j := j + 1, first := false, stepSeen := s3.time.stepCnt } s3))) ∧
  (∀ (r : Fin 4) (s : State), (rxGet s r).running = true → (rxGet s r).audio = true →
    let x := rxGet s r
    let j := nextFrame s (rxNeed s r) x.j x.stepSeen 0
    let s1 := atFt (frameFt s (rxNeed s r) j 0) s
    let s2 := if x.inb = [] then s1 else
      arriveLocal 4 r (j + 1) (getAt [] x.inb 0) (rxPut r { x with inb := x.inb.drop 1, lastIn := getAt [] x.inb 0 } s1)
    exec (.tdmInternalFrame (.aes r)) s = .next (placed s
      (rxPut r { rxGet s2 r with j := j + 1, stepSeen := s2.time.stepCnt } s2))) ∧
  (∀ (n : Fin 8) (s : State), (tdmGet s n).running = true → tdmFollower s n = true → (tdmGet s n).lost = false →
    exec (.tdmClockLost n) s = .next (placed s (evOr (tdmBase n + 0x20) 1 (tdmPut n { tdmGet s n with lost := true }
      (atLc ((tdmGet s n).fsync + ceilDiv (2 * 500000000) (famF s * spc s)) s))))) ∧
  (∀ (n : Fin 8) (s : State), (tdmGet s n).running = true → (tdmGet s n).lost = true →
    exec (.tdmClockRegained n) s = .next (placed s (evOr (tdmBase n + 0x20) 1
      (tdmPut n { tdmGet s n with lost := false, refill := true } s))))

/-- AES3 receivers and transmitters (R277 to R282). -/
def Obligations.AesCommands : Prop :=
  (∀ (r : Fin 4) (f : AesFrame) (s : State), (rxGet s r).running = false →
    exec (.aesRxFrame r f) s = .next (placed s s)) ∧
  (∀ (r : Fin 4) (f : AesFrame) (s : State), rxWf s = true → (rxGet s r).running = true → f.codeErr = true →
    let x := rxGet s r
    let y := { x with good := 0, bad := x.bad + 1, blockOk := false }
    exec (.aesRxFrame r f) s = .next (placed s
      (if x.lock ∧ 1 ≤ x.bad then
        evOr (rxBase r + 0x10) 1 (ctrUp (rxBase r + 0x18) 8 8 (rxPut r { y with lock := false, held := false } s))
      else rxPut r y s))) ∧
  (∀ (r : Fin 4) (f : AesFrame) (s : State), rxWf s = true → (rxGet s r).running = true → f.codeErr = false →
    let x := rxGet s r
    let y := { x with good := min 8 (x.good + 1), bad := 0 }
    (x.lock = false → x.good < 7 → exec (.aesRxFrame r f) s = .next (placed s (rxPut r y s))) ∧
    (x.lock = true ∨ 7 ≤ x.good →
      let s2 := if x.lock then rxPut r y s else
        evOr (rxBase r + 0x10) 1 (ctrUp (rxBase r + 0x18) 8 8 (rxPut r { y with lock := true } s))
      let row := [rxAudio s2 r f.a (getAt 0 x.prev 0), rxAudio s2 r f.b (getAt 0 x.prev 1)]
      let s4 := rxPush r row (rxBlock r f (srvUp 26 0 1 (rxCount r f.b (rxCount r f.a
        (rxPut r { rxGet s2 r with prev := row } s2)))))
      (f.zPre = false → exec (.aesRxFrame r f) s = .next (placed s s4)) ∧
      (f.zPre = true →
        let ph := ftNow s * (famF s * spc s) % (192 * secU)
        let half : Int := if 2 * ph ≤ 192 * secU then ph else (ph : Int) - 192 * secU
        exec (.aesRxFrame r f) s = .next (placed s
          (arrive (16 + r) (ceilDiv 500000000 (max 1 x.rate)) (frameY s (measGet s (16 + r)).last (x.rate / 192))
            (half / (famF s * spc s : Nat)) x.rate s4))))) ∧
  (∀ (r : Fin 4) (n : Nat) (s : State), (rxGet s r).running = true →
    let x := rxGet s r
    let sec := ftNow s / secU + (if ftNow s / secU ≤ x.second then 1 else 0)
    let m := if x.lock && x.held then n % 2 ^ 18 else 0
    let past := (m :: x.past).take 3
    let near := fun a b : Nat => decide (((a : Int) - b).natAbs ≤ 1)
    let change := past.length == 3 && past.all (fun a => past.all (near a)) && !near m x.rate
    exec (.aesRateMeasure r n) s = .next (placed s (whenS change (evOr (rxBase r + 0x10) 2)
      (rxPut r { x with meas := m, past := past, held := x.lock, second := sec, rate := if change then m else x.rate }
        (atFt (sec * secU) s))))) ∧
  (∀ (t : Fin 4) (s : State), (txGet s t).running = true →
    let x := txGet s t
    let j := nextFrame s (spc s) x.j x.stepSeen (frameOfs s (16 + t))
    let s1 := atFt (frameFt s (spc s) j (frameOfs s (16 + t))) s
    let a := fun i : Nat => if x.first || j = 0 || s1.flt.safe then 0 else egressAt s1 (2304 + 2 * t + i) (j - 1)
    let ws := [txAudio s1 t (a 0), txAudio s1 t (a 1)]
    let sats := (ws.filter (fun w => w.2)).length
    let blk := j % 192 = 0
    exec (.aesTxFrame t) s = .next (placed s
      (foldS (List.range sats) (fun _ u => ctrUp (txBase t + 0x18) 0 16 u) (whenS (sats != 0) (evOr (txBase t + 0x10) 2)
        (srvUp 26 1 1 (whenS (decide blk) (evOr (txBase t + 0x10) 1) (txPut t
          { x with
            j := j + 1, first := false, stepSeen := s1.time.stepCnt, inBlock := x.inBlock || decide blk,
            cs := if blk then txBlockWords s1 t else x.cs, sent := ws.map (fun w => w.1) } s1)))))))

/-- Links, transmission, PAUSE and duplicate state of the fabric ports (R60 to R63, R74, R286 to R288, R297, R301 to R304). -/
def Obligations.PortCommands : Prop :=
  (∀ (p : Fin 4) (phTx phRx : Int) (inv : Bool) (an : Fin 4) (s : State),
    prtAlive s p = true → (prtGet s p).up = false → (prtGet s p).upDue = false →
    let b := prtBase p
    let neg := prtMode s p = 1 && lb s b 5
    let s1 := prtPut p { prtGet s p with
      upDue := true, phaseTx := phTx, phaseRx := phRx, rxInv := inv, anDone := neg, anPause := if neg then an.val else 0 } s
    let s2 := if lb s (b + 0x400) 1 then s1
      else setLv (b + 0x408) (wd (calLat s p).2) (setLv (b + 0x404) (wd (calLat s p).1) s1)
    exec (.linkUp p phTx phRx inv an) s = .next (placed s
      (if inv then raise ((8 + p) * 256 + 0x12) 0 255 0 (evOr (b + 8) 2 s2) else s2))) ∧
  (∀ (p : Fin 4) (s : State),
    let x := prtGet s p
    let s1 := prtPut p {
      txHead := x.txHead, rxHead := x.rxHead, wire := x.wire, wireBad := x.wireBad,
      txDesc := x.txDesc.map (fun d => (d.1, 0)), holdoff := x.holdoff } s
    (x.up = true → exec (.linkDown p) s = .next (placed s
      (pairSync (adjDown p (raise ((8 + p) * 256 + 0x11) 1 255 0 (evOr (prtBase p + 8) 1 s1)))))) ∧
    (x.up = false → x.upDue = true → exec (.linkDown p) s = .next (placed s (pairSync (adjDown p s1))))) ∧
  (∀ (p : Fin 4) (t c : Nat) (f : TxFrame) (rest : List TxFrame) (s : State), (prtGet s p).up = true →
    let s0 := [0, 1, 2].foldl (fun u c => dropGate p c (qOf (prtGet s p) c).length u) s
    pickClass s0 p = some (t, c) → qOf (prtGet s0 p) c = f :: rest →
    let r := ptpOut p f (atFt t s0)
    let z := prtGet r.2 p
    let ends := r.2.time.lc + ceilDiv (byteDur r.2 p (fTimes r.1.bytes)) 131072
    let s3 := srvUp (8 + p) (2 + c) 1 (srvUp (8 + p) 5 (fLen r.1.bytes) (prtPut p { z with
      q := setAt z.q c rest, cur := some (ends, r.1), wire := fPad r.1.bytes, wireBad := r.1.stomp,
      txDesc := z.txDesc.map (fun d => (d.1, if f.desc then d.2 - 1 else d.2)) } r.2))
    let s4 := whenS r.1.pause (prtCnt p 12) (whenS r.1.stomp (prtCnt p 5) (prtCnt p 4 (txAdmit p s3)))
    exec (.txFrameStart p) s = .next (placed s (f.src.elim s4 (fun e => pauseCheck e s4)))) ∧
  (∀ (p : Fin 4) (s : State), (prtGet s p).up = true →
    let s0 := [0, 1, 2].foldl (fun u c => dropGate p c (qOf (prtGet s p) c).length u) s
    pickClass s0 p = none → exec (.txFrameStart p) s = .next (placed s s0)) ∧
  (∀ (p : Fin 4) (s : State), (prtGet s p).paused = true →
    let x := prtGet s p
    exec (.pauseExpiry p) s = .next (placed s (prtPut p
      { x with
        paused := false, stops := x.stops.filter (fun e => decide (x.pauseEnd ≤ e.2 + 5000000)) ++ [(x.pauseAt, x.pauseEnd)] }
      (atLc x.pauseEnd s)))) ∧
  (∀ (p : Fin 4) (s : State), (prtGet s p).up = true → (prtGet s p).xoff = true →
    lb s (prtBase p + 0x10) 1 = true → lf s (prtBase p + 0x14) 0 16 * 1024 < rxOcc s p →
    let s1 := atLc ((prtGet s p).xoffAt + pauseTicks s p (lf s (prtBase p + 0x10) 16 16) / 2) s
    exec (.pauseRepeat p) s = .next (placed s (txOwn p 1 (pauseFrame s (lf s (prtBase p + 0x10) 16 16))
      (prtPut p { prtGet s p with xoffAt := s1.time.lc } s1)))) ∧
  (∀ (p : Fin 4) (i : Nat) (s : State), (prtGet s p).paused = true → wdArmed s p = true → (prtGet s p).holdoff = none →
    let x := prtGet s p
    let lim := lf s (prtBase p + 0x18) 0 10 * 5000
    (List.range 1001).find? (fun i => decide (lim ≤ stopSum x (s.time.lc + i * 5000)) &&
      decide (s.time.lc + i * 5000 ≤ x.pauseEnd + 5000)) = some i →
    let s1 := atLc (s.time.lc + i * 5000) s
    exec (.pauseWdTrip p) s = .next (placed s (raise ((8 + p) * 256 + 0x15) 1 255 0 (ctrUp (prtBase p + 0x13C) 0 32
      (evOr (prtBase p + 8) 4 (prtPut p
        { pauseStop s1.time.lc x with holdoff := some (s1.time.lc + lf s (prtBase p + 0x1C) 0 16 * 500000) } s1)))))) ∧
  (∀ (p : Fin 4) (t : Nat) (s : State), (prtGet s p).holdoff = some t →
    exec (.holdoffEnd p) s = .next (placed s (prtPut p { prtGet s p with holdoff := none, stops := [] } (atLc t s)))) ∧
  (∀ (flow : BitVec 20) (d : DupSt) (s : State), tget none s.swx.dup flow.toNat = some d →
    (d.last + 16384 ≤ s.grat.cycle → exec (.duplicateStateTimeout flow) s =
      .next (placed s { s with swx.dup := tset none s.swx.dup flow.toNat none })) ∧
    (s.grat.cycle < d.last + 16384 → exec (.duplicateStateTimeout flow) s = .next (placed s s)))

/-- Reception and rings (R289, R294, R295, R300 to R308, R341). -/
def Obligations.ReceiveAndRingCommands : Prop :=
  (∀ (p : Fin 4) (l : List Byte) (ok : Bool) (s : State),
    ((prtGet s p).up = false ∨ domOn s 2 = false ∨ lb s 0x40000118 6 = true →
      exec (.rxFrame p l ok) s = .next (placed s s)) ∧
    ((prtGet s p).up = true → domOn s 2 = true → lb s 0x40000118 6 = false →
      let s0 := srvUp (8 + p) 0 1 (srvUp (8 + p) 1 (l.length + 4) (prtCnt p 0 s))
      let s1 := if ok then s0 else prtCnt p 1 s0
      (2172 < l.length →
        let v := prtEvent p 4 (prtCnt p 3 s0)
        (fType l = swxType v → eorelOk l (fOff l) = false →
          exec (.rxFrame p l ok) s = .next (placed s (hdrError p (fOff l) l v))) ∧
        (fType l = swxType v → eorelOk l (fOff l) = true →
          exec (.rxFrame p l ok) s = .next (placed s (if eKind l (fOff l) = 0 then rxAudioFrame p (fOff l) l false v else v))) ∧
        (∀ x, fType l ≠ swxType v → ptpOff l = none → isUdp4 l = true → flowMatch67 v (ipDst l) (udpDport l) p = some x →
          exec (.rxFrame p l ok) s = .next (placed s (rxRtp p x l false v))) ∧
        (fType l ≠ swxType v →
          (ptpOff l).isSome = true ∨ isUdp4 l = false ∨ flowMatch67 v (ipDst l) (udpDport l) p = none →
          exec (.rxFrame p l ok) s = .next (placed s v))) ∧
      (l.length ≤ 2172 →
        (fType l = 0x8808 → exec (.rxFrame p l ok) s = .next (placed s (if ok then rxMacCtl p l s1 else s1))) ∧
        (fType l ≠ 0x8808 → fType l = swxType s1 → eorelOk l (fOff l) = false →
          exec (.rxFrame p l ok) s = .next (placed s (hdrError p (fOff l) l s1))) ∧
        (fType l ≠ 0x8808 → fType l = swxType s1 → eorelOk l (fOff l) = true → eKind l (fOff l) = 0 →
          flowMatch s1 (eFlow l (fOff l)) p = none →
          exec (.rxFrame p l ok) s = .next (placed s (pairSync (srvUp 12 3 1 (evOr 0x400C0018 1 (swxCnt 0 s1)))))) ∧
        (∀ x, fType l ≠ 0x8808 → fType l = swxType s1 → eorelOk l (fOff l) = true → eKind l (fOff l) = 0 →
          flowMatch s1 (eFlow l (fOff l)) p = some x →
          let u := fwdAudio p x (fOff l) l (!ok || !eorelLenOk l (fOff l)) (flowPut x { flowGet s1 x with last := some s1.grat.cycle } s1)
          exec (.rxFrame p l ok) s = .next (placed s
            (pairSync (if ok = true ∧ flowSink s1 x = true then sinkAudio x (fOff l) l u else u)))) ∧
        (fType l ≠ 0x8808 → fType l = swxType s1 → eorelOk l (fOff l) = true → eKind l (fOff l) ≠ 0 →
          exec (.rxFrame p l ok) s = .next (placed s (pairSync (if ok then rxEorel p (fOff l) l true s1 else s1)))) ∧
        (∀ o, fType l ≠ 0x8808 → fType l ≠ swxType s1 → ptpOff l = some o →
          exec (.rxFrame p l ok) s = .next (placed s (if ok then rxPtp p o l s1 else s1))) ∧
        (∀ x, fType l ≠ 0x8808 → fType l ≠ swxType s1 → ptpOff l = none → isUdp4 l = true →
          flowMatch67 s1 (ipDst l) (udpDport l) p = some x →
          exec (.rxFrame p l ok) s = .next (placed s (rxRtp p x l ok s1))) ∧
        (fType l ≠ 0x8808 → fType l ≠ swxType s1 → ptpOff l = none →
          isUdp4 l = false ∨ flowMatch67 s1 (ipDst l) (udpDport l) p = none →
          exec (.rxFrame p l ok) s = .next (placed s (if ok then rxBestEffort p l s1 else s1)))))) ∧
  (∀ (p : Fin 4) (s : State),
    let x := prtGet s p
    let r := ringRegs p
    let a := ringAddr s r x.txHead
    (ringSize s r = 0 ∨ x.txHead = lf s (r + 8) 0 10 ∨ x.txDesc.isSome = true →
      exec (.txDescriptor (p.castLE (by decide))) s = .next (placed s s)) ∧
    (ringSize s r ≠ 0 → x.txHead ≠ lf s (r + 8) 0 10 → x.txDesc = none → dmaOk s a 32 true = true →
      bit (wd (mWord s (a + 4))) 31 = true →
      (∀ c l, descFrames s a (lb s (prtBase p + 0x400) 0) = .ok (c, l) →
        exec (.txDescriptor (p.castLE (by decide))) s = .next (placed s
          (if x.up then
            foldS l (fun f t => txOwn p (if c = 1 then 1 else 2) f t) (prtPut p { x with txDesc := some (0, l.length) } s)
          else prtPut p { x with txDesc := some (0, 0) } s))) ∧
      (∀ e bad, descFrames s a (lb s (prtBase p + 0x400) 0) = .error (e, bad) →
        exec (.txDescriptor (p.castLE (by decide))) s = .next (placed s
          (if e = 4 then dmaErr bad false (prtPut p { x with txDesc := some (e, 0) } s)
          else prtPut p { x with txDesc := some (e, 0) } s))))) ∧
  (∀ (p : Fin 4) (res : Nat) (s : State), (prtGet s p).txDesc = some (res, 0) → (prtGet s p).cur = none →
    let r := ringRegs p
    let h := (prtGet s p).txHead
    let a := ringAddr s r h
    let s2 := if dmaOk s a 32 true then
        mStoreW (a + 4) (mWord s (a + 4) % 2 ^ 31) (mStoreW (a + 16) (res * 2 ^ 24 + mWord s (a + 16) % 2 ^ 24) s)
      else s
    exec (.txDescriptorComplete (p.castLE (by decide))) s = .next (placed s
      (prtEvent p 6 (prtPut p { prtGet s2 p with txDesc := none, txHead := (h + 1) % max 1 (ringSize s r) } s2)))) ∧
  (∀ (m : Master) (p : Fin 4) (v : Word) (s : State), writes s m (adjBase p + 0x14) = true →
    exec (.floodArm m p v) s = .next (placed s
      (setLv (adjBase p + 0x14) (wd (min 16 (fld v 0 5))) (counted s))))

/-- The topology commands (R317, R320, R323, R326). -/
def Obligations.TopologyCommands : Prop :=
  (∀ (p : Fin 4) (l : List Byte) (s : State), (prtGet s p).up = true → lb s 0x400D0000 0 = true →
    eorelOk l (fOff l) = true → eKind l (fOff l) = 1 → fType l = swxType s →
    let o := fOff l
    let s0 := srvUp 13 1 1 (evOr 0x400D001C 8 (ctrUp (adjBase p + 0x18) 16 16 s))
    let s1 := if blockSafe s 13 then s0 else adjHello p o l s0
    let s2 := rxDeliver p 1 none l s1
    let t := if policyOn s2 ∧ dbSize s2 ≠ 0 then policyUpdate (foldS (helloRecs s2 o l) (fun r t => dbAccept p r t) s2) else s2
    exec (.helloReceived p l) s = .next (placed s
      (pairSync (if (adjGet s p).st = 2 ∧ (adjGet t p).st ≠ 2 then adjLeft p t else t)))) ∧
  (∀ (p : Fin 4) (o : Nat) (l : List Byte) (s : State),
    let a := adjGet s p
    let w := fN l (o + 18) 2
    let n : AdjSt := {
      st := 1, nuid := fN l (o + 8) 8, nport := fB l (o + 17) % 4, npair := nbit (fB l (o + 17)) 5, naddr := w % 16384,
      navalid := nbit w 15, nkey := fN l (o + 20) 4, heard := s.grat.cycle }
    let same := nbit (fB l (o + 17)) 7 = lb s 0x40070000 0
    let seen := nbit (fB l (o + 17)) 6
    let chg := fun u : State => evOr 0x400D001C 1 u
    (¬ same → adjHello p o l s =
      raise 0x0D12 1 p 0 (evOr 0x400D001C 2 (adjPut p { a with st := 3, heard := s.grat.cycle } s))) ∧
    (same → a.st = 0 ∨ a.st = 3 → adjHello p o l s = adjPut p n s) ∧
    (same → a.st = 1 → n.nuid = a.nuid → seen = false → adjHello p o l s = adjPut p n s) ∧
    (same → a.st = 1 → n.nuid = a.nuid → seen = true →
      adjHello p o l s = adjBecameUp p (raise 0x0D10 0 p 0 (chg (adjPut p { n with st := 2 } s)))) ∧
    (same → a.st = 1 → n.nuid ≠ a.nuid → adjHello p o l s = chg (adjPut p n s)) ∧
    (same → a.st = 2 → n.nuid = a.nuid → seen = true → adjHello p o l s = adjPut p { n with st := 2 } s) ∧
    (same → a.st = 2 → n.nuid ≠ a.nuid ∨ seen = false → adjHello p o l s = raise 0x0D11 1 p 0 (chg (adjPut p n s)))) ∧
  (∀ (p : Fin 4) (s : State), (adjGet s p).st ≠ 0 → blockSafe s 13 = false →
    (adjGet s p).heard + lf s 0x400D0000 16 8 * helloCy s ≤ s.grat.cycle →
    let a := adjGet s p
    let s1 := adjPut p { a with st := 0 } s
    let t := ctrUp (adjBase p + 0x1C) 0 16 (whenS (a.st == 2) (raise 0x0D11 1 p 0) (evOr 0x400D001C 1 s1))
    let u := { t with gaz.flood := tset [] t.gaz.flood p [] }
    exec (.adjacencyDead p) s = .next (placed s (pairSync (if a.st = 2 then adjLeft p u else u)))) ∧
  (∀ s : State, policyOn s = true → dbSize s ≠ 0 →
    exec .recordRefresh s = .next (placed s
      (foldS (s.gaz.db.filter (fun r => ownsRec s r && !r.stale && decide (polPar s 1 ≤ recAge s r))) (fun r t =>
        dbStore { r with seq := r.seq + 1, born := t.grat.cycle } none t) s))) ∧
  (∀ (typ : Fin 3) (key : BitVec 64) (r : DbRec) (s : State), dbFind s typ key.toNat = some r → policyOn s = true →
    (recAge s r < polPar s 2 → exec (.recordMaxage typ key) s = .next (placed s s)) ∧
    (polPar s 2 ≤ recAge s r →
      let db := s.gaz.db.filter (fun x => !(x.typ == typ.val && x.key == key.toNat))
      let db1 := if typ = 0 then db.map (fun x => if x.typ = 2 ∧ x.key = key.toNat then { x with gone := some s.grat.cycle } else x)
        else db
      let u := { s with gaz.db := db1 }
      let v := if r.typ = 0 ∧ r.valid = true then mStores (dbBase u + 2 * r.addr) [0xFF, 0xFF] u else u
      exec (.recordMaxage typ key) s = .next (placed s (policyUpdate (setLv 0x400D0018 (wd (dbNodes v).length) v))))) ∧
  (∀ (key : BitVec 64) (r : DbRec) (c : Nat) (s : State), dbFind s 2 key.toNat = some r → r.gone = some c →
    policyOn s = true → c + secCy s (polPar s 3) ≤ s.grat.cycle →
    exec (.bindHoldExpiry key) s = .next (placed s { s with
      gaz.db := s.gaz.db.map (fun x => if x.typ == 2 && x.key == key.toNat then { x with stale := true } else x) }))

/-- Reservations (R331 to R338). -/
def Obligations.ReservationCommands : Prop :=
  (∀ (p : Fin 4) (m : RsvMsg) (s : State), policyOn s = true → (prtGet s p).up = true →
    (m.idx < m.route.length →
      let q := getAt 0 (m.route.map (fun r => r.val)) m.idx
      (∀ e, admitHop s (some p.val) q m = .error e → exec (.reserve p m) s = .next (placed s
        (rsvSend p 3 { m with route := m.route.take (m.idx + 1), reason := e, idx := m.idx - 1 } s))) ∧
      (∀ h, admitHop s (some p.val) q m = .ok h → exec (.reserve p m) s = .next (placed s
        (rsvSend q 1 { m with idx := m.idx + 1, lat := h.d + 2 + cableWin s q }
          { s with gaz.rsv := s.gaz.rsv.filter (fun x => x.tag != h.tag) ++ [h] })))) ∧
    (m.idx = m.route.length →
      let own := lb s 0x400D0014 31 = true ∧ lf s 0x400D0014 0 14 = m.dstA
      let back := fun (e : Nat) (u : State) => rsvSend p 3 { m with reason := e, idx := m.idx - 1 } u
      let late := (m.l - 1) * 64 < m.lat + windowsFor s (prtMode s p) m.bytes
      (¬ own → exec (.reserve p m) s = .next (placed s (back 4 s))) ∧
      (own → late → exec (.reserve p m) s = .next (placed s (raise 0x0D24 1 255 0 (back 2 s)))) ∧
      (own → ¬ late → entryFor s m.flow p = none → freeEntry s = none →
        exec (.reserve p m) s = .next (placed s (back 3 s))) ∧
      (own → ¬ late → entryFor s m.flow p ≠ none ∨ freeEntry s ≠ none →
        let h : RsvHop := {
          tag := m.tag, flow := m.flow, arr := some p.val, lat := m.lat, bytes := m.bytes, per := max 1 m.per, phase := m.phase,
          path := m.path, move := m.move, l := m.l, srcA := m.srcA, dstA := m.dstA, held := false, sink := true,
          fwdC := some s.grat.nextCycle, since := s.grat.cycle, idx := m.idx, route := m.route.map (fun r => r.val) }
        exec (.reserve p m) s = .next (placed s (polCommit (entryWrite h (rsvPut h s))))))) ∧
  (∀ (p : Fin 4) (m : RsvMsg) (h : RsvHop) (s : State), policyOn s = true → (prtGet s p).up = true →
    rsvFind s m.tag = some h →
    (h.held = true → h.arr = none → exec (.confirm p m) s = .next (placed s (srcConfirm h s))) ∧
    (h.held = true → h.arr ≠ none → exec (.confirm p m) s = .next (placed s
      (polCommit (entryWrite h (rsvPut { h with held := false, fwdC := some s.grat.nextCycle } s))))) ∧
    (h.arr = none → exec (.refuse p m) s = .next (placed s (srcRefused h m.reason (failedLink s m) s))) ∧
    (∀ a, h.arr = some a → exec (.refuse p m) s = .next (placed s (rsvSend a 3 { m with idx := h.idx - 1 } (hopRemove h s)))) ∧
    (exec (.release p m) s = .next (placed s (if m.idx < m.route.length then
        rsvSend (getAt 0 (m.route.map (fun r => r.val)) m.idx) 4 { m with idx := m.idx + 1 } (hopRemove h s)
      else hopRemove h s))) ∧
    (h.arr = none → exec (.broken p m) s = .next (placed s (srcBroken h (failedLink s m) s))) ∧
    (∀ a, h.arr = some a → exec (.broken p m) s = .next (placed s (rsvSend a 5 { m with idx := h.idx - 1 } s)))) ∧
  (∀ (tag : BitVec 32) (h : RsvHop) (s : State), rsvFind s tag.toNat = some h → policyOn s = true → h.held = true →
    h.since + msCy s (polPar s 4) ≤ s.grat.cycle →
    exec (.rsvHoldExpiry tag) s = .next (placed s (if h.arr = none then srcRefused h 0 [] s else hopRemove h s))) ∧
  (∀ (x : Fin 4096) (c : Nat) (s : State), policyOn s = true → nbit (flowW s x 0) 31 = true → flowSrc s x = false →
    (flowGet s x).last = some c → msCy s (polPar s 5) < s.grat.cycle - c →
    exec (.flowIdleExpiry x) s = .next (placed s (polCommit (setShF x 0 (shF s x 0 % 2 ^ 31)
      { s with
        gaz.rsv := s.gaz.rsv.filter (fun h =>
          !(h.flow == flowId s x && !h.held && h.arr.elim false (fun p => nbit (flowIn s x) p))) })))) ∧
  (∀ (flow : BitVec 20) (f : SrcFlow) (o : Nat) (h : RsvHop) (s : State), policyOn s = true →
    s.gaz.srcs.filter (fun f => f.flow == flow.toNat) = [f] → f.oldTag = some o → rsvFind s o = some h →
    f.moveAt + polPar s 6 ≤ s.grat.cycle →
    exec (.moveOverlapExpiry flow) s = .next (placed s (srcPut { f with oldTag := none }
      (rsvSend h.q 4 { hopMsg h with idx := 1 } (hopRemove h s))))) ∧
  (∀ (flow : BitVec 20) (f : SrcFlow) (m : RsvMsg) (s : State), policyOn s = true →
    s.gaz.srcs.filter (fun f => f.flow == flow.toNat) = [f] → f.msg = some m → f.degraded = true → f.pend = none →
    f.retryAt ≤ s.grat.cycle →
    exec (.retryExpiry flow) s = .next (placed s (srcReserve m [] s)))

/-- The lease (R345, R353 to R359, R364). -/
def Obligations.LeaseCommands : Prop :=
  (∀ (m : LeaseMsg) (s : State), pairEn s = true → m.uid.toNat ≠ peerUid s →
    let u := ctrUp (pairB + 0x50) 0 8 s
    exec (.leaseRenew m) s = .next (placed s u) ∧ exec (.leaseAck m) s = .next (placed s u) ∧
    exec (.leaseRelinquish m) s = .next (placed s u) ∧ exec (.leaseHandover m) s = .next (placed s u) ∧
    exec (.handoverAck m) s = .next (placed s u) ∧ exec (.leaseClaimed m) s = .next (placed s u)) ∧
  (∀ (m : LeaseMsg) (s : State), pairEn s = true → m.uid.toNat = peerUid s →
    let told := fun (r : Nat) (u : State) =>
      let bad := s.pair.peer && r == 2
      { u with
        pair.svbPath := m.svb, pair.peerRole := r,
        pair.stuckAt := if bad then (if s.pair.stuckAt.isSome then s.pair.stuckAt else some s.grat.cycle) else none,
        pair.stuckErr := bad && s.pair.stuckErr }
    let k := m.cyc.toNat
    (s.pair.role = 2 → m.svb = false → exec (.leaseRenew m) s = .next (placed s
      (srvUp 15 3 1 (leaseSend 2 k { told 1 s with
        pair.bar := false, pair.dl := some (lcOfCycle s (k + leaseCy s)), pair.relinq := false })))) ∧
    (s.pair.role = 2 → m.svb = true → exec (.leaseRenew m) s = .next (placed s
      { told 1 s with pair.bar := false, svb.ackCyc := some k })) ∧
    (s.pair.role ≠ 2 → exec (.leaseRenew m) s = .next (placed s (formResolve { told 1 s with pair.bar := false }))) ∧
    (s.pair.role = 1 → exec (.leaseAck m) s = .next (placed s
      (if m.svb then { told 2 s with pair.acked := true, pair.dwSvb := some (lcOfCycle s (k + svbLeaseCy s)) }
      else { told 2 s with pair.acked := true, pair.dw := some (lcOfCycle s (k + leaseCy s)) }))) ∧
    (s.pair.role ≠ 1 → exec (.leaseAck m) s = .next (placed s (told 2 s))) ∧
    exec (.leaseRelinquish m) s = .next (placed s
      (if s.pair.role = 2 then { told 2 s with pair.relinq := true } else told 2 s)) ∧
    exec (.leaseHandover m) s = .next (placed s (if s.pair.role = 2 ∧ s.pair.step = 2 then
        leaseSend 5 k { s with pair.svbPath := m.svb, pair.handW := some k }
      else { s with pair.svbPath := m.svb })) ∧
    exec (.handoverAck m) s = .next (placed s (if s.pair.role = 1 ∧ s.pair.swb = some k then
        { s with pair.svbPath := m.svb, pair.swbAck := true }
      else { s with pair.svbPath := m.svb })) ∧
    exec (.leaseClaimed m) s = .next (placed s (formResolve (told 1 s)))) ∧
  (∀ (e : Nat) (s : State), leaseEnd s = some e → s.pair.role = 1 → s.pair.acked = true →
    let t := dropOwn (atLc e s)
    let ft := ftOf t.time.offset t.time.rate e 0 + ceilDiv ((leaseCy t + 2 * guardCy t) * secU) (famF t)
    exec .leaseExpiry s = .next (placed s (raise 0x0F23 1 255 0
      (toRole 2 { t with pair.bar := true, pair.barAt := lcForFt t ft })))) ∧
  (∀ (lc : Nat) (s : State), pairEn s = true → s.pair.role = 2 → s.flt.safe = false → s.pair.peer = false →
    claimFrom s = some lc →
    let t := max s.time.lc (max lc (s.pair.peerAt + selGap s))
    exec .claim s = .next (placed s (claimNow (atFt (windowAfter s (ftOf s.time.offset s.time.rate t 0)) s)))) ∧
  (∀ s : State,
    let hand := s.pair.handW.elim false (fun w => decide (w ≤ s.grat.cycle))
    let s1 := toRole 1 s
    let s2 := evOr (pairB + 0x44) 0x20 { s1 with
      pair.own := true, pair.bar := false, pair.relinq := false, pair.handW := none, pair.acked := false, pair.dl := none,
      pair.claimDue := false, pair.bothAt := if s1.pair.peer then some s1.time.lc else none }
    let s3 := leaseSend 1 s2.grat.cycle (leaseSend 6 s2.grat.cycle s2)
    let s4 := if s.pair.bar then raise 0x0F31 2 255 0 s3 else if hand then raise 0x0F13 0 255 0 s3 else raise 0x0F22 1 255 0 s3
    claimNow s = if s4.pair.step ≠ 2 ∧ hand = false then raise 0x0F27 1 255 0 s4 else s4) ∧
  (∀ s : State, pairEn s = true → s.pair.role = 3 → s.pair.link = false → s.pair.peerRose = false → s.pair.peer = false →
    s.flt.safe = false →
    s.pair.formAt + (if pairSide s then leaseCy s + 3 * guardCy s + 1 else leaseCy s + guardCy s) ≤ s.grat.cycle →
    exec .formingTimeout s = .next (placed s { claimNow s with pair.step := 5 })) ∧
  (∀ (t : Nat) (s : State), s.pair.bothAt = some t → s.pair.own = true → s.pair.peer = true →
    s.pair.overlapped = false → pairEn s = true →
    let u := evOr (pairB + 0x44) 0x400 { atLc (t + selGap s + 1) s with pair.overlapped := true }
    exec .overlap s = .next (placed s (if s.pair.acked then raise 0x0F32 2 255 0 u else raise 0x0F40 3 255 0 u))) ∧
  (∀ s : State,
    exec (.peerOwnChange s.pair.peer) s = .next (placed s s) ∧
    (s.pair.peer = true → exec (.peerOwnChange false) s = .next (placed s { s with
      pair.peer := false, pair.peerAt := s.time.lc, pair.bothAt := none, pair.overlapped := false, pair.stuckAt := none,
      pair.stuckErr := false })) ∧
    (s.pair.peer = false → exec (.peerOwnChange true) s = .next (placed s (formResolve (peerSays s.pair.peerRole { s with
      pair.peer := true, pair.peerAt := s.time.lc, pair.peerRose := true, pair.bar := false,
      pair.bothAt := if s.pair.own then some s.time.lc else none }))))) ∧
  (∀ (c : Nat) (s : State), s.pair.stuckAt = some c → pairEn s = true → s.pair.peer = true → s.pair.stuckErr = false →
    c + leaseCy s ≤ s.grat.cycle →
    exec .peerOwnStuck s = .next (placed s (raise 0x0F34 2 255 0 { s with pair.stuckErr := true })))

/-- The stream of a pair and its resync (R344, R348 to R350, R360 to R363). -/
def Obligations.PairStreamCommands : Prop :=
  (∀ (c : BitVec 48) (d : BitVec 64) (n : Word) (s : State), pairEn s = true → s.pair.link = true →
    (s.grat.cycle ≤ c.toNat + 2 → exec (.digest c d n) s = .next (placed s
      { s with pair.theirs := tset (0, 0) s.pair.theirs c.toNat (d.toNat + 1, n.toNat) })) ∧
    (c.toNat + 2 < s.grat.cycle → exec (.digest c d n) s = .next (placed s s))) ∧
  (∀ (c : BitVec 48) (l : List MirrorEntry) (s : State), pairEn s = true → s.pair.link = true →
    exec (.mirror c l) s = .next (placed s (foldS l (mirrorIn c.toNat) s))) ∧
  (∀ (c : Nat) (e : MirrorEntry) (s : State), e.slip = 0 →
    let slots := (slotsOn s).filter (fun i => slotKind s i == 5 && lf s (slotBase i + 4) 0 12 == e.slot.val && lb s (slotBase i) 31)
    let row := fun j : Nat => (List.range e.nch).map (fun ch => (getAt 0 e.samples (j * e.nch + ch)).toInt)
    (e.conceal = true → mirrorIn c e s = s) ∧
    (e.conceal = false → mirrorIn c e s = foldS slots (fun i t =>
      arriveCycle i (c + slotL t i) (slotS t i) e.nch ((List.range (slotS t i)).map row) 0 0 t) s)) ∧
  (∀ (c : BitVec 48) (rows : List SenseIn) (s : State), streamRemote s = true →
    exec (.sense c rows) s = .next (placed s { s with
      out.senseStr := tset [] s.out.senseStr c.toNat
        (rows.map (fun r => { ch := r.ch.val, v := r.v.map (fun w => w.toInt), i := r.i.map (fun w => w.toInt) })) })) ∧
  (∀ (c : BitVec 48) (mask : Word) (s : State), streamRemote s = true →
    exec (.tripRecord c mask) s = .next (placed s (squallCount (bitsOf 32 mask.toNat)
      { s with out.tripStr := tset 0 s.out.tripStr c.toNat (tget 0 s.out.tripStr c.toNat ||| mask.toNat) }))) ∧
  (∀ (tag : BitVec 16) (role : Fin 4) (own side : Bool) (s : State), pairEn s = true → (adjGet s 3).st = 2 →
    (adjGet s 3).nuid = peerUid s →
    (tag.toNat = lf s pairB 8 16 ∧ side ≠ pairSide s → exec (.form tag role own side) s = .next (placed s
      (pairSync (peerSays (if own then 1 else role) { s with pair.formOk := true })))) ∧
    (tag.toNat ≠ lf s pairB 8 16 ∨ side = pairSide s → exec (.form tag role own side) s = .next (placed s
      (pairSync { (if s.pair.mism then s else raise 0x0F33 2 255 0 s) with pair.mism := true, pair.formOk := false })))) ∧
  (∀ s : State, pairEn s = true → s.pair.link = true → s.pair.role = 1 →
    let k := cycleOfFt s (ftNow s + ceilDiv (8 * secU) (famF s) - 1) + 1
    exec .resyncReq s = .next (placed s
      (stateSend 5 k 0 0 [] (ftNow s) { s with pair.step := 4, pair.rphase := 2, pair.snapS := k }))) ∧
  (∀ (c : BitVec 48) (s : State), pairEn s = true → s.pair.link = true → s.pair.role = 2 → s.pair.rphase = 1 →
    exec (.resyncGo c) s = .next (placed s { s with
      pair.rphase := 2, pair.snapS := c.toNat, pair.log := [], pair.logBytes := 0, pair.caught := [] })) ∧
  (∀ (n : Word) (crc : BitVec 64) (b : BlockSnap) (s : State), pairEn s = true → s.pair.role = 2 → s.pair.rphase = 2 →
    let good := n.toNat = psTotal s ∧ crc64 (mBytes s (poolArea s (pairB + 0xC)).1 n.toNat) = crc.toNat
    (good → exec (.resyncDone n crc b) s = .next (placed s { s with pair.ready := some b })) ∧
    (¬ good → exec (.resyncDone n crc b) s = .next (placed s (resyncFail s)))) ∧
  (∀ s : State, pairEn s = true → s.pair.role = 1 → s.pair.rphase = 2 → s.pair.snapS ≤ s.grat.cycle →
    (∀ c < 4, (clGet s c).psnap = none) →
    let base := (poolArea s (pairB + 0xC)).1
    let n := s.pair.xferLen
    let segs := ceilDiv n 2048
    let s1 := srvUp 15 4 n (foldS (List.range segs) (fun i t =>
      txOwn 3 2 {
        bytes := eorelFrame t (linkDa t 3) { kind := 6, last := i + 1 == segs }
          (beBytes 4 t.pair.snapS ++ beBytes 4 (i * 2048) ++ List.replicate 16 0)
          (mBytes t (base + i * 2048) (min 2048 (n - i * 2048))), due := ftNow t } t) s)
    let s2 := stateSend 6 s1.pair.snapS (crc64 (mBytes s1 base n)) n [] (ftNow s1) { s1 with pair.rphase := 0 }
    exec .xferSent s = .next (placed s { s2 with pair.step := 1, pair.matchN := 0, pair.mis := 0 })) ∧
  (∀ s : State, s.pair.role = 2 → s.pair.rphase = 3 →
    exec .restoreComplete s = .next (placed s { s with pair.rphase := 4, pair.caught := [] })) ∧
  (∀ (c : Nat) (s : State), s.pair.retryAt = some c → pairEn s = true → s.pair.role = 2 → s.pair.step = 3 →
    lb s (pairB + 0x20) 2 = true → c ≤ s.grat.cycle →
    exec .resyncRetry s = .next (placed s (stateSend 4 s.grat.cycle 0 0 [] (ftNow s)
      { s with pair.step := 4, pair.rphase := 1, pair.ready := none, pair.retryAt := none })))

/-- The service bus (R368 to R376). -/
def Obligations.ServiceBusCommands : Prop :=
  (∀ s : State, s.svb.cur = none → svbEn s = true → svbAlarm s = true → s.svb.win = false →
    let ms := svbNextMs s
    let s1 := atFt (ms * 65536000000) s
    let s2 := { s1 with
      svb.win := true, svb.winNext := ms + 1, svb.winFt := ms * 65536000000, svb.guard := lf s (svbB + 8) 0 7 }
    let k := cycleOfFt s2 (ms * 65536000000)
    (svbBackup s = false ∨ svbPriv s = false → exec .alarmWindowOpen s = .next (placed s s2)) ∧
    (svbBackup s = true → svbPriv s = true →
      (s.svb.relinq = true → exec .alarmWindowOpen s = .next (placed s
        { s2 with svb.lease := some (svbLease s2 3 k), svb.relinq := false })) ∧
      (s.svb.relinq = false → s.pair.role = 1 → exec .alarmWindowOpen s = .next (placed s
        { s2 with svb.lease := some (svbLease s2 1 k) })) ∧
      (∀ c, s.svb.relinq = false → s.pair.role ≠ 1 → s.svb.ackCyc = some c →
        exec .alarmWindowOpen s = .next (placed s { s2 with svb.lease := some (svbLease s2 2 c), svb.ackCyc := none })))) ∧
  (∀ s : State, s.svb.win = true → s.svb.cur = none →
    let t := atFt (s.svb.winFt + 32 * 65536000) s
    exec .alarmWindowClose s = .next (placed s
      { (if (svbHeadPriv t).isSome ∧ s.svb.backoff = none then evOr (svbB + 0x14) 16 (ctrUp (svbB + 0x118) 0 32 t) else t) with
        svb.win := false, svb.lease := none })) ∧
  (∀ (f : SvbFrame) (s : State), s.svb.cur = none → svbEn s = true → s.svb.backoff = none → svbPick s = some f →
    (svbPlca s = false → exec .svbTxStart s = .next (placed s { s with svb.cur := some (f, s.time.lc + svbTicks f.bytes) })) ∧
    (svbPlca s = true → 0 < s.svb.burst → exec .svbTxStart s = .next (placed s
      { s with svb.burst := s.svb.burst - 1, svb.cur := some (f, s.time.lc + svbTicks f.bytes) }))) ∧
  (∀ s : State, s.svb.cur = none → svbEn s = true → svbPlca s = true →
    (∀ f, s.svb.frame = some f → exec .plcaTxOpportunity s = .next (placed s
      { s with svb.burst := lf s (svbB + 0xC) 8 8, svb.cur := some (f, s.time.lc + svbTicks f.bytes) })) ∧
    (s.svb.frame = none → exec .plcaTxOpportunity s = .next (placed s { s with svb.burst := 0 }))) ∧
  (∀ (f : SvbFrame) (e : Nat) (s : State), s.svb.cur = some (f, e) → s.time.lc < e →
    let n := s.svb.tries + 1
    let u := srvUp 14 2 1 (ctrUp (svbB + 0x10C) 0 32 { s with svb.cur := none, svb.tries := n })
    (16 ≤ n →
      let v := evOr (svbB + 0x14) 8 (ctrUp (svbB + 0x110) 0 32 { u with svb.tries := 0, svb.backoff := none })
      let w := if f.desc then { v with svb.desc := some 4, svb.frame := none } else { v with svb.lease := none }
      exec .svbCollision s = .next (placed s (if f.priv then raise 0x0E11 1 255 0 w else w))) ∧
    (n < 16 → ∃ d l : Nat,
      let wait := if f.priv then 6400 + d % 4 * 1600 else d % 2 ^ min n 10 * 25600
      exec .svbCollision s = .next (placed s { u with svb.backoff := some (s.time.lc + wait), svb.lfsr := l }))) ∧
  (∀ (t : Nat) (s : State), s.svb.backoff = some t →
    exec .svbBackoffExpiry s = .next (placed s { atLc t s with svb.backoff := none })) ∧
  (∀ (l : List Byte) (ok rev : Bool) (s : State), s.svb.cur = none → svbEn s = true →
    let s1 := srvUp 14 1 1 (ctrUp (svbB + 0x100) 0 32 { s with svb.polSeen := true })
    let s2 := if s.svb.polSeen = false ∧ rev = true then raise 0x0E10 0 255 0 (evOr (svbB + 0x14) 1 { s1 with svb.polRev := true }) else s1
    (ok = false → exec (.svbRxFrame l ok rev) s = .next (placed s (ctrUp (svbB + 0x104) 0 32 s2))) ∧
    (ok = true → fType l ≠ swxType s2 → exec (.svbRxFrame l ok rev) s = .next (placed s (svbDeliver l s2))) ∧
    (ok = true → fType l = swxType s2 → eKind l (fOff l) = 3 → eVer l (fOff l) = 1 → paired s2 = true →
      exec (.svbRxFrame l ok rev) s = .next (placed s (pairSync (pairLeaseIn (fOff l) l true s2))))) ∧
  (∀ s : State, svbEn s = true → svbMode s = 1 →
    (lf s (svbB + 0xC) 0 8 ≠ 0 → s.svb.plca = true →
      exec .beaconLost s = .next (placed s (evOr (svbB + 0x14) 32 { s with svb.plca := false, svb.fallback := true }))) ∧
    exec .beaconReceived s = .next (placed s { s with svb.plca := true, svb.fallback := false })) ∧
  (∀ s : State,
    let r := ringRegs 4
    let a := ringAddr s r s.svb.txHead
    let w1 := mWord s (a + 4)
    let len := nfld w1 0 17
    let priv := nbit w1 27 && svbPriv s
    svbEn s = true → ringSize s r ≠ 0 → s.svb.txHead ≠ lf s (r + 8) 0 10 → s.svb.desc = none → s.svb.frame = none →
    dmaOk s a 32 true = true → nbit w1 31 = true → nfld w1 28 3 = 0 → len ≠ 0 → len ≤ 1514 →
    ((lb s svbB 9 && !priv) = false ∨ (max 64 (len + 4) + 20) * 8 ≤ (968 - lf s (svbB + 8) 0 7) * 10) →
    dmaOk s (mWord s a) len false = true →
    exec (.txDescriptor 4) s = .next (placed s
      { s with svb.frame := some { bytes := fPad (mBytes s (mWord s a) len), priv := priv, desc := true }, svb.tries := 0 })) ∧
  (∀ (res : Nat) (s : State), s.svb.cur = none → s.svb.desc = some res →
    let a := ringAddr s (ringRegs 4) s.svb.txHead
    let u := if dmaOk s a 32 true then
        mStoreW (a + 4) (mWord s (a + 4) % 2 ^ 31) (mStoreW (a + 16) (res * 2 ^ 24 + mWord s (a + 16) % 2 ^ 24) s)
      else s
    exec (.txDescriptorComplete 4) s = .next (placed s (evOr (svbB + 0x14) 2
      { u with
        svb.desc := none, svb.frame := none, svb.txHead := (s.svb.txHead + 1) % max 1 (ringSize s (ringRegs 4)) })))

/-- Requests of the host link (R380 to R391). -/
def Obligations.HostRequestCommands : Prop :=
  (∀ (f : HostFrame) (s : State),
    ∀ e ∈ [(Instr.read f, 1, 0), (.write f, 2, 4 * f.len.toNat), (.readStatus f, 3, 0), (.enumerate f, 4, 0),
        (.whoCalls f, 5, 0), (.bootStream f, 6, 4 * f.len.toNat)],
      let t := srvUp 4 0 1 s
      let u := srvUp 4 3 1 (evOr 0x40040020 2 (ctrUp 0x40040028 24 8 t))
      (hostTakes s = false ∨ f.data.length ≠ e.2.2 → exec e.1 s = .next (placed s s)) ∧
      (hostTakes s = true → f.data.length = e.2.2 →
        (hostDev s f.dev.toNat = none → exec e.1 s = .next (placed s (hostQuiet t))) ∧
        (crc16 (frameBytes e.2.1 f) ≠ f.crc.toNat →
          (hostDev s f.dev.toNat = some false → exec e.1 s = .next (placed s (hostBusy 1 0x20 u))) ∧
          (hostDev s f.dev.toNat = some true → exec e.1 s = .next (placed s
            (if e.2.1 = 5 ∧ hostValid s = true then { hostBusy 5 0 u with host.who := some (hostAddr u, false) }
             else hostQuiet u)))))) ∧
  (∀ (f : HostFrame) (bc : Bool) (s : State), hostTakes s = true → hostDev s f.dev.toNat = some bc →
    let t := srvUp 4 0 1 s
    let bad := hostBusy 1 0x10 (ctrUp 0x40040028 16 8 t)
    let good := fun cmd : Nat => crc16 (frameBytes cmd f) = f.crc.toNat
    (good 1 → f.data = [] →
      exec (.read f) s = .next (placed s (if bc = true ∨ spanOk f = false ∨ s.boot.phase < 2 then bad else
        hostRun ((List.range f.len.toNat).map (fun i => (f.addr.toNat + 4 * i, none))) (hostBusy 2 0 t)))) ∧
    (good 2 → f.data.length = 4 * f.len.toNat →
      exec (.write f) s = .next (placed s
        (if bc = true ∧ hostValid s = false then hostQuiet t
         else if spanOk f = false ∨ s.boot.phase < 2 then (if bc then hostQuiet (ctrUp 0x40040028 16 8 t) else bad)
         else hostRun (((List.range (beWords f.data).length).zip (beWords f.data)).map
             (fun e => (f.addr.toNat + 4 * e.1, some e.2))) (hostBusy (if bc then 0 else 1) 0 t)))) ∧
    (good 3 → f.data = [] →
      exec (.readStatus f) s = .next (placed s (if bc = true ∨ f.addr ≠ 0 ∨ f.len ≠ 0 then bad else hostBusy 3 0 t))) ∧
    (good 4 → f.data = [] →
      exec (.enumerate f) s = .next (placed s
        (if bc = false then bad
         else if f.len ≠ 0 ∨ 64 ≤ f.addr.toNat then
           (if hostValid s = false ∧ s.host.enumIn = true then bad else hostQuiet (ctrUp 0x40040028 16 8 t))
         else if hostValid s = false ∧ s.host.enumIn = true then
           evOr 0x40040020 8 { hostBusy 4 0 (setLv 0x40040000 (wd (0x80000000 + f.addr.toNat)) t) with host.rise := true }
         else hostQuiet t))) ∧
    (good 5 → f.data = [] →
      exec (.whoCalls f) s = .next (placed s
        (if bc = false ∨ f.addr ≠ 0 ∨ f.len ≠ 0 then
           (if hostValid s then bad else hostQuiet (ctrUp 0x40040028 16 8 t))
         else if hostValid s then { hostBusy 5 0 t with host.who := some (hostAddr s, hostAtn t) }
         else hostQuiet t))) ∧
    (good 6 → f.data.length = 4 * f.len.toNat →
      let off := f.addr.toNat % 2 ^ 31
      let u := { hostBusy 1 0 t with boot.stream := s.boot.stream ++ f.data }
      exec (.bootStream f) s = .next (placed s
        (if bc = true ∨ s.boot.wait = false ∨ f.len.toNat = 0 ∨ 1024 < f.len.toNat ∨ off ≠ s.boot.stream.length ∨
             0x2000000 < off + 4 * f.len.toNat then bad
         else if nbit f.addr.toNat 31 then streamTry u else u)))) ∧
  (∀ (x : Nat × Option Word) (l : List (Nat × Option Word)) (s : State),
    hostRun [] s = { s with host.todo := [] } ∧
    (hostHeld s = true → hostRun (x :: l) s = { s with host.todo := x :: l }) ∧
    (hostHeld s = false → hostRun (x :: l) s = hostRun l (hostAccess x s))) ∧
  (∀ (a : Nat) (v : Word) (s : State),
    hostAccess (a, some v) s = srvUp 4 2 1 (busWrite .host a .word v.toNat s) ∧
    (hostHeld (srvUp 4 1 1 (busRead .host a .word s).2) = false →
      (hostAccess (a, none) s).host.data = (busRead .host a .word s).2.host.data ++ [wd (busRead .host a .word s).1]))

/-- Transactions of the host link (R384 to R394, R407, R408). -/
def Obligations.HostTransactionCommands : Prop :=
  (∀ s : State, let x := s.host
    (x.low = true → exec .transactionStart s = .next (placed s s)) ∧
    (x.low = false → exec .transactionStart s = .next (placed s { s with host := { x with
      low := true, deaf := !hostUp s, phase := if hostUp s then 0 else 3, form := 0, err := 0, resp := [], who := none } })) ∧
    (let rise := fun u : State => { u with host := { u.host with
        low := false, deaf := false, phase := 3, form := 0, resp := [], who := none,
        enumOut := u.host.enumOut || u.host.rise, rise := false } }
     (x.low = true → x.deaf = true ∨ x.phase = 2 ∨ x.phase = 3 → exec .transactionEnd s = .next (placed s (rise s))) ∧
     (x.low = true → x.deaf = false → x.phase ≠ 3 → exec .transactionAbort s = .next (placed s
       (rise (if x.phase = 0 then evOr 0x40040020 4 (ctrUp 0x40040028 8 8 s) else s)))))) ∧
  (∀ (us : Nat) (s : State), s.host.phase = 1 → s.host.todo = [] → hostHeld s = false →
    let t := srvUp 4 4 us (atLc (s.time.lc + us * 500) s)
    exec (.hostExecDone us) s = .next (placed s
      (if s.host.form = 0 then { t with host.phase := 3 } else { t with host.phase := 2, host.resp := hostReply t }))) ∧
  (∀ s : State,
    let st := BitVec.ofNat 8 (0x80 + bitAt 6 (hostAtn s) + s.host.err + bitAt 3 s.boot.wait + bitAt 2 (isSealed s))
    (s.host.form = 1 → hostReply s = withCrc [st]) ∧
    (s.host.form = 2 → hostReply s = withCrc (st :: s.host.data.flatMap (fun w => beBytes 4 w.toNat))) ∧
    (s.host.form = 3 → hostReply s = withCrc (st :: beBytes 8 (ownUid s) ++ beBytes 4 (regVal s 0x4004000C).toNat
      ++ beBytes 4 (regVal s 0x40070010).toNat)) ∧
    (s.host.form = 4 → hostReply s = withCrc (st :: beBytes 8 (ownUid s)))) ∧
  (∀ (level : Bool) (s : State), exec (.enumInChange level) s = .next (placed s
    { s with host.enumIn := level, host.enumOut := if lb s 0x40040000 30 then level else s.host.enumOut })) ∧
  (∀ s : State,
    let fall := { s with host.low := true, host.deaf := true, host.phase := 3 }
    (s.pwr.sleep = 0 ∨ s.host.low = true → exec .wakeHcsN s = .next (placed s s)) ∧
    (s.pwr.sleep ≠ 0 → s.host.low = false → nbit s.pwr.wakeCfg 0 = false → exec .wakeHcsN s = .next (placed s fall)) ∧
    (s.pwr.sleep = 1 → s.host.low = false → nbit s.pwr.wakeCfg 0 = true → exec .wakeHcsN s = .next (placed s
      (srvUp 32 0 1 (domTarget 0 3 0 { fall with pwr.sleep := 0, pwr.wakeSrc := 1 })))) ∧
    (1 < s.pwr.sleep → s.host.low = false → nbit s.pwr.wakeCfg 0 = true → exec .wakeHcsN s = .next (placed s
      (coldReset 64 { fall with pwr.wakeSrc := 1 })))) ∧
  (∀ (m : Master) (s : State), writes s m 0x40040008 = true → exec (.forget m) s = .next (placed s
    (if lb s 0x40040000 31 = true ∧ lb s 0x40040000 30 = false then
      { setLv 0x40040000 0 (counted s) with host.enumOut := false, host.rise := false } else counted s))) ∧
  (∀ (m : Master) (s : State), writes s m 0x40040014 = true → exec (.atnSetSup m) s = .next (placed s
    (evOr 0x4004000C 8 (counted s)))) ∧
  (∀ (m : Master) (v : Word) (s : State),
    let put := fun a : Nat => { setLv a v (counted s) with hub.liveBad := dropFrom a s.hub.liveBad }
    (writes s m 0x40040018 = true → exec (.msgOut m v) s = .next (placed s (evOr 0x4004000C 2 (put 0x40040018)))) ∧
    (writes s m 0x4004001C = true → exec (.msgIn m v) s = .next (placed s (evOr 0x40040020 1 (put 0x4004001C)))))

/-- The power domains and the Gust limiter (R398 to R406). -/
def Obligations.PowerDomainCommands : Prop :=
  (∀ s : State,
    let s1 := atLc (ceilDiv s.time.lc 500 * 500) s
    let u := if s.pwr.paused then s1 else gustRun 15 s1
    exec .gustAdmit s = .next (placed s (if u.pwr.queue = [] then u else evOr 0x401D0004 2 u))) ∧
  (∀ (n : Nat) (d : Nat) (rest : List Nat) (s : State),
    (s.pwr.queue = [] → gustRun (n + 1) s = s) ∧
    (s.pwr.queue = d :: rest →
      let r := domRamp s d
      let x := domGet s d
      let w := min 65535 ((s.time.lc - x.reqLc) / 500)
      let s1 := domPut d { x with st := 5, ramp := r, endLc := s.time.lc + upTicks d x.held } { s with pwr.queue := rest }
      let s2 := srvUp 29 1 w (srvUp 29 0 1
        (setLv (domReg d + 0xC) (wd (w * 65536 + max (lf s (domReg d + 0xC) 0 16) w)) s1))
      (rampUsed s + r ≤ rampBudget s → gustRun (n + 1) s = gustRun n s2) ∧
      (rampBudget s < rampUsed s + r → rampUsed s ≠ 0 ∨ r ≤ rampBudget s → gustRun (n + 1) s = s) ∧
      (rampBudget s < r → rampUsed s = 0 → gustRun (n + 1) s = gustRun n (raise 0x1D11 1 255 0 s2)))) ∧
  (∀ (d : Fin 15) (s : State), (domGet s d).st = 5 →
    let x := domGet s d
    let u := domPut d { x with
      st := x.goal, held := x.goal, next := none, ramp := 0, cold := x.cold || x.held == 0 } (atLc x.endLc s)
    exec (.domainUp d) s = .next (placed s (x.next.elim u (fun t => domTarget d t 0 u)))) ∧
  (∀ (d : Fin 15) (s : State), (domGet s d).st = 6 →
    let x := domGet s d
    let s1 := domPut d { x with st := x.goal, held := x.goal, next := none } (atLc x.endLc s)
    let u := if x.goal = 0 then domLose d (domPut d { domGet s1 d with cold := false } s1) else s1
    exec (.domainDown d) s = .next (placed s (x.next.elim u (fun t => domTarget d t 0 u)))) ∧
  (∀ (v : BitVec 16) (s : State),
    let u := setLv 0x401D0018 (wd (min (lf s 0x401D0018 0 16) (min 65535 v.toNat))) { s with pwr.vsys := v.toNat }
    (v.toNat * 100 < 92 * s.pwr.vsysBoot → exec (.droop v) s = .next (placed s
      (srvUp 29 2 (b2n (!s.pwr.paused)) (evOr 0x401D0004 1
        { u with pwr.paused := true, pwr.okSince := some s.time.lc })))) ∧
    (92 * s.pwr.vsysBoot ≤ v.toNat * 100 → exec (.droop v) s = .next (placed s u)) ∧
    (s.pwr.paused = true → 92 * s.pwr.vsysBoot ≤ v.toNat * 100 →
      let t := atLc (s.pwr.okSince.getD s.time.lc + 50000) u
      exec (.droopRecovery v) s = .next (placed s { t with pwr.paused := false, pwr.okSince := none })))

/-- Sleep, waking and throttling (R407 to R412). -/
def Obligations.SleepAndThermalCommands : Prop :=
  (∀ (m : Master) (s : State), writes s m 0x401D0030 = true →
    let out := outInUse s = true ∨ lb s 0x400F0020 31 = true
    (exec (.listen m) s = .next (placed s
      (if out ∨ (lf s 0x401D0180 4 2 = 1 ∧ lineRuns s = true) then evOr 0x401D0004 16 (counted s)
       else { counted s with pwr.sleepReq := 1 }))) ∧
    (exec (.standby m) s = .next (placed s
      (if out then evOr 0x401D0004 16 (counted s) else { counted s with pwr.sleepReq := 2 })))) ∧
  (∀ (p : Fin 4) (l : List Byte) (ok : Bool) (s : State),
    (s.pwr.sleep = 1 → p.val = lf s 0x401D0034 4 2 → (prtGet s p).up = true → nbit s.pwr.wakeCfg 3 = true → ok = true →
      fType l = swxType s → wakeDa s (fDa l) = true → exec (.wakeFrame p l ok) s = .next (placed s
        (srvUp 32 0 1 (domTarget 0 3 0 { s with pwr.sleep := 0, pwr.wakeSrc := 8 })))) ∧
    (s.pwr.sleep ≠ 1 ∨ p.val ≠ lf s 0x401D0034 4 2 ∨ ok = false ∨ nbit s.pwr.wakeCfg 3 = false →
      exec (.wakeFrame p l ok) s = .next (placed s s))) ∧
  (∀ s : State,
    let woken := fun (cause : Nat) (u : State) =>
      if s.pwr.sleep = 1 then srvUp 32 0 1 (domTarget 0 3 0 { u with pwr.sleep := 0, pwr.wakeSrc := cause })
      else coldReset 64 { u with pwr.wakeSrc := cause }
    (s.pwr.sleep = 0 ∨ nbit s.pwr.wakeCfg 1 = false → exec .wakeSyncStart s = .next (placed s s)) ∧
    (s.pwr.sleep ≠ 0 → nbit s.pwr.wakeCfg 1 = true → exec .wakeSyncStart s = .next (placed s (woken 2 s))) ∧
    (s.pwr.sleep ≠ 0 → s.pwr.alarm ≠ 0 → nbit s.pwr.wakeCfg 2 = true → exec .sleepAlarm s = .next (placed s
      (woken 4 (atLc (s.pwr.sleepLc + s.pwr.alarm * 500000000 / 1024) s)))) ∧
    (s.pwr.sleep = 0 ∨ s.pwr.alarm = 0 → exec .sleepAlarm s = .next (placed s s))) ∧
  (∀ (temp : BitVec 16) (s0 : State),
    let s := atLc ((s0.time.lc / 500000 + 1) * 500000) s0
    let hot : State → State := fun u => { u with
      pwr.temp := temp.toInt, pwr.hot150 := decide (1500 ≤ temp.toInt),
      pwr.hotSince := if 1550 ≤ temp.toInt then (s.pwr.hotSince.orElse (fun _ => some s.time.lc)) else none,
      pwr.throttled := s.pwr.throttled && decide (thBase s < s.pwr.nextStep) }
    let t := srvUp 29 3 (b2n (decide (thBase (hot s) < s.pwr.step))) (hot s)
    (temp.toInt < 1500 → exec (.thermalSample temp) s0 = .next (placed s0 t)) ∧
    (1500 ≤ temp.toInt → exec (.thermalSample temp) s0 = .next (placed s0
      (stepTo 3 (if s.pwr.hot150 then t else raise 0x1D13 2 255 0 t))))) ∧
  (∀ s : State, let n := s.pwr.nextStep
    (1400 ≤ s.pwr.temp → n < 3 →
      let t := atLc (s.pwr.stepLc + 5000000) s
      exec .throttleStep s = .next (placed s
        (stepTo (n + 1) { (if s.pwr.throttled then t else raise 0x1D12 1 255 0 t) with pwr.throttled := true }))) ∧
    (s.pwr.temp ≤ 1350 → thBase s < n →
      exec .throttleStep s = .next (placed s (stepTo (n - 1) (atLc (s.pwr.stepLc + 50000000) s)))) ∧
    (1350 < s.pwr.temp → s.pwr.temp < 1400 → exec .throttleStep s = .next (placed s s))) ∧
  (∀ (n : Nat) (s : State), stepTo n s =
    if n = s.pwr.nextStep then s else evOr 0x401D0004 4 { s with pwr.nextStep := n, pwr.stepLc := s.time.lc }) ∧
  (∀ (t : Nat) (s : State), s.pwr.hotSince = some t → exec .thermalFatal s = .next (placed s
    (raise 0x1D14 3 255 0 { atLc (t + 500000) s with pwr.hotSince := none })))

/-- Resets (R110, R392, R395, R396, R408, R414, R435, R450, R451). -/
def Obligations.ResetCommands : Prop :=
  (∀ (lost : Bool) (s : State),
    let cold := fun (cause : Nat) (w : Nat) =>
      s.boot.otp.foldl (fun t e => if 0x40200100 ≤ e.1 ∧ e.1 < 0x40200158 then setLv e.1 e.2 t else t)
        (setLv 0x4003001C (wd cause) { State.reset with
          pair.peer := s.pair.peer, host.enumIn := s.host.enumIn, host.low := s.host.low, host.deaf := s.host.low,
          host.phase := 3, mem := s.mem.filter (fun c => 0x50000000 ≤ c.1), free := s.free, pending := s.pending,
          flt.zlog := s.flt.zlog, flt.zNext := s.flt.zNext, flt.zCount := s.flt.zCount, flt.zValid := s.flt.zValid,
          pwr.wakeSrc := w, boot.otp := s.boot.otp })
    exec (.powerOnReset lost) s = .next (placed s
      (if lost then { cold 1 s.pwr.wakeSrc with flt.zlog := [], flt.zNext := 0, flt.zCount := 0, flt.zValid := false }
       else cold 1 s.pwr.wakeSrc)) ∧
    exec .resetNLow s = .next (placed s (cold 2 (if s.pwr.sleep = 0 then s.pwr.wakeSrc else 16))) ∧
    exec .brownout s = .next (placed s (cold 4 s.pwr.wakeSrc)) ∧
    exec .vcoreUndervoltage s = .next (placed s (cold 8 s.pwr.wakeSrc))) ∧
  (∀ (m : Master) (s : State),
    (writes s m 0x40000008 = true → exec (.warmReset m) s = .next (placed s (Machine.warmReset 16 (counted s)))) ∧
    (debugOn s = true → exec .jtagWarmReset s = .next (placed s (Machine.warmReset 32 s))) ∧
    (debugOn s = false → exec .jtagWarmReset s = .next (placed s s))) ∧
  (∀ (c : Nat) (s : State),
    let clk := fun a : Nat => decide (5 ≤ winOf a) && decide (winOf a ≤ 7)
    Machine.warmReset c s = wdogStart (cmpRestart (setLv 0x4003001C (wd c) { State.reset with
      pair.peer := s.pair.peer, host.enumIn := s.host.enumIn, host.enumOut := s.host.enumOut, host.low := s.host.low,
      host.deaf := s.host.low, host.phase := 3, mem := s.mem.filter (fun c => 0x50000000 ≤ c.1),
      free := s.free, pending := s.pending, flt.zlog := s.flt.zlog, flt.zNext := s.flt.zNext,
      flt.zCount := s.flt.zCount, flt.zValid := s.flt.zValid, pwr.wakeSrc := s.pwr.wakeSrc,
      boot.otp := s.boot.otp, boot.warm := true, hub.live := tkeep warmKeeps s.hub.live,
      hub.shadow := tkeep clk s.hub.shadow, hub.dirty := s.hub.dirty.filter clk, hub.pend := tkeep clk s.hub.pend,
      hub.liveBad := s.hub.liveBad.filter warmKeeps, hub.shadowBad := s.hub.shadowBad.filter clk,
      hub.badFound := s.hub.badFound.filter clk, hub.w1Done := s.hub.w1Done,
      hub.safeUnits := s.hub.safeUnits.filter (fun u => decide (u / 256 ≤ 7) || decide (29 ≤ u / 256)),
      time := { s.time with txf := [], txDrop := [] }, grat := s.grat, cmp := s.cmp,
      sup.grd := tkeep (fun i => bit (tget 0 s.sup.grd (i / 2 * 2)) 4) s.sup.grd }))) ∧
  (∀ a : Nat, warmKeeps a = true ↔
    keptOff a = true ∨ winOf a = 32 ∨ (5 ≤ winOf a ∧ winOf a ≤ 7) ∨
      a = 0x40000038 ∨ a = 0x40030018 ∨ a = 0x40040000)

/-- Boot, OTP and flash commands (R414 to R440). -/
def Obligations.BootCommands : Prop :=
  (∀ (v : BitVec 16) (us : Nat) (f : FlashIn) (s : State),
    (s.boot.phase ≠ 0 → exec (.resetRelease v us f) s = .next (placed s s)) ∧
    (s.boot.phase = 0 →
      let t := flashTake f.cells { s with pwr.vsysBoot := v.toNat, boot.relLc := s.time.lc }
      let u := atLc (t.time.lc + us * 500) (vsysRead v.toNat t)
      let xa := flashSource u f false
      let a := trySource xa u
      let s1 := bootErr 0 a.1 a.2
      let s2 := bootClear s1
      let xb := flashSource s2 f true
      let b := trySource xb s2
      let s3 := bootErr 1 b.1 b.2
      exec (.resetRelease v us f) s = .next (placed s
        (if a.1 = 0 then bootApply 1 xa.bytes s1
         else if b.1 = 0 then bootApply 2 xb.bytes s3
         else { bootClear s3 with boot.phase := 1, boot.wait := true, boot.stream := [] })))) ∧
  (∀ (x : Source) (n : Nat) (s : State),
    let l := x.bytes.take (imgLen x.bytes)
    let t := srvUp 3 0 l.length (memLoad l s)
    trySource x s = (if headCode s x = 0 then (if x.readErr then (1, s) else (tailCode t l, t)) else (headCode s x, s)) ∧
    (bootApply n l s).boot.phase = 2 ∧ (bootApply n l s).boot.source = n ∧ (bootApply n l s).boot.wait = false) ∧
  (∀ s : State,
    let up := ∀ d < 15, lf s (domReg d) 0 2 = 3 → domOn s d = true
    let pend := (tget none s.hub.commits (grpOf s 29)).isNone
    (s.boot.phase = 2 → pend = true → up →
      let s1 := s.boot.plan.regs.foldl (fun t e => busWrite .sup e.1 .word e.2 t) s
      let s2 := setLv 0x40000018 0 (setLv 0x4000001C 0 s1)
      exec .bootDomainsOn s = .next (placed s
        ((bitsOf 32 s.boot.plan.groups).foldl (fun t g => commitReq g 0 t) { s2 with boot.phase := 3 }))) ∧
    (s.boot.phase ≠ 2 ∨ pend = false ∨ ¬ up → exec .bootDomainsOn s = .next (placed s s))) ∧
  (∀ (m : Master) (s : State), writes s m 0x40030014 = true →
    let t := 2 ^ min 64 (lf s 0x40030010 0 7) - 1
    exec (.rbBurn m) s = .next (placed s (if m = .sup then
      otpSet 0x40200150 (t % 2 ^ 32) (otpSet 0x40200154 (t / 2 ^ 32) (counted s)) else counted s))) ∧
  (∀ (m : Master) (s : State), writes s m 0x40200208 = true →
    let o := lvn s 0x40200200
    let ok := lb s 0x40200108 0 = false ∧ (m = .sup ∨ m = .debug) ∧ 3000 ≤ s.pwr.vsys
    (ok → exec (.otpPgmGo m) s = .next (placed s (if 0x108 ≤ o ∧ o < 0x150 ∧ o % 4 = 0 then { counted s with
      boot.otp := tset 0 s.boot.otp (0x40200000 + o) (tget 0 s.boot.otp (0x40200000 + o) ||| wd (lvn s 0x40200204)) }
      else counted s))) ∧
    (¬ ok → exec (.otpPgmGo m) s = .next (placed s (srvUp 2 0 1 (violation (masterId m) 0x40200208 (counted s)))))) ∧
  (∀ (m : Master) (s : State), writes s m 0x40030030 = true →
    let cmd := fun rd : Bool => ({
      opcode := lf s 0x40030024 0 8, addr := lvn s 0x40030028, len := lf s 0x40030024 16 12,
      buf := lvn s 0x4003002C, read := rd } : FlashCmd)
    let go := fun rd : Bool => if s.boot.flash = none then
      srvUp 3 1 1 { counted s with boot.flash := some (cmd rd) } else counted s
    exec (.fgoSend m) s = .next (placed s (go false)) ∧ exec (.fgoRead m) s = .next (placed s (go true))) ∧
  (∀ (data : List Byte) (cells : List (Nat × List Byte)) (s : State),
    (s.boot.flash = none → exec (.flashCommandDone data cells) s = .next (placed s s)) ∧
    (∀ c, s.boot.flash = some c →
      let s1 := cells.foldl (fun t e => mStores (0x50000000 + e.1) e.2 t) { s with boot.flash := none }
      let d := data.take c.len
      (c.read = false → exec (.flashCommandDone data cells) s = .next (placed s s1)) ∧
      (c.read = true → exec (.flashCommandDone data cells) s = .next (placed s (srvUp 3 0 d.length
        (((List.range d.length).zip d).foldl (fun t e =>
          if 0x100000 ≤ c.buf + e.1 ∧ c.buf + e.1 < 0x500000 then mStore (c.buf + e.1) e.2 t else t) s1))))))

/-- The fault manager (R442 to R455). -/
def Obligations.FaultCommands : Prop :=
  (∀ (m : Master) (v : Word) (s : State), writes s m 0x40010030 = true →
    exec (.raiseFault m v) s = .next (placed s
      (if m = .sup then
        raise (v.toNat / 65536) (nfld v.toNat 8 2) (v.toNat % 256) (lvn s 0x40010034)
          (setLv 0x40010030 (wd (v.toNat &&& 0xFFFF03FF)) (counted s))
       else decodeErr (masterId m) 0x40010030 true (counted s)))) ∧
  (∀ (m : Master) (s : State), writes s m 0x4001000C = true →
    (curClass s = none → exec (.fltAck m) s = .next (placed s (counted s))) ∧
    (∀ c, curClass s = some c →
      let u := { counted s with flt.slots := tset none s.flt.slots c none }
      let take := fun (q : FaultRec) (rest : List FaultRec) => evOr 0x40010004 1
        { u with flt.slots := tset none u.flt.slots q.cls (some q), flt.queue := rest }
      exec (.fltAck m) s = .next (placed s
        (match curClass u, s.flt.queue with
         | none, [] => u
         | none, q :: rest => take q rest
         | some _, [] => evOr 0x40010004 1 u
         | some k, q :: rest => if q.cls ≤ k then evOr 0x40010004 1 u else take q rest)))) ∧
  (∀ s : State,
    let per := lf s 0x40010040 0 16
    (s.flt.wdogOn = true → exec .watchdogExpiry s = .next (placed s
      (raise 0x0110 3 255 0 { atLc (s.flt.wdogAt + per * 500000) s with flt.wdogOn := false }))) ∧
    (∀ m, writes s m 0x40010044 = true → exec (.wdogKick m) s = .next (placed s
      { counted s with flt.wdogOn := per != 0, flt.wdogAt := s.time.lc })) ∧
    (∀ m, writes s m 0x40200018 = true → exec (.flogClr m) s = .next (placed s
      { counted s with flt.zlog := [], flt.zNext := 0, flt.zCount := 0 }))) ∧
  (∀ (r : FaultRec) (s : State),
    let logged := srvUp 32 1 1 { srvUp 1 r.cls 1 s with
      flt.zlog := tset none s.flt.zlog s.flt.zNext (some r), flt.zNext := (s.flt.zNext + 1) % 32,
      flt.zCount := min 32 (s.flt.zCount + 1), flt.zValid := true }
    let s1 := if lf s 0x40200014 0 2 ≤ r.cls then logged else srvUp 1 r.cls 1 s
    let s2 := if lf s1 0x40040010 8 2 ≤ r.cls then evOr 0x4004000C 1 s1 else s1
    takeFault r s = if r.cls = 3 then enterSafe (placeFault r s2) else placeFault r s2) ∧
  (∀ (r : FaultRec) (s : State),
    let again := fun q : FaultRec => { q with rep := min 15 (q.rep + 1) }
    (∀ e, s.flt.slots.find? (fun e => (e.2.map (sameFault r)).getD false) = some e →
      placeFault r s = srvUp 1 4 1 { s with flt.slots := tset none s.flt.slots e.1 (e.2.map again) }) ∧
    (s.flt.slots.find? (fun e => (e.2.map (sameFault r)).getD false) = none →
      (s.flt.queue.any (sameFault r) = true → placeFault r s = srvUp 1 4 1
        { s with flt.queue := s.flt.queue.map (fun q => if sameFault r q then again q else q) }) ∧
      (s.flt.queue.any (sameFault r) = false →
        ((∀ c, curClass s = some c → c < r.cls) → placeFault r s = evOr 0x40010004 1
          { s with flt.slots := tset none s.flt.slots r.cls (some r) }) ∧
        (∀ c, curClass s = some c → r.cls ≤ c →
          let n := { r with seq := s.flt.arrivals }
          let t := { s with flt.arrivals := s.flt.arrivals + 1 }
          let lost := fun (k : Nat) (u : State) => srvUp 1 5 1 (evOr 0x40010004 2
            (ctrUp 0x40010010 (8 * k) (if k = 3 then 7 else 8) (evOr 0x40010010 0x80000000 u)))
          placeFault r s =
            if s.flt.queue.length < 16 then { t with flt.queue := queueIns n s.flt.queue }
            else if r.cls = 3 then
              (match newestLow s.flt.queue with
               | some x => lost x.cls
                   { t with flt.queue := queueIns n (s.flt.queue.filter (fun y => y.seq != x.seq)) }
               | none => lost 3 t)
            else lost r.cls t)))) ∧
  (∀ s : State, enterSafe s =
    if s.flt.safe then s else pairSafe (evOr 0x40010004 4 { s with flt.safe := true }))

/-- Per-function reset (R456 to R460) and the Survey (R474 to R479). -/
def Obligations.FunctionResetAndSurveyCommands : Prop :=
  (∀ (m : Master) (r : Fin 3) (v : Word) (s : State), writes s m (0x40000100 + 4 * r) = true →
    exec (.functionReset m r v) s = .next (placed s
      ((bitsOf 32 v.toNat).foldl (fun t i => frstStart (32 * r + i) t) (counted s)))) ∧
  (∀ (fn : Nat) (s : State),
    (fnOk fn = false ∨ lb s (0x40000110 + fn / 32 * 4) (fn % 32) = true ∨ domOn s (fnDom fn) = false → frstStart fn s = s) ∧
    (fnOk fn = true → lb s (0x40000110 + fn / 32 * 4) (fn % 32) = false → domOn s (fnDom fn) = true →
      frstStart fn s = frstBegin fn (evOr (0x40000110 + fn / 32 * 4) (2 ^ (fn % 32)) { s with
        frst.jobs := s.frst.jobs ++ [{ fn := fn, defaults := lb s 0x4000011C 0, start := s.grat.cycle }] }))) ∧
  (∀ (fn : Fin 75) (j : FrstJob) (s : State), s.frst.jobs.find? (fun j => j.fn == fn.val) = some j →
    let s1 := latchClear (fnLatch fn) s
    let s2 := frstLogic fn (if j.defaults then frstDefaults fn s1 else s1)
    exec (.functionResetDrainEnd fn) s = .next (placed s (heldRelease (lvClr (0x40000110 + fn / 32 * 4) (2 ^ (fn.val % 32))
      { s2 with
        frst.jobs := s2.frst.jobs.filter (fun x => x.fn != fn.val), frst.done := addTo fn.val s2.frst.done,
        hub.safeUnits := s2.hub.safeUnits.filter (fun u => !(fnUnits fn).contains u) })))) ∧
  (∀ (m : Master) (s : State), writes s m 0x401E0018 = true →
    ∀ e ∈ [(Instr.freeze m, 0), (.thaw m, 1), (.snap m, 2), (.surveyClear m, 3)],
      let at_ := lvn s 0x401E0010 + lvn s 0x401E0014 * 2 ^ 32
      (at_ = 0 ∨ s.grat.nextCycle ≤ at_ → exec e.1 s = .next (placed s
        { counted s with srv.acts := tset none s.srv.acts e.2 (some at_) })) ∧
      (at_ ≠ 0 → at_ < s.grat.nextCycle → exec e.1 s = .next (placed s
        { evOr 0x401E0000 2 (counted s) with srv.acts := tset none s.srv.acts e.2 (some 0) }))) ∧
  (∀ s : State,
    (s.srv.busy = true →
      let u := s.srv.held.foldl (fun t h => heldGo h t) { s with
        srv.snapCtr := s.srv.latCtr, srv.snapCore := s.srv.latCore, srv.latCtr := [], srv.latCore := [],
        srv.busy := false, srv.held := [] }
      exec .snapComplete s = .next (placed s
        (if lb u 0x401E0028 0 then { u with srv.copy := true } else evOr 0x401E0004 1 u))) ∧
    (s.srv.copy = true →
      exec .snapCopyDone s = .next (placed s (evOr 0x401E0004 1
        { (snapWords s).foldl (fun t e => busWrite .srv e.1 .word e.2 t) s with srv.copy := false }))) ∧
    (∀ i < 264, let at_ := lvn s 0x401E0028 / 64 * 64 + 8 * i
      let c := tget 0 s.srv.snapCtr i
      let k := tget 0 s.srv.snapCore i
      (at_, c % 2 ^ 32) ∈ snapWords s ∧ (at_ + 4, c / 2 ^ 32) ∈ snapWords s ∧
      (at_ + 0x840, k % 2 ^ 32) ∈ snapWords s ∧ (at_ + 0x844, k / 2 ^ 32) ∈ snapWords s) ∧
    (snapWords s).length = 1056) ∧
  (∀ (m : Master) (v : Word) (s : State),
    (writes s m 0x401E0070 = true → exec (.smpClr m v) s = .next (placed s
      ((bitsOf 4 v.toNat).foldl (fun t c => { t with
        srv.smp := tkeep (fun i => i / 256 != c) t.srv.smp, srv.next := tset 0 t.srv.next c 0,
        srv.fill := tset 0 t.srv.fill c 0, srv.full := dropFrom c t.srv.full }) (counted s)))) ∧
    (writes s m 0x401E0048 = true → exec (.smpSeed m v) s = .next (placed s
      ((List.range 32).foldl (fun t k => { t with
        srv.lfsr := tset 0 t.srv.lfsr k (if v.toNat ^^^ k = 0 then 1 else v.toNat ^^^ k),
        srv.count := tset 0 t.srv.count k 0 }) (setLv 0x401E0048 v (counted s))))))
end

