-- ==== Sys2Proof/Laws/Bus.lean ====
section
/-! SUPPORT. What a bus access that goes through does. -/

namespace Sys2Proof.Machine

/-- Counting an event of the Survey changes nothing but the Survey. -/
theorem srvUp_eq (b i n : Nat) (s : State) : srvUp b i n s = { s with srv := (srvUp b i n s).srv } := by
  unfold srvUp; split <;> rfl

/-- A counted access changes nothing but the Survey. -/
theorem counted_eq (s : State) : counted s = { s with srv := (counted s).srv } := srvUp_eq 31 0 1 s

theorem finish_placed (s u : State) : finish s u = .next (placed s u) := rfl

theorem pBusy_reg (s : State) (a : Nat) (h : isReg a = true) : pBusy s a = false := by
  simp only [isReg, Bool.and_eq_true, decide_eq_true_eq] at h
  simp only [pBusy]
  have : decide (a < 0x20800000) = false := by simp; omega
  simp [this]

theorem counted_busy (s : State) : (counted s).srv.busy = s.srv.busy := by
  unfold counted srvUp; split <;> rfl

theorem counted_hub (s : State) : (counted s).hub = s.hub := by unfold counted srvUp; split <;> rfl
theorem counted_pwr (s : State) : (counted s).pwr = s.pwr := by unfold counted srvUp; split <;> rfl
theorem counted_boot (s : State) : (counted s).boot = s.boot := by unfold counted srvUp; split <;> rfl
theorem counted_frst (s : State) : (counted s).frst = s.frst := by unfold counted srvUp; split <;> rfl

theorem lv_counted (s : State) (a : Nat) : lv (counted s) a = lv s a := by unfold lv; rw [counted_hub]
theorem lvn_counted (s : State) (a : Nat) : lvn (counted s) a = lvn s a := by unfold lvn; rw [lv_counted]
theorem lf_counted (s : State) (a lo n : Nat) : lf (counted s) a lo n = lf s a lo n := by unfold lf; rw [lv_counted]
theorem lb_counted (s : State) (a i : Nat) : lb (counted s) a i = lb s a i := by unfold lb; rw [lv_counted]
theorem isSealed_counted (s : State) : isSealed (counted s) = isSealed s := by unfold isSealed; rw [lb_counted]
theorem spc_counted (s : State) : spc (counted s) = spc s := by unfold spc; rw [lf_counted]

theorem egrUnused_counted (s : State) (a : Nat) : egrUnused (counted s) a = egrUnused s a := by
  unfold egrUnused egrValid nIn; rw [spc_counted]

theorem domOn_counted (s : State) (d : Nat) : domOn (counted s) d = domOn s d := by
  unfold domOn domGet; rw [counted_pwr]

theorem memDom_counted (s : State) (a : Nat) : memDom (counted s) a = memDom s a := by
  unfold memDom arrInputs arrSections; simp only [spc_counted, lb_counted]

theorem decodes_counted (s : State) (a : Nat) : decodes (counted s) a = decodes s a := by
  unfold decodes; simp only [memDom_counted, domOn_counted]

theorem fwCheck_counted (s : State) (m : Master) (a : Nat) (wr : Bool) :
    fwCheck (counted s) m a wr = fwCheck s m a wr := by
  unfold fwCheck fwDeny; simp only [counted_boot, isSealed_counted, lb_counted, lvn_counted]

theorem badAccess_counted (s : State) (a : Nat) (z : AccSize) : badAccess (counted s) a z = badAccess s a z := by
  unfold badAccess; simp only [decodes_counted]

theorem locked_counted (s : State) (m : Master) (a : Nat) : locked (counted s) m a = locked s m a := by
  unfold locked; simp only [isSealed_counted, lb_counted]

theorem srvMay_counted (s : State) (m : Master) (wr : Bool) : srvMay (counted s) m wr = srvMay s m wr := by
  unfold srvMay; simp only [lb_counted]

theorem waitsReset_counted (s : State) (a : Nat) : waitsReset (counted s) a = waitsReset s a := by
  unfold waitsReset fnHolds; rw [counted_frst]

theorem waitsSnap_counted (s : State) (a : Nat) (wr : Bool) : waitsSnap (counted s) a wr = waitsSnap s a wr := by
  simp [waitsSnap, counted_busy]

/-- A write that goes through is the register's own write, once counted. -/
theorem busWrite_goes {s : State} {m : Master} {a : Nat} (v : Nat) (h : writes s m a = true) :
    busWrite m a .word v s = regWrite m a (wd v) (counted s) := by
  simp only [writes, Bool.and_eq_true, Bool.not_eq_true', Option.isNone_iff_eq_none] at h
  obtain ⟨⟨⟨⟨⟨⟨hr, hi⟩, hf⟩, hb⟩, hs⟩, hl⟩, hw⟩ := h
  unfold busWrite
  rw [← counted]
  simp only [hi, Bool.not_true, Bool.false_eq_true, if_false, fwCheck_counted, hf, badAccess_counted, hb,
    pBusy_reg _ a hr, Bool.or_self, hr, Bool.true_and, srvMay_counted, hs, locked_counted, hl, waitsReset_counted, hw,
    if_true]

/-- A read that goes through is the register's own read, once counted. -/
theorem busRead_goes {s : State} {m : Master} {a : Nat} (h : reads s m a = true) :
    busRead m a .word s = ((regRead m a (counted s)).1.toNat, (regRead m a (counted s)).2) := by
  simp only [reads, Bool.and_eq_true, Bool.not_eq_true', Option.isNone_iff_eq_none] at h
  obtain ⟨⟨⟨⟨⟨⟨⟨hr, hi⟩, hf⟩, hb⟩, hs⟩, hw⟩, hn⟩, _⟩ := h
  unfold busRead
  rw [← counted]
  simp only [hi, Bool.not_true, Bool.false_eq_true, if_false, fwCheck_counted, hf, badAccess_counted, hb,
    hr, Bool.true_and, srvMay_counted, hs, waitsReset_counted, hw, waitsSnap_counted, hn, readGo, if_true]

/-- What a master receives from a read that goes through. -/
theorem readCmd_goes {s : State} {m : Master} {a : Nat} (h : reads s m a = true) :
    readCmd m a s = { (regRead m a (counted s)).2 with rdata := [(regRead m a (counted s)).1] } := by
  unfold readCmd
  rw [busRead_goes h]
  simp only [reads, Bool.and_eq_true, Bool.not_eq_true', Option.isNone_iff_eq_none] at h
  simp [readWaits, h, wd]

/-- The word of a read that goes through passes parity. -/
theorem reads_parity {s : State} {m : Master} {a : Nat} (h : reads s m a = true) :
    (counted s).hub.liveBad.contains a = false := by
  simp only [reads, Bool.and_eq_true, Bool.not_eq_true'] at h
  rw [counted_hub]; exact h.2

/-- A write of 1 bits to a word with no readable register is its strobe. -/
theorem regWrite_strobe (m : Master) (a : Nat) (v : Word) (s : State)
    (h : rowOf a = none ∧ offOf a < 0x8000 ∧ (decide (21 ≤ winOf a) && decide (winOf a ≤ 24)) = false) :
    regWrite m a v s = strobe m a v.toNat s := by
  unfold regWrite
  have : ¬ 0x8000 ≤ offOf a := by omega
  simp [this, h]

/-- A write of a plain register acts by its access kind. -/
theorem regWrite_row (m : Master) (a : Nat) (v : Word) (s : State) (r : RegRow)
    (hp : plainReg a = true) (hr : rowOf a = some r) : regWrite m a v s = (match r.acc with
       | .rw => shadowWrite a v r.wmask s
       | .rh => shadowWrite a v r.wmask s
       | .ri => riWrite m a v r.wmask s
       | .rc => s
       | .rk => if isSealed s then srvUp 2 0 1 (violation (masterId m) a s) else liveWrite a v r.wmask s
       | .w1 => if s.hub.w1Done.contains a then srvUp 2 0 1 (violation (masterId m) a s) else w1Write a v r.wmask s) := by
  simp only [plainReg, Bool.and_eq_true, Bool.not_eq_true', decide_eq_true_eq] at hp
  obtain ⟨h1, h2⟩ := hp
  have h3 : ¬ 0x8000 ≤ offOf a := by omega
  unfold regWrite
  by_cases hb : (decide (21 ≤ winOf a) && decide (winOf a ≤ 24)) = true
  · rw [hb] at h2
    simp at h2
    have h4 : (decide (0x40 ≤ offOf a) && decide (offOf a < 0xC0)) = false := by simp; omega
    have h5 : (decide (0x100 ≤ offOf a) && decide (offOf a < 0x190) && decide (offOf a % 16 = 0)) = false := by
      simp; intro h6 h7; exact h2.2 h6 h7
    simp [h3, hr]
    simp at hb h4 h5
    rw [if_neg (by omega)]; exact if_neg (by omega)
  · simp at hb
    simp [h3, hr]
    rw [if_neg (by omega)]; exact if_neg (by omega)

/-- A write of a plain RI register. -/
theorem regWrite_ri (m : Master) (a : Nat) (v : Word) (s : State) (w : Nat)
    (h : (rowOf a).map (fun r => (r.acc, r.wmask)) = some (.ri, w)) (hp : plainReg a = true) :
    regWrite m a v s = riWrite m a v w s := by
  cases hr : rowOf a with
  | none => rw [hr] at h; cases h
  | some r =>
    rw [hr] at h
    simp only [Option.map_some, Option.some.injEq, Prod.mk.injEq] at h
    rw [regWrite_row m a v s r hp hr, h.1, h.2]

end Sys2Proof.Machine
end

