-- ==== Sys2Proof/Laws/Tables.lean ====
section
/-! SUPPORT. Tables: a write keeps the canonical form, is read back, and leaves every other key alone. -/

namespace Sys2Proof.Machine

variable {α : Type} [DecidableEq α] {d : Nat → α}

/-- A key below every listed key reads as unlisted. -/
theorem tabGet_below {m : Tab α} {lo k : Nat} (h : tabWfFrom d lo m = true) (hk : k < lo) : tabGet d m k = d k := by
  cases m with
  | nil => rfl
  | cons e t =>
    simp only [tabWfFrom, Bool.and_eq_true, decide_eq_true_eq] at h
    simp only [tabGet]
    rw [if_neg (by omega), if_pos (by omega)]

/-- A looser lower bound. -/
theorem tabWfFrom_mono {m : Tab α} {lo lo' : Nat} (h : tabWfFrom d lo m = true) (hl : lo' ≤ lo) :
    tabWfFrom d lo' m = true := by
  cases m with
  | nil => rfl
  | cons e t =>
    simp only [tabWfFrom, Bool.and_eq_true, decide_eq_true_eq] at h ⊢
    exact ⟨⟨by omega, h.1.2⟩, h.2⟩

/-- What a key reads as after a write. -/
theorem tabGet_tabSet {m : Tab α} {lo : Nat} (h : tabWfFrom d lo m = true) (k : Nat) (v : α) (j : Nat) :
    tabGet d (tabSet d m k v) j = if j = k then v else tabGet d m j := by
  induction m generalizing lo with
  | nil =>
    simp only [tabSet]
    by_cases hv : v = d k <;> by_cases hj : j = k <;> simp [hv, hj, tabGet]
  | cons e t ih =>
    obtain ⟨a, w⟩ := e
    simp only [tabWfFrom, Bool.and_eq_true, decide_eq_true_eq] at h
    obtain ⟨⟨_, _⟩, ht⟩ := h
    simp only [tabSet]
    by_cases h1 : k < a
    · rw [if_pos h1]
      by_cases hv : v = d k
      · rw [if_pos hv]
        by_cases hj : j = k
        · subst hj; simp [tabGet, hv, h1, Nat.ne_of_lt h1]
        · simp [hj]
      · rw [if_neg hv]
        by_cases hj : j = k
        · simp [tabGet, hj]
        · by_cases hk : j < k
          · simp [tabGet, hj, hk, Nat.ne_of_lt (Nat.lt_trans hk h1), Nat.lt_trans hk h1]
          · simp [tabGet, hj, hk]
    · rw [if_neg h1]
      by_cases h2 : k = a
      · rw [if_pos h2]
        subst h2
        by_cases hv : v = d k
        · rw [if_pos hv]
          by_cases hj : j = k
          · subst hj; simp [hv, tabGet_below ht (Nat.lt_succ_self _)]
          · by_cases hl : j < k
            · simp [tabGet, hj, hl, tabGet_below ht (Nat.lt_succ_of_lt hl)]
            · simp [tabGet, hj, hl]
        · rw [if_neg hv]
          by_cases hj : j = k <;> simp [tabGet, hj]
      · rw [if_neg h2]
        simp only [tabGet, ih ht]
        by_cases hj : j = k
        · subst hj; simp [h2, h1]
        · simp [hj]

/-- A write keeps the canonical form above a bound that its key meets. -/
theorem tabWfFrom_tabSet {m : Tab α} {lo : Nat} (h : tabWfFrom d lo m = true) (k : Nat) (v : α) (hk : lo ≤ k) :
    tabWfFrom d lo (tabSet d m k v) = true := by
  induction m generalizing lo with
  | nil =>
    simp only [tabSet]
    by_cases hv : v = d k <;> simp [hv, tabWfFrom, hk]
  | cons e t ih =>
    obtain ⟨a, w⟩ := e
    simp only [tabWfFrom, Bool.and_eq_true, decide_eq_true_eq] at h
    obtain ⟨⟨h3, h4⟩, ht⟩ := h
    simp only [tabSet]
    split
    · split
      · simp [tabWfFrom, h3, h4, ht]
      · rename_i h5 h6
        simp only [tabWfFrom, Bool.and_eq_true, decide_eq_true_eq]
        exact ⟨⟨hk, h6⟩, ⟨by omega, h4⟩, ht⟩
    · split
      · split
        · exact tabWfFrom_mono ht (by omega)
        · rename_i h5 h6 h7
          subst h6
          simp only [tabWfFrom, Bool.and_eq_true, decide_eq_true_eq]
          exact ⟨⟨h3, h7⟩, ht⟩
      · simp only [tabWfFrom, Bool.and_eq_true, decide_eq_true_eq]
        exact ⟨⟨h3, h4⟩, ih ht (by omega)⟩

/-- A write keeps the canonical form. -/
theorem tabWf_tabSet {m : Tab α} (h : tabWf d m = true) (k : Nat) (v : α) : tabWf d (tabSet d m k v) = true :=
  tabWfFrom_tabSet h k v (Nat.zero_le k)

/-- Dropping entries keeps the canonical form. -/
theorem tabWfFrom_filter {m : Tab α} {lo : Nat} (p : Nat × α → Bool) (h : tabWfFrom d lo m = true) :
    tabWfFrom d lo (m.filter p) = true := by
  induction m generalizing lo with
  | nil => rfl
  | cons e t ih =>
    simp only [tabWfFrom, Bool.and_eq_true, decide_eq_true_eq] at h
    by_cases hp : p e = true
    · simp only [List.filter_cons, hp, if_true, tabWfFrom, Bool.and_eq_true, decide_eq_true_eq]
      exact ⟨h.1, ih h.2⟩
    · simp only [List.filter_cons, hp]
      exact tabWfFrom_mono (ih h.2) (by omega)

/-- Dropping entries keeps the canonical form. -/
theorem tabWf_filter {m : Tab α} (p : Nat × α → Bool) (h : tabWf d m = true) : tabWf d (m.filter p) = true :=
  tabWfFrom_filter p h

/-- What a key of a uniform table reads as after a write. -/
theorem tget_tset {e : α} {m : Tab α} (h : tabWf (fun _ => e) m = true) (k : Nat) (v : α) (j : Nat) :
    tget e (tset e m k v) j = if j = k then v else tget e m j := tabGet_tabSet h k v j

/-- A write keeps the canonical form of a uniform table. -/
theorem tabWf_tset {e : α} {m : Tab α} (h : tabWf (fun _ => e) m = true) (k : Nat) (v : α) :
    tabWf (fun _ => e) (tset e m k v) = true := tabWf_tabSet h k v

/-- The last write of a key counts. -/
theorem tabSet_tabSet {m : Tab α} {lo : Nat} (h : tabWfFrom d lo m = true) (k : Nat) (v w : α) :
    tabSet d (tabSet d m k v) k w = tabSet d m k w := by
  induction m generalizing lo with
  | nil =>
    simp only [tabSet]
    by_cases hv : v = d k <;> simp [hv, tabSet]
  | cons e t ih =>
    obtain ⟨a, y⟩ := e
    simp only [tabWfFrom, Bool.and_eq_true, decide_eq_true_eq] at h
    obtain ⟨⟨_, _⟩, ht⟩ := h
    by_cases h1 : k < a
    · by_cases hv : v = d k <;> simp [tabSet, h1, hv]
    · by_cases h2 : k = a
      · subst h2
        by_cases hv : v = d k
        · have e1 : tabSet d ((k, y) :: t) k v = t := by simp [tabSet, hv]
          rw [e1]
          have e2 : tabSet d ((k, y) :: t) k w = (if w = d k then t else (k, w) :: t) := by simp [tabSet]
          rw [e2]
          cases t with
          | nil => simp [tabSet]
          | cons f t2 =>
            simp only [tabWfFrom, Bool.and_eq_true, decide_eq_true_eq] at ht
            have : k < f.1 := by omega
            simp [tabSet, this]
        · simp [tabSet, hv]
      · simp [tabSet, h1, h2, ih ht]

theorem tset_tset {e : α} {m : Tab α} (h : tabWf (fun _ => e) m = true) (k : Nat) (v w : α) :
    tset e (tset e m k v) k w = tset e m k w := tabSet_tabSet h k v w

end Sys2Proof.Machine
end

