-- ==== Sys2Proof/Laws/Memory.lean ====
section
/-! SUPPORT. Memory: every operation keeps the canonical form, a store is read back, and leaves every other byte
alone. -/

namespace Sys2Proof.Machine

theorem mStore_wf {s : State} (h : Memory.wf s.mem = true) (a : Nat) (v : Byte) : Memory.wf (mStore a v s).mem = true :=
  tabWf_tabSet h a v

theorem mStores_wf {s : State} (h : Memory.wf s.mem = true) (a : Nat) (l : List Byte) :
    Memory.wf (mStores a l s).mem = true := by
  induction l generalizing a s with
  | nil => exact h
  | cons b t ih => exact ih (mStore_wf h a b) (a + 1)

theorem mStoreW_wf {s : State} (h : Memory.wf s.mem = true) (a v : Nat) : Memory.wf (mStoreW a v s).mem = true :=
  mStores_wf h a _

theorem mStoreWs_wf {s : State} (h : Memory.wf s.mem = true) (a : Nat) (l : List Nat) :
    Memory.wf (mStoreWs a l s).mem = true := by
  induction l generalizing a s with
  | nil => exact h
  | cons v t ih => exact ih (mStoreW_wf h a v) (a + 4)

/-- Bytes that a reset or a power transition drops leave the rest in canonical form. -/
theorem Memory.wf_filter {m : List Host.Cell} (h : Memory.wf m = true) (p : Host.Cell → Bool) :
    Memory.wf (m.filter p) = true := tabWf_filter p h

/-- A stored byte reads back, and every other byte reads as before. -/
theorem mByte_mStore {s : State} (h : Memory.wf s.mem = true) (a : Nat) (v : Byte) (x : Nat) :
    mByte (mStore a v s) x = if x = a then v else mByte s x := tabGet_tabSet h a v x

end Sys2Proof.Machine
end

