-- ==== Sys2Proof/Laws/State.lean ====
section
/-! SUPPORT. What an update of the state leaves as it was: one lemma per field for each update. -/

namespace Sys2Proof.Machine

@[simp] theorem setLv_flt (a : Nat) (v : Word) (s : State) : (setLv a v s).flt = s.flt := rfl
@[simp] theorem setLv_time (a : Nat) (v : Word) (s : State) : (setLv a v s).time = s.time := rfl
@[simp] theorem setLv_grat (a : Nat) (v : Word) (s : State) : (setLv a v s).grat = s.grat := rfl
@[simp] theorem setLv_cmp (a : Nat) (v : Word) (s : State) : (setLv a v s).cmp = s.cmp := rfl
@[simp] theorem setLv_mem (a : Nat) (v : Word) (s : State) : (setLv a v s).mem = s.mem := rfl
@[simp] theorem setLv_eccBad (a : Nat) (v : Word) (s : State) : (setLv a v s).eccBad = s.eccBad := rfl
@[simp] theorem setLv_rdata (a : Nat) (v : Word) (s : State) : (setLv a v s).rdata = s.rdata := rfl
@[simp] theorem setLv_free (a : Nat) (v : Word) (s : State) : (setLv a v s).free = s.free := rfl
@[simp] theorem setLv_mix (a : Nat) (v : Word) (s : State) : (setLv a v s).mix = s.mix := rfl
@[simp] theorem setLv_eqs (a : Nat) (v : Word) (s : State) : (setLv a v s).eqs = s.eqs := rfl
@[simp] theorem setLv_str (a : Nat) (v : Word) (s : State) : (setLv a v s).str = s.str := rfl
@[simp] theorem setLv_sil (a : Nat) (v : Word) (s : State) : (setLv a v s).sil = s.sil := rfl
@[simp] theorem setLv_core (a : Nat) (v : Word) (s : State) : (setLv a v s).core = s.core := rfl
@[simp] theorem setLv_cl (a : Nat) (v : Word) (s : State) : (setLv a v s).cl = s.cl := rfl
@[simp] theorem setLv_sup (a : Nat) (v : Word) (s : State) : (setLv a v s).sup = s.sup := rfl
@[simp] theorem setLv_pwr (a : Nat) (v : Word) (s : State) : (setLv a v s).pwr = s.pwr := rfl
@[simp] theorem setLv_out (a : Nat) (v : Word) (s : State) : (setLv a v s).out = s.out := rfl
@[simp] theorem setLv_pair (a : Nat) (v : Word) (s : State) : (setLv a v s).pair = s.pair := rfl
@[simp] theorem setLv_ser (a : Nat) (v : Word) (s : State) : (setLv a v s).ser = s.ser := rfl
@[simp] theorem setLv_swx (a : Nat) (v : Word) (s : State) : (setLv a v s).swx = s.swx := rfl
@[simp] theorem setLv_gaz (a : Nat) (v : Word) (s : State) : (setLv a v s).gaz = s.gaz := rfl
@[simp] theorem setLv_svb (a : Nat) (v : Word) (s : State) : (setLv a v s).svb = s.svb := rfl
@[simp] theorem setLv_boot (a : Nat) (v : Word) (s : State) : (setLv a v s).boot = s.boot := rfl
@[simp] theorem setLv_host (a : Nat) (v : Word) (s : State) : (setLv a v s).host = s.host := rfl
@[simp] theorem setLv_frst (a : Nat) (v : Word) (s : State) : (setLv a v s).frst = s.frst := rfl
@[simp] theorem setLv_srv (a : Nat) (v : Word) (s : State) : (setLv a v s).srv = s.srv := rfl
@[simp] theorem setLv_pending (a : Nat) (v : Word) (s : State) : (setLv a v s).pending = s.pending := rfl
@[simp] theorem setLv_hub_shadow (a : Nat) (v : Word) (s : State) : (setLv a v s).hub.shadow = s.hub.shadow := rfl
@[simp] theorem setLv_hub_dirty (a : Nat) (v : Word) (s : State) : (setLv a v s).hub.dirty = s.hub.dirty := rfl
@[simp] theorem setLv_hub_pend (a : Nat) (v : Word) (s : State) : (setLv a v s).hub.pend = s.hub.pend := rfl
@[simp] theorem setLv_hub_liveBad (a : Nat) (v : Word) (s : State) : (setLv a v s).hub.liveBad = s.hub.liveBad := rfl
@[simp] theorem setLv_hub_shadowBad (a : Nat) (v : Word) (s : State) : (setLv a v s).hub.shadowBad = s.hub.shadowBad :=
  rfl
@[simp] theorem setLv_hub_badFound (a : Nat) (v : Word) (s : State) : (setLv a v s).hub.badFound = s.hub.badFound :=
  rfl
@[simp] theorem setLv_hub_w1Done (a : Nat) (v : Word) (s : State) : (setLv a v s).hub.w1Done = s.hub.w1Done := rfl
@[simp] theorem setLv_hub_latch (a : Nat) (v : Word) (s : State) : (setLv a v s).hub.latch = s.hub.latch := rfl
@[simp] theorem setLv_hub_hold (a : Nat) (v : Word) (s : State) : (setLv a v s).hub.hold = s.hub.hold := rfl
@[simp] theorem setLv_hub_held (a : Nat) (v : Word) (s : State) : (setLv a v s).hub.held = s.hub.held := rfl
@[simp] theorem setLv_hub_commits (a : Nat) (v : Word) (s : State) : (setLv a v s).hub.commits = s.hub.commits := rfl
@[simp] theorem setLv_hub_lastCommit (a : Nat) (v : Word) (s : State) : (setLv a v s).hub.lastCommit = s.hub.lastCommit :=
  rfl
@[simp] theorem setLv_hub_arr (a : Nat) (v : Word) (s : State) : (setLv a v s).hub.arr = s.hub.arr := rfl
@[simp] theorem setLv_hub_arrDirty (a : Nat) (v : Word) (s : State) : (setLv a v s).hub.arrDirty = s.hub.arrDirty :=
  rfl
@[simp] theorem setLv_hub_safeUnits (a : Nat) (v : Word) (s : State) : (setLv a v s).hub.safeUnits = s.hub.safeUnits :=
  rfl
@[simp] theorem evOr_flt (a m : Nat) (s : State) : (evOr a m s).flt = s.flt := rfl
@[simp] theorem evOr_time (a m : Nat) (s : State) : (evOr a m s).time = s.time := rfl
@[simp] theorem evOr_grat (a m : Nat) (s : State) : (evOr a m s).grat = s.grat := rfl
@[simp] theorem evOr_cmp (a m : Nat) (s : State) : (evOr a m s).cmp = s.cmp := rfl
@[simp] theorem evOr_mem (a m : Nat) (s : State) : (evOr a m s).mem = s.mem := rfl
@[simp] theorem evOr_eccBad (a m : Nat) (s : State) : (evOr a m s).eccBad = s.eccBad := rfl
@[simp] theorem evOr_rdata (a m : Nat) (s : State) : (evOr a m s).rdata = s.rdata := rfl
@[simp] theorem evOr_free (a m : Nat) (s : State) : (evOr a m s).free = s.free := rfl
@[simp] theorem evOr_mix (a m : Nat) (s : State) : (evOr a m s).mix = s.mix := rfl
@[simp] theorem evOr_eqs (a m : Nat) (s : State) : (evOr a m s).eqs = s.eqs := rfl
@[simp] theorem evOr_str (a m : Nat) (s : State) : (evOr a m s).str = s.str := rfl
@[simp] theorem evOr_sil (a m : Nat) (s : State) : (evOr a m s).sil = s.sil := rfl
@[simp] theorem evOr_core (a m : Nat) (s : State) : (evOr a m s).core = s.core := rfl
@[simp] theorem evOr_cl (a m : Nat) (s : State) : (evOr a m s).cl = s.cl := rfl
@[simp] theorem evOr_sup (a m : Nat) (s : State) : (evOr a m s).sup = s.sup := rfl
@[simp] theorem evOr_pwr (a m : Nat) (s : State) : (evOr a m s).pwr = s.pwr := rfl
@[simp] theorem evOr_out (a m : Nat) (s : State) : (evOr a m s).out = s.out := rfl
@[simp] theorem evOr_pair (a m : Nat) (s : State) : (evOr a m s).pair = s.pair := rfl
@[simp] theorem evOr_ser (a m : Nat) (s : State) : (evOr a m s).ser = s.ser := rfl
@[simp] theorem evOr_swx (a m : Nat) (s : State) : (evOr a m s).swx = s.swx := rfl
@[simp] theorem evOr_gaz (a m : Nat) (s : State) : (evOr a m s).gaz = s.gaz := rfl
@[simp] theorem evOr_svb (a m : Nat) (s : State) : (evOr a m s).svb = s.svb := rfl
@[simp] theorem evOr_boot (a m : Nat) (s : State) : (evOr a m s).boot = s.boot := rfl
@[simp] theorem evOr_host (a m : Nat) (s : State) : (evOr a m s).host = s.host := rfl
@[simp] theorem evOr_frst (a m : Nat) (s : State) : (evOr a m s).frst = s.frst := rfl
@[simp] theorem evOr_srv (a m : Nat) (s : State) : (evOr a m s).srv = s.srv := rfl
@[simp] theorem evOr_pending (a m : Nat) (s : State) : (evOr a m s).pending = s.pending := rfl
@[simp] theorem evOr_hub_shadow (a m : Nat) (s : State) : (evOr a m s).hub.shadow = s.hub.shadow := rfl
@[simp] theorem evOr_hub_dirty (a m : Nat) (s : State) : (evOr a m s).hub.dirty = s.hub.dirty := rfl
@[simp] theorem evOr_hub_pend (a m : Nat) (s : State) : (evOr a m s).hub.pend = s.hub.pend := rfl
@[simp] theorem evOr_hub_liveBad (a m : Nat) (s : State) : (evOr a m s).hub.liveBad = s.hub.liveBad := rfl
@[simp] theorem evOr_hub_shadowBad (a m : Nat) (s : State) : (evOr a m s).hub.shadowBad = s.hub.shadowBad := rfl
@[simp] theorem evOr_hub_badFound (a m : Nat) (s : State) : (evOr a m s).hub.badFound = s.hub.badFound := rfl
@[simp] theorem evOr_hub_w1Done (a m : Nat) (s : State) : (evOr a m s).hub.w1Done = s.hub.w1Done := rfl
@[simp] theorem evOr_hub_latch (a m : Nat) (s : State) : (evOr a m s).hub.latch = s.hub.latch := rfl
@[simp] theorem evOr_hub_hold (a m : Nat) (s : State) : (evOr a m s).hub.hold = s.hub.hold := rfl
@[simp] theorem evOr_hub_held (a m : Nat) (s : State) : (evOr a m s).hub.held = s.hub.held := rfl
@[simp] theorem evOr_hub_commits (a m : Nat) (s : State) : (evOr a m s).hub.commits = s.hub.commits := rfl
@[simp] theorem evOr_hub_lastCommit (a m : Nat) (s : State) : (evOr a m s).hub.lastCommit = s.hub.lastCommit := rfl
@[simp] theorem evOr_hub_arr (a m : Nat) (s : State) : (evOr a m s).hub.arr = s.hub.arr := rfl
@[simp] theorem evOr_hub_arrDirty (a m : Nat) (s : State) : (evOr a m s).hub.arrDirty = s.hub.arrDirty := rfl
@[simp] theorem evOr_hub_safeUnits (a m : Nat) (s : State) : (evOr a m s).hub.safeUnits = s.hub.safeUnits := rfl
@[simp] theorem lvClr_flt (a m : Nat) (s : State) : (lvClr a m s).flt = s.flt := rfl
@[simp] theorem lvClr_time (a m : Nat) (s : State) : (lvClr a m s).time = s.time := rfl
@[simp] theorem lvClr_grat (a m : Nat) (s : State) : (lvClr a m s).grat = s.grat := rfl
@[simp] theorem lvClr_cmp (a m : Nat) (s : State) : (lvClr a m s).cmp = s.cmp := rfl
@[simp] theorem lvClr_mem (a m : Nat) (s : State) : (lvClr a m s).mem = s.mem := rfl
@[simp] theorem lvClr_eccBad (a m : Nat) (s : State) : (lvClr a m s).eccBad = s.eccBad := rfl
@[simp] theorem lvClr_rdata (a m : Nat) (s : State) : (lvClr a m s).rdata = s.rdata := rfl
@[simp] theorem lvClr_free (a m : Nat) (s : State) : (lvClr a m s).free = s.free := rfl
@[simp] theorem lvClr_mix (a m : Nat) (s : State) : (lvClr a m s).mix = s.mix := rfl
@[simp] theorem lvClr_eqs (a m : Nat) (s : State) : (lvClr a m s).eqs = s.eqs := rfl
@[simp] theorem lvClr_str (a m : Nat) (s : State) : (lvClr a m s).str = s.str := rfl
@[simp] theorem lvClr_sil (a m : Nat) (s : State) : (lvClr a m s).sil = s.sil := rfl
@[simp] theorem lvClr_core (a m : Nat) (s : State) : (lvClr a m s).core = s.core := rfl
@[simp] theorem lvClr_cl (a m : Nat) (s : State) : (lvClr a m s).cl = s.cl := rfl
@[simp] theorem lvClr_sup (a m : Nat) (s : State) : (lvClr a m s).sup = s.sup := rfl
@[simp] theorem lvClr_pwr (a m : Nat) (s : State) : (lvClr a m s).pwr = s.pwr := rfl
@[simp] theorem lvClr_out (a m : Nat) (s : State) : (lvClr a m s).out = s.out := rfl
@[simp] theorem lvClr_pair (a m : Nat) (s : State) : (lvClr a m s).pair = s.pair := rfl
@[simp] theorem lvClr_ser (a m : Nat) (s : State) : (lvClr a m s).ser = s.ser := rfl
@[simp] theorem lvClr_swx (a m : Nat) (s : State) : (lvClr a m s).swx = s.swx := rfl
@[simp] theorem lvClr_gaz (a m : Nat) (s : State) : (lvClr a m s).gaz = s.gaz := rfl
@[simp] theorem lvClr_svb (a m : Nat) (s : State) : (lvClr a m s).svb = s.svb := rfl
@[simp] theorem lvClr_boot (a m : Nat) (s : State) : (lvClr a m s).boot = s.boot := rfl
@[simp] theorem lvClr_host (a m : Nat) (s : State) : (lvClr a m s).host = s.host := rfl
@[simp] theorem lvClr_frst (a m : Nat) (s : State) : (lvClr a m s).frst = s.frst := rfl
@[simp] theorem lvClr_srv (a m : Nat) (s : State) : (lvClr a m s).srv = s.srv := rfl
@[simp] theorem lvClr_pending (a m : Nat) (s : State) : (lvClr a m s).pending = s.pending := rfl
@[simp] theorem lvClr_hub_shadow (a m : Nat) (s : State) : (lvClr a m s).hub.shadow = s.hub.shadow := rfl
@[simp] theorem lvClr_hub_dirty (a m : Nat) (s : State) : (lvClr a m s).hub.dirty = s.hub.dirty := rfl
@[simp] theorem lvClr_hub_pend (a m : Nat) (s : State) : (lvClr a m s).hub.pend = s.hub.pend := rfl
@[simp] theorem lvClr_hub_liveBad (a m : Nat) (s : State) : (lvClr a m s).hub.liveBad = s.hub.liveBad := rfl
@[simp] theorem lvClr_hub_shadowBad (a m : Nat) (s : State) : (lvClr a m s).hub.shadowBad = s.hub.shadowBad := rfl
@[simp] theorem lvClr_hub_badFound (a m : Nat) (s : State) : (lvClr a m s).hub.badFound = s.hub.badFound := rfl
@[simp] theorem lvClr_hub_w1Done (a m : Nat) (s : State) : (lvClr a m s).hub.w1Done = s.hub.w1Done := rfl
@[simp] theorem lvClr_hub_latch (a m : Nat) (s : State) : (lvClr a m s).hub.latch = s.hub.latch := rfl
@[simp] theorem lvClr_hub_hold (a m : Nat) (s : State) : (lvClr a m s).hub.hold = s.hub.hold := rfl
@[simp] theorem lvClr_hub_held (a m : Nat) (s : State) : (lvClr a m s).hub.held = s.hub.held := rfl
@[simp] theorem lvClr_hub_commits (a m : Nat) (s : State) : (lvClr a m s).hub.commits = s.hub.commits := rfl
@[simp] theorem lvClr_hub_lastCommit (a m : Nat) (s : State) : (lvClr a m s).hub.lastCommit = s.hub.lastCommit := rfl
@[simp] theorem lvClr_hub_arr (a m : Nat) (s : State) : (lvClr a m s).hub.arr = s.hub.arr := rfl
@[simp] theorem lvClr_hub_arrDirty (a m : Nat) (s : State) : (lvClr a m s).hub.arrDirty = s.hub.arrDirty := rfl
@[simp] theorem lvClr_hub_safeUnits (a m : Nat) (s : State) : (lvClr a m s).hub.safeUnits = s.hub.safeUnits := rfl
@[simp] theorem ctrUp_flt (a lo n : Nat) (s : State) : (ctrUp a lo n s).flt = s.flt :=
  by unfold ctrUp; dsimp only; split <;> rfl
@[simp] theorem ctrUp_time (a lo n : Nat) (s : State) : (ctrUp a lo n s).time = s.time :=
  by unfold ctrUp; dsimp only; split <;> rfl
@[simp] theorem ctrUp_grat (a lo n : Nat) (s : State) : (ctrUp a lo n s).grat = s.grat :=
  by unfold ctrUp; dsimp only; split <;> rfl
@[simp] theorem ctrUp_cmp (a lo n : Nat) (s : State) : (ctrUp a lo n s).cmp = s.cmp :=
  by unfold ctrUp; dsimp only; split <;> rfl
@[simp] theorem ctrUp_mem (a lo n : Nat) (s : State) : (ctrUp a lo n s).mem = s.mem :=
  by unfold ctrUp; dsimp only; split <;> rfl
@[simp] theorem ctrUp_eccBad (a lo n : Nat) (s : State) : (ctrUp a lo n s).eccBad = s.eccBad :=
  by unfold ctrUp; dsimp only; split <;> rfl
@[simp] theorem ctrUp_rdata (a lo n : Nat) (s : State) : (ctrUp a lo n s).rdata = s.rdata :=
  by unfold ctrUp; dsimp only; split <;> rfl
@[simp] theorem ctrUp_free (a lo n : Nat) (s : State) : (ctrUp a lo n s).free = s.free :=
  by unfold ctrUp; dsimp only; split <;> rfl
@[simp] theorem ctrUp_mix (a lo n : Nat) (s : State) : (ctrUp a lo n s).mix = s.mix :=
  by unfold ctrUp; dsimp only; split <;> rfl
@[simp] theorem ctrUp_eqs (a lo n : Nat) (s : State) : (ctrUp a lo n s).eqs = s.eqs :=
  by unfold ctrUp; dsimp only; split <;> rfl
@[simp] theorem ctrUp_str (a lo n : Nat) (s : State) : (ctrUp a lo n s).str = s.str :=
  by unfold ctrUp; dsimp only; split <;> rfl
@[simp] theorem ctrUp_sil (a lo n : Nat) (s : State) : (ctrUp a lo n s).sil = s.sil :=
  by unfold ctrUp; dsimp only; split <;> rfl
@[simp] theorem ctrUp_core (a lo n : Nat) (s : State) : (ctrUp a lo n s).core = s.core :=
  by unfold ctrUp; dsimp only; split <;> rfl
@[simp] theorem ctrUp_cl (a lo n : Nat) (s : State) : (ctrUp a lo n s).cl = s.cl :=
  by unfold ctrUp; dsimp only; split <;> rfl
@[simp] theorem ctrUp_sup (a lo n : Nat) (s : State) : (ctrUp a lo n s).sup = s.sup :=
  by unfold ctrUp; dsimp only; split <;> rfl
@[simp] theorem ctrUp_pwr (a lo n : Nat) (s : State) : (ctrUp a lo n s).pwr = s.pwr :=
  by unfold ctrUp; dsimp only; split <;> rfl
@[simp] theorem ctrUp_out (a lo n : Nat) (s : State) : (ctrUp a lo n s).out = s.out :=
  by unfold ctrUp; dsimp only; split <;> rfl
@[simp] theorem ctrUp_pair (a lo n : Nat) (s : State) : (ctrUp a lo n s).pair = s.pair :=
  by unfold ctrUp; dsimp only; split <;> rfl
@[simp] theorem ctrUp_ser (a lo n : Nat) (s : State) : (ctrUp a lo n s).ser = s.ser :=
  by unfold ctrUp; dsimp only; split <;> rfl
@[simp] theorem ctrUp_swx (a lo n : Nat) (s : State) : (ctrUp a lo n s).swx = s.swx :=
  by unfold ctrUp; dsimp only; split <;> rfl
@[simp] theorem ctrUp_gaz (a lo n : Nat) (s : State) : (ctrUp a lo n s).gaz = s.gaz :=
  by unfold ctrUp; dsimp only; split <;> rfl
@[simp] theorem ctrUp_svb (a lo n : Nat) (s : State) : (ctrUp a lo n s).svb = s.svb :=
  by unfold ctrUp; dsimp only; split <;> rfl
@[simp] theorem ctrUp_boot (a lo n : Nat) (s : State) : (ctrUp a lo n s).boot = s.boot :=
  by unfold ctrUp; dsimp only; split <;> rfl
@[simp] theorem ctrUp_host (a lo n : Nat) (s : State) : (ctrUp a lo n s).host = s.host :=
  by unfold ctrUp; dsimp only; split <;> rfl
@[simp] theorem ctrUp_frst (a lo n : Nat) (s : State) : (ctrUp a lo n s).frst = s.frst :=
  by unfold ctrUp; dsimp only; split <;> rfl
@[simp] theorem ctrUp_srv (a lo n : Nat) (s : State) : (ctrUp a lo n s).srv = s.srv :=
  by unfold ctrUp; dsimp only; split <;> rfl
@[simp] theorem ctrUp_pending (a lo n : Nat) (s : State) : (ctrUp a lo n s).pending = s.pending :=
  by unfold ctrUp; dsimp only; split <;> rfl
@[simp] theorem ctrUp_hub_shadow (a lo n : Nat) (s : State) : (ctrUp a lo n s).hub.shadow = s.hub.shadow :=
  by unfold ctrUp; dsimp only; split <;> rfl
@[simp] theorem ctrUp_hub_dirty (a lo n : Nat) (s : State) : (ctrUp a lo n s).hub.dirty = s.hub.dirty :=
  by unfold ctrUp; dsimp only; split <;> rfl
@[simp] theorem ctrUp_hub_pend (a lo n : Nat) (s : State) : (ctrUp a lo n s).hub.pend = s.hub.pend :=
  by unfold ctrUp; dsimp only; split <;> rfl
@[simp] theorem ctrUp_hub_liveBad (a lo n : Nat) (s : State) : (ctrUp a lo n s).hub.liveBad = s.hub.liveBad :=
  by unfold ctrUp; dsimp only; split <;> rfl
@[simp] theorem ctrUp_hub_shadowBad (a lo n : Nat) (s : State) : (ctrUp a lo n s).hub.shadowBad = s.hub.shadowBad :=
  by unfold ctrUp; dsimp only; split <;> rfl
@[simp] theorem ctrUp_hub_badFound (a lo n : Nat) (s : State) : (ctrUp a lo n s).hub.badFound = s.hub.badFound :=
  by unfold ctrUp; dsimp only; split <;> rfl
@[simp] theorem ctrUp_hub_w1Done (a lo n : Nat) (s : State) : (ctrUp a lo n s).hub.w1Done = s.hub.w1Done :=
  by unfold ctrUp; dsimp only; split <;> rfl
@[simp] theorem ctrUp_hub_latch (a lo n : Nat) (s : State) : (ctrUp a lo n s).hub.latch = s.hub.latch :=
  by unfold ctrUp; dsimp only; split <;> rfl
@[simp] theorem ctrUp_hub_hold (a lo n : Nat) (s : State) : (ctrUp a lo n s).hub.hold = s.hub.hold :=
  by unfold ctrUp; dsimp only; split <;> rfl
@[simp] theorem ctrUp_hub_held (a lo n : Nat) (s : State) : (ctrUp a lo n s).hub.held = s.hub.held :=
  by unfold ctrUp; dsimp only; split <;> rfl
@[simp] theorem ctrUp_hub_commits (a lo n : Nat) (s : State) : (ctrUp a lo n s).hub.commits = s.hub.commits :=
  by unfold ctrUp; dsimp only; split <;> rfl
@[simp] theorem ctrUp_hub_lastCommit (a lo n : Nat) (s : State) : (ctrUp a lo n s).hub.lastCommit = s.hub.lastCommit :=
  by unfold ctrUp; dsimp only; split <;> rfl
@[simp] theorem ctrUp_hub_arr (a lo n : Nat) (s : State) : (ctrUp a lo n s).hub.arr = s.hub.arr :=
  by unfold ctrUp; dsimp only; split <;> rfl
@[simp] theorem ctrUp_hub_arrDirty (a lo n : Nat) (s : State) : (ctrUp a lo n s).hub.arrDirty = s.hub.arrDirty :=
  by unfold ctrUp; dsimp only; split <;> rfl
@[simp] theorem ctrUp_hub_safeUnits (a lo n : Nat) (s : State) : (ctrUp a lo n s).hub.safeUnits = s.hub.safeUnits :=
  by unfold ctrUp; dsimp only; split <;> rfl
@[simp] theorem setArr_flt (a : Nat) (v : Word) (s : State) : (setArr a v s).flt = s.flt := rfl
@[simp] theorem setArr_time (a : Nat) (v : Word) (s : State) : (setArr a v s).time = s.time := rfl
@[simp] theorem setArr_grat (a : Nat) (v : Word) (s : State) : (setArr a v s).grat = s.grat := rfl
@[simp] theorem setArr_cmp (a : Nat) (v : Word) (s : State) : (setArr a v s).cmp = s.cmp := rfl
@[simp] theorem setArr_mem (a : Nat) (v : Word) (s : State) : (setArr a v s).mem = s.mem := rfl
@[simp] theorem setArr_eccBad (a : Nat) (v : Word) (s : State) : (setArr a v s).eccBad = s.eccBad := rfl
@[simp] theorem setArr_rdata (a : Nat) (v : Word) (s : State) : (setArr a v s).rdata = s.rdata := rfl
@[simp] theorem setArr_free (a : Nat) (v : Word) (s : State) : (setArr a v s).free = s.free := rfl
@[simp] theorem setArr_mix (a : Nat) (v : Word) (s : State) : (setArr a v s).mix = s.mix := rfl
@[simp] theorem setArr_eqs (a : Nat) (v : Word) (s : State) : (setArr a v s).eqs = s.eqs := rfl
@[simp] theorem setArr_str (a : Nat) (v : Word) (s : State) : (setArr a v s).str = s.str := rfl
@[simp] theorem setArr_sil (a : Nat) (v : Word) (s : State) : (setArr a v s).sil = s.sil := rfl
@[simp] theorem setArr_core (a : Nat) (v : Word) (s : State) : (setArr a v s).core = s.core := rfl
@[simp] theorem setArr_cl (a : Nat) (v : Word) (s : State) : (setArr a v s).cl = s.cl := rfl
@[simp] theorem setArr_sup (a : Nat) (v : Word) (s : State) : (setArr a v s).sup = s.sup := rfl
@[simp] theorem setArr_pwr (a : Nat) (v : Word) (s : State) : (setArr a v s).pwr = s.pwr := rfl
@[simp] theorem setArr_out (a : Nat) (v : Word) (s : State) : (setArr a v s).out = s.out := rfl
@[simp] theorem setArr_pair (a : Nat) (v : Word) (s : State) : (setArr a v s).pair = s.pair := rfl
@[simp] theorem setArr_ser (a : Nat) (v : Word) (s : State) : (setArr a v s).ser = s.ser := rfl
@[simp] theorem setArr_swx (a : Nat) (v : Word) (s : State) : (setArr a v s).swx = s.swx := rfl
@[simp] theorem setArr_gaz (a : Nat) (v : Word) (s : State) : (setArr a v s).gaz = s.gaz := rfl
@[simp] theorem setArr_svb (a : Nat) (v : Word) (s : State) : (setArr a v s).svb = s.svb := rfl
@[simp] theorem setArr_boot (a : Nat) (v : Word) (s : State) : (setArr a v s).boot = s.boot := rfl
@[simp] theorem setArr_host (a : Nat) (v : Word) (s : State) : (setArr a v s).host = s.host := rfl
@[simp] theorem setArr_frst (a : Nat) (v : Word) (s : State) : (setArr a v s).frst = s.frst := rfl
@[simp] theorem setArr_srv (a : Nat) (v : Word) (s : State) : (setArr a v s).srv = s.srv := rfl
@[simp] theorem setArr_pending (a : Nat) (v : Word) (s : State) : (setArr a v s).pending = s.pending := rfl
@[simp] theorem setArr_hub_live (a : Nat) (v : Word) (s : State) : (setArr a v s).hub.live = s.hub.live := rfl
@[simp] theorem setArr_hub_shadow (a : Nat) (v : Word) (s : State) : (setArr a v s).hub.shadow = s.hub.shadow := rfl
@[simp] theorem setArr_hub_dirty (a : Nat) (v : Word) (s : State) : (setArr a v s).hub.dirty = s.hub.dirty := rfl
@[simp] theorem setArr_hub_pend (a : Nat) (v : Word) (s : State) : (setArr a v s).hub.pend = s.hub.pend := rfl
@[simp] theorem setArr_hub_liveBad (a : Nat) (v : Word) (s : State) : (setArr a v s).hub.liveBad = s.hub.liveBad :=
  rfl
@[simp] theorem setArr_hub_shadowBad (a : Nat) (v : Word) (s : State) : (setArr a v s).hub.shadowBad = s.hub.shadowBad :=
  rfl
@[simp] theorem setArr_hub_badFound (a : Nat) (v : Word) (s : State) : (setArr a v s).hub.badFound = s.hub.badFound :=
  rfl
@[simp] theorem setArr_hub_w1Done (a : Nat) (v : Word) (s : State) : (setArr a v s).hub.w1Done = s.hub.w1Done := rfl
@[simp] theorem setArr_hub_latch (a : Nat) (v : Word) (s : State) : (setArr a v s).hub.latch = s.hub.latch := rfl
@[simp] theorem setArr_hub_hold (a : Nat) (v : Word) (s : State) : (setArr a v s).hub.hold = s.hub.hold := rfl
@[simp] theorem setArr_hub_held (a : Nat) (v : Word) (s : State) : (setArr a v s).hub.held = s.hub.held := rfl
@[simp] theorem setArr_hub_commits (a : Nat) (v : Word) (s : State) : (setArr a v s).hub.commits = s.hub.commits :=
  rfl
@[simp] theorem setArr_hub_lastCommit (a : Nat) (v : Word) (s : State) : (setArr a v s).hub.lastCommit = s.hub.lastCommit :=
  rfl
@[simp] theorem setArr_hub_arrDirty (a : Nat) (v : Word) (s : State) : (setArr a v s).hub.arrDirty = s.hub.arrDirty :=
  rfl
@[simp] theorem setArr_hub_safeUnits (a : Nat) (v : Word) (s : State) : (setArr a v s).hub.safeUnits = s.hub.safeUnits :=
  rfl
@[simp] theorem raise_hub (code cls inst arg : Nat) (s : State) : (raise code cls inst arg s).hub = s.hub := rfl
@[simp] theorem raise_time (code cls inst arg : Nat) (s : State) : (raise code cls inst arg s).time = s.time := rfl
@[simp] theorem raise_grat (code cls inst arg : Nat) (s : State) : (raise code cls inst arg s).grat = s.grat := rfl
@[simp] theorem raise_cmp (code cls inst arg : Nat) (s : State) : (raise code cls inst arg s).cmp = s.cmp := rfl
@[simp] theorem raise_mem (code cls inst arg : Nat) (s : State) : (raise code cls inst arg s).mem = s.mem := rfl
@[simp] theorem raise_eccBad (code cls inst arg : Nat) (s : State) : (raise code cls inst arg s).eccBad = s.eccBad :=
  rfl
@[simp] theorem raise_rdata (code cls inst arg : Nat) (s : State) : (raise code cls inst arg s).rdata = s.rdata := rfl
@[simp] theorem raise_free (code cls inst arg : Nat) (s : State) : (raise code cls inst arg s).free = s.free := rfl
@[simp] theorem raise_mix (code cls inst arg : Nat) (s : State) : (raise code cls inst arg s).mix = s.mix := rfl
@[simp] theorem raise_eqs (code cls inst arg : Nat) (s : State) : (raise code cls inst arg s).eqs = s.eqs := rfl
@[simp] theorem raise_str (code cls inst arg : Nat) (s : State) : (raise code cls inst arg s).str = s.str := rfl
@[simp] theorem raise_sil (code cls inst arg : Nat) (s : State) : (raise code cls inst arg s).sil = s.sil := rfl
@[simp] theorem raise_core (code cls inst arg : Nat) (s : State) : (raise code cls inst arg s).core = s.core := rfl
@[simp] theorem raise_cl (code cls inst arg : Nat) (s : State) : (raise code cls inst arg s).cl = s.cl := rfl
@[simp] theorem raise_sup (code cls inst arg : Nat) (s : State) : (raise code cls inst arg s).sup = s.sup := rfl
@[simp] theorem raise_pwr (code cls inst arg : Nat) (s : State) : (raise code cls inst arg s).pwr = s.pwr := rfl
@[simp] theorem raise_out (code cls inst arg : Nat) (s : State) : (raise code cls inst arg s).out = s.out := rfl
@[simp] theorem raise_pair (code cls inst arg : Nat) (s : State) : (raise code cls inst arg s).pair = s.pair := rfl
@[simp] theorem raise_ser (code cls inst arg : Nat) (s : State) : (raise code cls inst arg s).ser = s.ser := rfl
@[simp] theorem raise_swx (code cls inst arg : Nat) (s : State) : (raise code cls inst arg s).swx = s.swx := rfl
@[simp] theorem raise_gaz (code cls inst arg : Nat) (s : State) : (raise code cls inst arg s).gaz = s.gaz := rfl
@[simp] theorem raise_svb (code cls inst arg : Nat) (s : State) : (raise code cls inst arg s).svb = s.svb := rfl
@[simp] theorem raise_boot (code cls inst arg : Nat) (s : State) : (raise code cls inst arg s).boot = s.boot := rfl
@[simp] theorem raise_host (code cls inst arg : Nat) (s : State) : (raise code cls inst arg s).host = s.host := rfl
@[simp] theorem raise_frst (code cls inst arg : Nat) (s : State) : (raise code cls inst arg s).frst = s.frst := rfl
@[simp] theorem raise_srv (code cls inst arg : Nat) (s : State) : (raise code cls inst arg s).srv = s.srv := rfl
@[simp] theorem raise_pending (code cls inst arg : Nat) (s : State) : (raise code cls inst arg s).pending = s.pending :=
  rfl
@[simp] theorem raise_flt_slots (code cls inst arg : Nat) (s : State) : (raise code cls inst arg s).flt.slots = s.flt.slots :=
  rfl
@[simp] theorem raise_flt_queue (code cls inst arg : Nat) (s : State) : (raise code cls inst arg s).flt.queue = s.flt.queue :=
  rfl
@[simp] theorem raise_flt_safe (code cls inst arg : Nat) (s : State) : (raise code cls inst arg s).flt.safe = s.flt.safe :=
  rfl
@[simp] theorem raise_flt_arrivals (code cls inst arg : Nat) (s : State) : (raise code cls inst arg s).flt.arrivals = s.flt.arrivals :=
  rfl
@[simp] theorem raise_flt_wdogAt (code cls inst arg : Nat) (s : State) : (raise code cls inst arg s).flt.wdogAt = s.flt.wdogAt :=
  rfl
@[simp] theorem raise_flt_wdogOn (code cls inst arg : Nat) (s : State) : (raise code cls inst arg s).flt.wdogOn = s.flt.wdogOn :=
  rfl
@[simp] theorem raise_flt_zlog (code cls inst arg : Nat) (s : State) : (raise code cls inst arg s).flt.zlog = s.flt.zlog :=
  rfl
@[simp] theorem raise_flt_zNext (code cls inst arg : Nat) (s : State) : (raise code cls inst arg s).flt.zNext = s.flt.zNext :=
  rfl
@[simp] theorem raise_flt_zCount (code cls inst arg : Nat) (s : State) : (raise code cls inst arg s).flt.zCount = s.flt.zCount :=
  rfl
@[simp] theorem raise_flt_zValid (code cls inst arg : Nat) (s : State) : (raise code cls inst arg s).flt.zValid = s.flt.zValid :=
  rfl
@[simp] theorem srvUp_hub (b i n : Nat) (s : State) : (srvUp b i n s).hub = s.hub := by unfold srvUp; split <;> rfl
@[simp] theorem srvUp_flt (b i n : Nat) (s : State) : (srvUp b i n s).flt = s.flt := by unfold srvUp; split <;> rfl
@[simp] theorem srvUp_time (b i n : Nat) (s : State) : (srvUp b i n s).time = s.time := by unfold srvUp; split <;> rfl
@[simp] theorem srvUp_grat (b i n : Nat) (s : State) : (srvUp b i n s).grat = s.grat := by unfold srvUp; split <;> rfl
@[simp] theorem srvUp_cmp (b i n : Nat) (s : State) : (srvUp b i n s).cmp = s.cmp := by unfold srvUp; split <;> rfl
@[simp] theorem srvUp_mem (b i n : Nat) (s : State) : (srvUp b i n s).mem = s.mem := by unfold srvUp; split <;> rfl
@[simp] theorem srvUp_eccBad (b i n : Nat) (s : State) : (srvUp b i n s).eccBad = s.eccBad :=
  by unfold srvUp; split <;> rfl
@[simp] theorem srvUp_rdata (b i n : Nat) (s : State) : (srvUp b i n s).rdata = s.rdata :=
  by unfold srvUp; split <;> rfl
@[simp] theorem srvUp_free (b i n : Nat) (s : State) : (srvUp b i n s).free = s.free := by unfold srvUp; split <;> rfl
@[simp] theorem srvUp_mix (b i n : Nat) (s : State) : (srvUp b i n s).mix = s.mix := by unfold srvUp; split <;> rfl
@[simp] theorem srvUp_eqs (b i n : Nat) (s : State) : (srvUp b i n s).eqs = s.eqs := by unfold srvUp; split <;> rfl
@[simp] theorem srvUp_str (b i n : Nat) (s : State) : (srvUp b i n s).str = s.str := by unfold srvUp; split <;> rfl
@[simp] theorem srvUp_sil (b i n : Nat) (s : State) : (srvUp b i n s).sil = s.sil := by unfold srvUp; split <;> rfl
@[simp] theorem srvUp_core (b i n : Nat) (s : State) : (srvUp b i n s).core = s.core := by unfold srvUp; split <;> rfl
@[simp] theorem srvUp_cl (b i n : Nat) (s : State) : (srvUp b i n s).cl = s.cl := by unfold srvUp; split <;> rfl
@[simp] theorem srvUp_sup (b i n : Nat) (s : State) : (srvUp b i n s).sup = s.sup := by unfold srvUp; split <;> rfl
@[simp] theorem srvUp_pwr (b i n : Nat) (s : State) : (srvUp b i n s).pwr = s.pwr := by unfold srvUp; split <;> rfl
@[simp] theorem srvUp_out (b i n : Nat) (s : State) : (srvUp b i n s).out = s.out := by unfold srvUp; split <;> rfl
@[simp] theorem srvUp_pair (b i n : Nat) (s : State) : (srvUp b i n s).pair = s.pair := by unfold srvUp; split <;> rfl
@[simp] theorem srvUp_ser (b i n : Nat) (s : State) : (srvUp b i n s).ser = s.ser := by unfold srvUp; split <;> rfl
@[simp] theorem srvUp_swx (b i n : Nat) (s : State) : (srvUp b i n s).swx = s.swx := by unfold srvUp; split <;> rfl
@[simp] theorem srvUp_gaz (b i n : Nat) (s : State) : (srvUp b i n s).gaz = s.gaz := by unfold srvUp; split <;> rfl
@[simp] theorem srvUp_svb (b i n : Nat) (s : State) : (srvUp b i n s).svb = s.svb := by unfold srvUp; split <;> rfl
@[simp] theorem srvUp_boot (b i n : Nat) (s : State) : (srvUp b i n s).boot = s.boot := by unfold srvUp; split <;> rfl
@[simp] theorem srvUp_host (b i n : Nat) (s : State) : (srvUp b i n s).host = s.host := by unfold srvUp; split <;> rfl
@[simp] theorem srvUp_frst (b i n : Nat) (s : State) : (srvUp b i n s).frst = s.frst := by unfold srvUp; split <;> rfl
@[simp] theorem srvUp_pending (b i n : Nat) (s : State) : (srvUp b i n s).pending = s.pending :=
  by unfold srvUp; split <;> rfl
@[simp] theorem srvUp_srv_core (b i n : Nat) (s : State) : (srvUp b i n s).srv.core = s.srv.core :=
  by unfold srvUp; split <;> rfl
@[simp] theorem srvUp_srv_snapCtr (b i n : Nat) (s : State) : (srvUp b i n s).srv.snapCtr = s.srv.snapCtr :=
  by unfold srvUp; split <;> rfl
@[simp] theorem srvUp_srv_snapCore (b i n : Nat) (s : State) : (srvUp b i n s).srv.snapCore = s.srv.snapCore :=
  by unfold srvUp; split <;> rfl
@[simp] theorem srvUp_srv_latCtr (b i n : Nat) (s : State) : (srvUp b i n s).srv.latCtr = s.srv.latCtr :=
  by unfold srvUp; split <;> rfl
@[simp] theorem srvUp_srv_latCore (b i n : Nat) (s : State) : (srvUp b i n s).srv.latCore = s.srv.latCore :=
  by unfold srvUp; split <;> rfl
@[simp] theorem srvUp_srv_frozen (b i n : Nat) (s : State) : (srvUp b i n s).srv.frozen = s.srv.frozen :=
  by unfold srvUp; split <;> rfl
@[simp] theorem srvUp_srv_busy (b i n : Nat) (s : State) : (srvUp b i n s).srv.busy = s.srv.busy :=
  by unfold srvUp; split <;> rfl
@[simp] theorem srvUp_srv_copy (b i n : Nat) (s : State) : (srvUp b i n s).srv.copy = s.srv.copy :=
  by unfold srvUp; split <;> rfl
@[simp] theorem srvUp_srv_acts (b i n : Nat) (s : State) : (srvUp b i n s).srv.acts = s.srv.acts :=
  by unfold srvUp; split <;> rfl
@[simp] theorem srvUp_srv_seq (b i n : Nat) (s : State) : (srvUp b i n s).srv.seq = s.srv.seq :=
  by unfold srvUp; split <;> rfl
@[simp] theorem srvUp_srv_snapCyc (b i n : Nat) (s : State) : (srvUp b i n s).srv.snapCyc = s.srv.snapCyc :=
  by unfold srvUp; split <;> rfl
@[simp] theorem srvUp_srv_lfsr (b i n : Nat) (s : State) : (srvUp b i n s).srv.lfsr = s.srv.lfsr :=
  by unfold srvUp; split <;> rfl
@[simp] theorem srvUp_srv_count (b i n : Nat) (s : State) : (srvUp b i n s).srv.count = s.srv.count :=
  by unfold srvUp; split <;> rfl
@[simp] theorem srvUp_srv_wait (b i n : Nat) (s : State) : (srvUp b i n s).srv.wait = s.srv.wait :=
  by unfold srvUp; split <;> rfl
@[simp] theorem srvUp_srv_smp (b i n : Nat) (s : State) : (srvUp b i n s).srv.smp = s.srv.smp :=
  by unfold srvUp; split <;> rfl
@[simp] theorem srvUp_srv_next (b i n : Nat) (s : State) : (srvUp b i n s).srv.next = s.srv.next :=
  by unfold srvUp; split <;> rfl
@[simp] theorem srvUp_srv_fill (b i n : Nat) (s : State) : (srvUp b i n s).srv.fill = s.srv.fill :=
  by unfold srvUp; split <;> rfl
@[simp] theorem srvUp_srv_full (b i n : Nat) (s : State) : (srvUp b i n s).srv.full = s.srv.full :=
  by unfold srvUp; split <;> rfl
@[simp] theorem srvUp_srv_held (b i n : Nat) (s : State) : (srvUp b i n s).srv.held = s.srv.held :=
  by unfold srvUp; split <;> rfl
@[simp] theorem srvCore_hub (k i n : Nat) (s : State) : (srvCore k i n s).hub = s.hub :=
  by unfold srvCore; split <;> rfl
@[simp] theorem srvCore_flt (k i n : Nat) (s : State) : (srvCore k i n s).flt = s.flt :=
  by unfold srvCore; split <;> rfl
@[simp] theorem srvCore_time (k i n : Nat) (s : State) : (srvCore k i n s).time = s.time :=
  by unfold srvCore; split <;> rfl
@[simp] theorem srvCore_grat (k i n : Nat) (s : State) : (srvCore k i n s).grat = s.grat :=
  by unfold srvCore; split <;> rfl
@[simp] theorem srvCore_cmp (k i n : Nat) (s : State) : (srvCore k i n s).cmp = s.cmp :=
  by unfold srvCore; split <;> rfl
@[simp] theorem srvCore_mem (k i n : Nat) (s : State) : (srvCore k i n s).mem = s.mem :=
  by unfold srvCore; split <;> rfl
@[simp] theorem srvCore_eccBad (k i n : Nat) (s : State) : (srvCore k i n s).eccBad = s.eccBad :=
  by unfold srvCore; split <;> rfl
@[simp] theorem srvCore_rdata (k i n : Nat) (s : State) : (srvCore k i n s).rdata = s.rdata :=
  by unfold srvCore; split <;> rfl
@[simp] theorem srvCore_free (k i n : Nat) (s : State) : (srvCore k i n s).free = s.free :=
  by unfold srvCore; split <;> rfl
@[simp] theorem srvCore_mix (k i n : Nat) (s : State) : (srvCore k i n s).mix = s.mix :=
  by unfold srvCore; split <;> rfl
@[simp] theorem srvCore_eqs (k i n : Nat) (s : State) : (srvCore k i n s).eqs = s.eqs :=
  by unfold srvCore; split <;> rfl
@[simp] theorem srvCore_str (k i n : Nat) (s : State) : (srvCore k i n s).str = s.str :=
  by unfold srvCore; split <;> rfl
@[simp] theorem srvCore_sil (k i n : Nat) (s : State) : (srvCore k i n s).sil = s.sil :=
  by unfold srvCore; split <;> rfl
@[simp] theorem srvCore_core (k i n : Nat) (s : State) : (srvCore k i n s).core = s.core :=
  by unfold srvCore; split <;> rfl
@[simp] theorem srvCore_cl (k i n : Nat) (s : State) : (srvCore k i n s).cl = s.cl := by unfold srvCore; split <;> rfl
@[simp] theorem srvCore_sup (k i n : Nat) (s : State) : (srvCore k i n s).sup = s.sup :=
  by unfold srvCore; split <;> rfl
@[simp] theorem srvCore_pwr (k i n : Nat) (s : State) : (srvCore k i n s).pwr = s.pwr :=
  by unfold srvCore; split <;> rfl
@[simp] theorem srvCore_out (k i n : Nat) (s : State) : (srvCore k i n s).out = s.out :=
  by unfold srvCore; split <;> rfl
@[simp] theorem srvCore_pair (k i n : Nat) (s : State) : (srvCore k i n s).pair = s.pair :=
  by unfold srvCore; split <;> rfl
@[simp] theorem srvCore_ser (k i n : Nat) (s : State) : (srvCore k i n s).ser = s.ser :=
  by unfold srvCore; split <;> rfl
@[simp] theorem srvCore_swx (k i n : Nat) (s : State) : (srvCore k i n s).swx = s.swx :=
  by unfold srvCore; split <;> rfl
@[simp] theorem srvCore_gaz (k i n : Nat) (s : State) : (srvCore k i n s).gaz = s.gaz :=
  by unfold srvCore; split <;> rfl
@[simp] theorem srvCore_svb (k i n : Nat) (s : State) : (srvCore k i n s).svb = s.svb :=
  by unfold srvCore; split <;> rfl
@[simp] theorem srvCore_boot (k i n : Nat) (s : State) : (srvCore k i n s).boot = s.boot :=
  by unfold srvCore; split <;> rfl
@[simp] theorem srvCore_host (k i n : Nat) (s : State) : (srvCore k i n s).host = s.host :=
  by unfold srvCore; split <;> rfl
@[simp] theorem srvCore_frst (k i n : Nat) (s : State) : (srvCore k i n s).frst = s.frst :=
  by unfold srvCore; split <;> rfl
@[simp] theorem srvCore_pending (k i n : Nat) (s : State) : (srvCore k i n s).pending = s.pending :=
  by unfold srvCore; split <;> rfl
@[simp] theorem srvCore_srv_ctr (k i n : Nat) (s : State) : (srvCore k i n s).srv.ctr = s.srv.ctr :=
  by unfold srvCore; split <;> rfl
@[simp] theorem srvCore_srv_snapCtr (k i n : Nat) (s : State) : (srvCore k i n s).srv.snapCtr = s.srv.snapCtr :=
  by unfold srvCore; split <;> rfl
@[simp] theorem srvCore_srv_snapCore (k i n : Nat) (s : State) : (srvCore k i n s).srv.snapCore = s.srv.snapCore :=
  by unfold srvCore; split <;> rfl
@[simp] theorem srvCore_srv_latCtr (k i n : Nat) (s : State) : (srvCore k i n s).srv.latCtr = s.srv.latCtr :=
  by unfold srvCore; split <;> rfl
@[simp] theorem srvCore_srv_latCore (k i n : Nat) (s : State) : (srvCore k i n s).srv.latCore = s.srv.latCore :=
  by unfold srvCore; split <;> rfl
@[simp] theorem srvCore_srv_frozen (k i n : Nat) (s : State) : (srvCore k i n s).srv.frozen = s.srv.frozen :=
  by unfold srvCore; split <;> rfl
@[simp] theorem srvCore_srv_busy (k i n : Nat) (s : State) : (srvCore k i n s).srv.busy = s.srv.busy :=
  by unfold srvCore; split <;> rfl
@[simp] theorem srvCore_srv_copy (k i n : Nat) (s : State) : (srvCore k i n s).srv.copy = s.srv.copy :=
  by unfold srvCore; split <;> rfl
@[simp] theorem srvCore_srv_acts (k i n : Nat) (s : State) : (srvCore k i n s).srv.acts = s.srv.acts :=
  by unfold srvCore; split <;> rfl
@[simp] theorem srvCore_srv_seq (k i n : Nat) (s : State) : (srvCore k i n s).srv.seq = s.srv.seq :=
  by unfold srvCore; split <;> rfl
@[simp] theorem srvCore_srv_snapCyc (k i n : Nat) (s : State) : (srvCore k i n s).srv.snapCyc = s.srv.snapCyc :=
  by unfold srvCore; split <;> rfl
@[simp] theorem srvCore_srv_lfsr (k i n : Nat) (s : State) : (srvCore k i n s).srv.lfsr = s.srv.lfsr :=
  by unfold srvCore; split <;> rfl
@[simp] theorem srvCore_srv_count (k i n : Nat) (s : State) : (srvCore k i n s).srv.count = s.srv.count :=
  by unfold srvCore; split <;> rfl
@[simp] theorem srvCore_srv_wait (k i n : Nat) (s : State) : (srvCore k i n s).srv.wait = s.srv.wait :=
  by unfold srvCore; split <;> rfl
@[simp] theorem srvCore_srv_smp (k i n : Nat) (s : State) : (srvCore k i n s).srv.smp = s.srv.smp :=
  by unfold srvCore; split <;> rfl
@[simp] theorem srvCore_srv_next (k i n : Nat) (s : State) : (srvCore k i n s).srv.next = s.srv.next :=
  by unfold srvCore; split <;> rfl
@[simp] theorem srvCore_srv_fill (k i n : Nat) (s : State) : (srvCore k i n s).srv.fill = s.srv.fill :=
  by unfold srvCore; split <;> rfl
@[simp] theorem srvCore_srv_full (k i n : Nat) (s : State) : (srvCore k i n s).srv.full = s.srv.full :=
  by unfold srvCore; split <;> rfl
@[simp] theorem srvCore_srv_held (k i n : Nat) (s : State) : (srvCore k i n s).srv.held = s.srv.held :=
  by unfold srvCore; split <;> rfl
@[simp] theorem atLc_hub (lc : Nat) (s : State) : (atLc lc s).hub = s.hub := rfl
@[simp] theorem atLc_flt (lc : Nat) (s : State) : (atLc lc s).flt = s.flt := rfl
@[simp] theorem atLc_grat (lc : Nat) (s : State) : (atLc lc s).grat = s.grat := rfl
@[simp] theorem atLc_cmp (lc : Nat) (s : State) : (atLc lc s).cmp = s.cmp := rfl
@[simp] theorem atLc_mem (lc : Nat) (s : State) : (atLc lc s).mem = s.mem := rfl
@[simp] theorem atLc_eccBad (lc : Nat) (s : State) : (atLc lc s).eccBad = s.eccBad := rfl
@[simp] theorem atLc_rdata (lc : Nat) (s : State) : (atLc lc s).rdata = s.rdata := rfl
@[simp] theorem atLc_free (lc : Nat) (s : State) : (atLc lc s).free = s.free := rfl
@[simp] theorem atLc_mix (lc : Nat) (s : State) : (atLc lc s).mix = s.mix := rfl
@[simp] theorem atLc_eqs (lc : Nat) (s : State) : (atLc lc s).eqs = s.eqs := rfl
@[simp] theorem atLc_str (lc : Nat) (s : State) : (atLc lc s).str = s.str := rfl
@[simp] theorem atLc_sil (lc : Nat) (s : State) : (atLc lc s).sil = s.sil := rfl
@[simp] theorem atLc_core (lc : Nat) (s : State) : (atLc lc s).core = s.core := rfl
@[simp] theorem atLc_cl (lc : Nat) (s : State) : (atLc lc s).cl = s.cl := rfl
@[simp] theorem atLc_sup (lc : Nat) (s : State) : (atLc lc s).sup = s.sup := rfl
@[simp] theorem atLc_pwr (lc : Nat) (s : State) : (atLc lc s).pwr = s.pwr := rfl
@[simp] theorem atLc_out (lc : Nat) (s : State) : (atLc lc s).out = s.out := rfl
@[simp] theorem atLc_pair (lc : Nat) (s : State) : (atLc lc s).pair = s.pair := rfl
@[simp] theorem atLc_ser (lc : Nat) (s : State) : (atLc lc s).ser = s.ser := rfl
@[simp] theorem atLc_swx (lc : Nat) (s : State) : (atLc lc s).swx = s.swx := rfl
@[simp] theorem atLc_gaz (lc : Nat) (s : State) : (atLc lc s).gaz = s.gaz := rfl
@[simp] theorem atLc_svb (lc : Nat) (s : State) : (atLc lc s).svb = s.svb := rfl
@[simp] theorem atLc_boot (lc : Nat) (s : State) : (atLc lc s).boot = s.boot := rfl
@[simp] theorem atLc_host (lc : Nat) (s : State) : (atLc lc s).host = s.host := rfl
@[simp] theorem atLc_frst (lc : Nat) (s : State) : (atLc lc s).frst = s.frst := rfl
@[simp] theorem atLc_srv (lc : Nat) (s : State) : (atLc lc s).srv = s.srv := rfl
@[simp] theorem atLc_pending (lc : Nat) (s : State) : (atLc lc s).pending = s.pending := rfl
@[simp] theorem atLc_time_offset (lc : Nat) (s : State) : (atLc lc s).time.offset = s.time.offset := rfl
@[simp] theorem atLc_time_rate (lc : Nat) (s : State) : (atLc lc s).time.rate = s.time.rate := rfl
@[simp] theorem atLc_time_stepCnt (lc : Nat) (s : State) : (atLc lc s).time.stepCnt = s.time.stepCnt := rfl
@[simp] theorem atLc_time_tev (lc : Nat) (s : State) : (atLc lc s).time.tev = s.time.tev := rfl
@[simp] theorem atLc_time_ppsNext (lc : Nat) (s : State) : (atLc lc s).time.ppsNext = s.time.ppsNext := rfl
@[simp] theorem atLc_time_ppsOn (lc : Nat) (s : State) : (atLc lc s).time.ppsOn = s.time.ppsOn := rfl
@[simp] theorem atLc_time_ppsEnd (lc : Nat) (s : State) : (atLc lc s).time.ppsEnd = s.time.ppsEnd := rfl
@[simp] theorem atLc_time_outOfs (lc : Nat) (s : State) : (atLc lc s).time.outOfs = s.time.outOfs := rfl
@[simp] theorem atLc_time_tcap (lc : Nat) (s : State) : (atLc lc s).time.tcap = s.time.tcap := rfl
@[simp] theorem atLc_time_txf (lc : Nat) (s : State) : (atLc lc s).time.txf = s.time.txf := rfl
@[simp] theorem atLc_time_txDrop (lc : Nat) (s : State) : (atLc lc s).time.txDrop = s.time.txDrop := rfl
@[simp] theorem atFt_hub (ft : Nat) (s : State) : (atFt ft s).hub = s.hub := rfl
@[simp] theorem atFt_flt (ft : Nat) (s : State) : (atFt ft s).flt = s.flt := rfl
@[simp] theorem atFt_grat (ft : Nat) (s : State) : (atFt ft s).grat = s.grat := rfl
@[simp] theorem atFt_cmp (ft : Nat) (s : State) : (atFt ft s).cmp = s.cmp := rfl
@[simp] theorem atFt_mem (ft : Nat) (s : State) : (atFt ft s).mem = s.mem := rfl
@[simp] theorem atFt_eccBad (ft : Nat) (s : State) : (atFt ft s).eccBad = s.eccBad := rfl
@[simp] theorem atFt_rdata (ft : Nat) (s : State) : (atFt ft s).rdata = s.rdata := rfl
@[simp] theorem atFt_free (ft : Nat) (s : State) : (atFt ft s).free = s.free := rfl
@[simp] theorem atFt_mix (ft : Nat) (s : State) : (atFt ft s).mix = s.mix := rfl
@[simp] theorem atFt_eqs (ft : Nat) (s : State) : (atFt ft s).eqs = s.eqs := rfl
@[simp] theorem atFt_str (ft : Nat) (s : State) : (atFt ft s).str = s.str := rfl
@[simp] theorem atFt_sil (ft : Nat) (s : State) : (atFt ft s).sil = s.sil := rfl
@[simp] theorem atFt_core (ft : Nat) (s : State) : (atFt ft s).core = s.core := rfl
@[simp] theorem atFt_cl (ft : Nat) (s : State) : (atFt ft s).cl = s.cl := rfl
@[simp] theorem atFt_sup (ft : Nat) (s : State) : (atFt ft s).sup = s.sup := rfl
@[simp] theorem atFt_pwr (ft : Nat) (s : State) : (atFt ft s).pwr = s.pwr := rfl
@[simp] theorem atFt_out (ft : Nat) (s : State) : (atFt ft s).out = s.out := rfl
@[simp] theorem atFt_pair (ft : Nat) (s : State) : (atFt ft s).pair = s.pair := rfl
@[simp] theorem atFt_ser (ft : Nat) (s : State) : (atFt ft s).ser = s.ser := rfl
@[simp] theorem atFt_swx (ft : Nat) (s : State) : (atFt ft s).swx = s.swx := rfl
@[simp] theorem atFt_gaz (ft : Nat) (s : State) : (atFt ft s).gaz = s.gaz := rfl
@[simp] theorem atFt_svb (ft : Nat) (s : State) : (atFt ft s).svb = s.svb := rfl
@[simp] theorem atFt_boot (ft : Nat) (s : State) : (atFt ft s).boot = s.boot := rfl
@[simp] theorem atFt_host (ft : Nat) (s : State) : (atFt ft s).host = s.host := rfl
@[simp] theorem atFt_frst (ft : Nat) (s : State) : (atFt ft s).frst = s.frst := rfl
@[simp] theorem atFt_srv (ft : Nat) (s : State) : (atFt ft s).srv = s.srv := rfl
@[simp] theorem atFt_pending (ft : Nat) (s : State) : (atFt ft s).pending = s.pending := rfl
@[simp] theorem atFt_time_offset (ft : Nat) (s : State) : (atFt ft s).time.offset = s.time.offset := rfl
@[simp] theorem atFt_time_rate (ft : Nat) (s : State) : (atFt ft s).time.rate = s.time.rate := rfl
@[simp] theorem atFt_time_stepCnt (ft : Nat) (s : State) : (atFt ft s).time.stepCnt = s.time.stepCnt := rfl
@[simp] theorem atFt_time_tev (ft : Nat) (s : State) : (atFt ft s).time.tev = s.time.tev := rfl
@[simp] theorem atFt_time_ppsNext (ft : Nat) (s : State) : (atFt ft s).time.ppsNext = s.time.ppsNext := rfl
@[simp] theorem atFt_time_ppsOn (ft : Nat) (s : State) : (atFt ft s).time.ppsOn = s.time.ppsOn := rfl
@[simp] theorem atFt_time_ppsEnd (ft : Nat) (s : State) : (atFt ft s).time.ppsEnd = s.time.ppsEnd := rfl
@[simp] theorem atFt_time_outOfs (ft : Nat) (s : State) : (atFt ft s).time.outOfs = s.time.outOfs := rfl
@[simp] theorem atFt_time_tcap (ft : Nat) (s : State) : (atFt ft s).time.tcap = s.time.tcap := rfl
@[simp] theorem atFt_time_txf (ft : Nat) (s : State) : (atFt ft s).time.txf = s.time.txf := rfl
@[simp] theorem atFt_time_txDrop (ft : Nat) (s : State) : (atFt ft s).time.txDrop = s.time.txDrop := rfl
@[simp] theorem mStore_hub (a : Nat) (v : Byte) (s : State) : (mStore a v s).hub = s.hub := rfl
@[simp] theorem mStore_flt (a : Nat) (v : Byte) (s : State) : (mStore a v s).flt = s.flt := rfl
@[simp] theorem mStore_time (a : Nat) (v : Byte) (s : State) : (mStore a v s).time = s.time := rfl
@[simp] theorem mStore_grat (a : Nat) (v : Byte) (s : State) : (mStore a v s).grat = s.grat := rfl
@[simp] theorem mStore_cmp (a : Nat) (v : Byte) (s : State) : (mStore a v s).cmp = s.cmp := rfl
@[simp] theorem mStore_eccBad (a : Nat) (v : Byte) (s : State) : (mStore a v s).eccBad = s.eccBad := rfl
@[simp] theorem mStore_rdata (a : Nat) (v : Byte) (s : State) : (mStore a v s).rdata = s.rdata := rfl
@[simp] theorem mStore_free (a : Nat) (v : Byte) (s : State) : (mStore a v s).free = s.free := rfl
@[simp] theorem mStore_mix (a : Nat) (v : Byte) (s : State) : (mStore a v s).mix = s.mix := rfl
@[simp] theorem mStore_eqs (a : Nat) (v : Byte) (s : State) : (mStore a v s).eqs = s.eqs := rfl
@[simp] theorem mStore_str (a : Nat) (v : Byte) (s : State) : (mStore a v s).str = s.str := rfl
@[simp] theorem mStore_sil (a : Nat) (v : Byte) (s : State) : (mStore a v s).sil = s.sil := rfl
@[simp] theorem mStore_core (a : Nat) (v : Byte) (s : State) : (mStore a v s).core = s.core := rfl
@[simp] theorem mStore_cl (a : Nat) (v : Byte) (s : State) : (mStore a v s).cl = s.cl := rfl
@[simp] theorem mStore_sup (a : Nat) (v : Byte) (s : State) : (mStore a v s).sup = s.sup := rfl
@[simp] theorem mStore_pwr (a : Nat) (v : Byte) (s : State) : (mStore a v s).pwr = s.pwr := rfl
@[simp] theorem mStore_out (a : Nat) (v : Byte) (s : State) : (mStore a v s).out = s.out := rfl
@[simp] theorem mStore_pair (a : Nat) (v : Byte) (s : State) : (mStore a v s).pair = s.pair := rfl
@[simp] theorem mStore_ser (a : Nat) (v : Byte) (s : State) : (mStore a v s).ser = s.ser := rfl
@[simp] theorem mStore_swx (a : Nat) (v : Byte) (s : State) : (mStore a v s).swx = s.swx := rfl
@[simp] theorem mStore_gaz (a : Nat) (v : Byte) (s : State) : (mStore a v s).gaz = s.gaz := rfl
@[simp] theorem mStore_svb (a : Nat) (v : Byte) (s : State) : (mStore a v s).svb = s.svb := rfl
@[simp] theorem mStore_boot (a : Nat) (v : Byte) (s : State) : (mStore a v s).boot = s.boot := rfl
@[simp] theorem mStore_host (a : Nat) (v : Byte) (s : State) : (mStore a v s).host = s.host := rfl
@[simp] theorem mStore_frst (a : Nat) (v : Byte) (s : State) : (mStore a v s).frst = s.frst := rfl
@[simp] theorem mStore_srv (a : Nat) (v : Byte) (s : State) : (mStore a v s).srv = s.srv := rfl
@[simp] theorem mStore_pending (a : Nat) (v : Byte) (s : State) : (mStore a v s).pending = s.pending := rfl
@[simp] theorem adjPut_hub (p : Nat) (x : AdjSt) (s : State) : (adjPut p x s).hub = s.hub := rfl
@[simp] theorem adjPut_flt (p : Nat) (x : AdjSt) (s : State) : (adjPut p x s).flt = s.flt := rfl
@[simp] theorem adjPut_time (p : Nat) (x : AdjSt) (s : State) : (adjPut p x s).time = s.time := rfl
@[simp] theorem adjPut_grat (p : Nat) (x : AdjSt) (s : State) : (adjPut p x s).grat = s.grat := rfl
@[simp] theorem adjPut_cmp (p : Nat) (x : AdjSt) (s : State) : (adjPut p x s).cmp = s.cmp := rfl
@[simp] theorem adjPut_mem (p : Nat) (x : AdjSt) (s : State) : (adjPut p x s).mem = s.mem := rfl
@[simp] theorem adjPut_eccBad (p : Nat) (x : AdjSt) (s : State) : (adjPut p x s).eccBad = s.eccBad := rfl
@[simp] theorem adjPut_rdata (p : Nat) (x : AdjSt) (s : State) : (adjPut p x s).rdata = s.rdata := rfl
@[simp] theorem adjPut_free (p : Nat) (x : AdjSt) (s : State) : (adjPut p x s).free = s.free := rfl
@[simp] theorem adjPut_mix (p : Nat) (x : AdjSt) (s : State) : (adjPut p x s).mix = s.mix := rfl
@[simp] theorem adjPut_eqs (p : Nat) (x : AdjSt) (s : State) : (adjPut p x s).eqs = s.eqs := rfl
@[simp] theorem adjPut_str (p : Nat) (x : AdjSt) (s : State) : (adjPut p x s).str = s.str := rfl
@[simp] theorem adjPut_sil (p : Nat) (x : AdjSt) (s : State) : (adjPut p x s).sil = s.sil := rfl
@[simp] theorem adjPut_core (p : Nat) (x : AdjSt) (s : State) : (adjPut p x s).core = s.core := rfl
@[simp] theorem adjPut_cl (p : Nat) (x : AdjSt) (s : State) : (adjPut p x s).cl = s.cl := rfl
@[simp] theorem adjPut_sup (p : Nat) (x : AdjSt) (s : State) : (adjPut p x s).sup = s.sup := rfl
@[simp] theorem adjPut_pwr (p : Nat) (x : AdjSt) (s : State) : (adjPut p x s).pwr = s.pwr := rfl
@[simp] theorem adjPut_out (p : Nat) (x : AdjSt) (s : State) : (adjPut p x s).out = s.out := rfl
@[simp] theorem adjPut_pair (p : Nat) (x : AdjSt) (s : State) : (adjPut p x s).pair = s.pair := rfl
@[simp] theorem adjPut_ser (p : Nat) (x : AdjSt) (s : State) : (adjPut p x s).ser = s.ser := rfl
@[simp] theorem adjPut_swx (p : Nat) (x : AdjSt) (s : State) : (adjPut p x s).swx = s.swx := rfl
@[simp] theorem adjPut_svb (p : Nat) (x : AdjSt) (s : State) : (adjPut p x s).svb = s.svb := rfl
@[simp] theorem adjPut_boot (p : Nat) (x : AdjSt) (s : State) : (adjPut p x s).boot = s.boot := rfl
@[simp] theorem adjPut_host (p : Nat) (x : AdjSt) (s : State) : (adjPut p x s).host = s.host := rfl
@[simp] theorem adjPut_frst (p : Nat) (x : AdjSt) (s : State) : (adjPut p x s).frst = s.frst := rfl
@[simp] theorem adjPut_srv (p : Nat) (x : AdjSt) (s : State) : (adjPut p x s).srv = s.srv := rfl
@[simp] theorem adjPut_pending (p : Nat) (x : AdjSt) (s : State) : (adjPut p x s).pending = s.pending := rfl
@[simp] theorem adjPut_gaz_db (p : Nat) (x : AdjSt) (s : State) : (adjPut p x s).gaz.db = s.gaz.db := rfl
@[simp] theorem adjPut_gaz_flood (p : Nat) (x : AdjSt) (s : State) : (adjPut p x s).gaz.flood = s.gaz.flood := rfl
@[simp] theorem adjPut_gaz_rsv (p : Nat) (x : AdjSt) (s : State) : (adjPut p x s).gaz.rsv = s.gaz.rsv := rfl
@[simp] theorem adjPut_gaz_srcs (p : Nat) (x : AdjSt) (s : State) : (adjPut p x s).gaz.srcs = s.gaz.srcs := rfl
@[simp] theorem adjPut_gaz_nextTag (p : Nat) (x : AdjSt) (s : State) : (adjPut p x s).gaz.nextTag = s.gaz.nextTag :=
  rfl
@[simp] theorem adjPut_gaz_par (p : Nat) (x : AdjSt) (s : State) : (adjPut p x s).gaz.par = s.gaz.par := rfl
@[simp] theorem adjPut_gaz_errs (p : Nat) (x : AdjSt) (s : State) : (adjPut p x s).gaz.errs = s.gaz.errs := rfl
@[simp] theorem candPut_hub (n : Nat) (c : Cand) (s : State) : (candPut n c s).hub = s.hub := rfl
@[simp] theorem candPut_flt (n : Nat) (c : Cand) (s : State) : (candPut n c s).flt = s.flt := rfl
@[simp] theorem candPut_time (n : Nat) (c : Cand) (s : State) : (candPut n c s).time = s.time := rfl
@[simp] theorem candPut_grat (n : Nat) (c : Cand) (s : State) : (candPut n c s).grat = s.grat := rfl
@[simp] theorem candPut_mem (n : Nat) (c : Cand) (s : State) : (candPut n c s).mem = s.mem := rfl
@[simp] theorem candPut_eccBad (n : Nat) (c : Cand) (s : State) : (candPut n c s).eccBad = s.eccBad := rfl
@[simp] theorem candPut_rdata (n : Nat) (c : Cand) (s : State) : (candPut n c s).rdata = s.rdata := rfl
@[simp] theorem candPut_free (n : Nat) (c : Cand) (s : State) : (candPut n c s).free = s.free := rfl
@[simp] theorem candPut_mix (n : Nat) (c : Cand) (s : State) : (candPut n c s).mix = s.mix := rfl
@[simp] theorem candPut_eqs (n : Nat) (c : Cand) (s : State) : (candPut n c s).eqs = s.eqs := rfl
@[simp] theorem candPut_str (n : Nat) (c : Cand) (s : State) : (candPut n c s).str = s.str := rfl
@[simp] theorem candPut_sil (n : Nat) (c : Cand) (s : State) : (candPut n c s).sil = s.sil := rfl
@[simp] theorem candPut_core (n : Nat) (c : Cand) (s : State) : (candPut n c s).core = s.core := rfl
@[simp] theorem candPut_cl (n : Nat) (c : Cand) (s : State) : (candPut n c s).cl = s.cl := rfl
@[simp] theorem candPut_sup (n : Nat) (c : Cand) (s : State) : (candPut n c s).sup = s.sup := rfl
@[simp] theorem candPut_pwr (n : Nat) (c : Cand) (s : State) : (candPut n c s).pwr = s.pwr := rfl
@[simp] theorem candPut_out (n : Nat) (c : Cand) (s : State) : (candPut n c s).out = s.out := rfl
@[simp] theorem candPut_pair (n : Nat) (c : Cand) (s : State) : (candPut n c s).pair = s.pair := rfl
@[simp] theorem candPut_ser (n : Nat) (c : Cand) (s : State) : (candPut n c s).ser = s.ser := rfl
@[simp] theorem candPut_swx (n : Nat) (c : Cand) (s : State) : (candPut n c s).swx = s.swx := rfl
@[simp] theorem candPut_gaz (n : Nat) (c : Cand) (s : State) : (candPut n c s).gaz = s.gaz := rfl
@[simp] theorem candPut_svb (n : Nat) (c : Cand) (s : State) : (candPut n c s).svb = s.svb := rfl
@[simp] theorem candPut_boot (n : Nat) (c : Cand) (s : State) : (candPut n c s).boot = s.boot := rfl
@[simp] theorem candPut_host (n : Nat) (c : Cand) (s : State) : (candPut n c s).host = s.host := rfl
@[simp] theorem candPut_frst (n : Nat) (c : Cand) (s : State) : (candPut n c s).frst = s.frst := rfl
@[simp] theorem candPut_srv (n : Nat) (c : Cand) (s : State) : (candPut n c s).srv = s.srv := rfl
@[simp] theorem candPut_pending (n : Nat) (c : Cand) (s : State) : (candPut n c s).pending = s.pending := rfl
@[simp] theorem candPut_cmp_st (n : Nat) (c : Cand) (s : State) : (candPut n c s).cmp.st = s.cmp.st := rfl
@[simp] theorem candPut_cmp_cur (n : Nat) (c : Cand) (s : State) : (candPut n c s).cmp.cur = s.cmp.cur := rfl
@[simp] theorem candPut_cmp_sw (n : Nat) (c : Cand) (s : State) : (candPut n c s).cmp.sw = s.cmp.sw := rfl
@[simp] theorem candPut_cmp_nextSel (n : Nat) (c : Cand) (s : State) : (candPut n c s).cmp.nextSel = s.cmp.nextSel :=
  rfl
@[simp] theorem candPut_cmp_meas (n : Nat) (c : Cand) (s : State) : (candPut n c s).cmp.meas = s.cmp.meas := rfl
@[simp] theorem candPut_cmp_base (n : Nat) (c : Cand) (s : State) : (candPut n c s).cmp.base = s.cmp.base := rfl
@[simp] theorem candPut_cmp_drifting (n : Nat) (c : Cand) (s : State) : (candPut n c s).cmp.drifting = s.cmp.drifting :=
  rfl
@[simp] theorem candPut_cmp_everLock (n : Nat) (c : Cand) (s : State) : (candPut n c s).cmp.everLock = s.cmp.everLock :=
  rfl
@[simp] theorem candPut_cmp_lockT (n : Nat) (c : Cand) (s : State) : (candPut n c s).cmp.lockT = s.cmp.lockT := rfl
@[simp] theorem candPut_cmp_unlockT (n : Nat) (c : Cand) (s : State) : (candPut n c s).cmp.unlockT = s.cmp.unlockT :=
  rfl
@[simp] theorem candPut_cmp_phaseErr (n : Nat) (c : Cand) (s : State) : (candPut n c s).cmp.phaseErr = s.cmp.phaseErr :=
  rfl
@[simp] theorem candPut_cmp_hist (n : Nat) (c : Cand) (s : State) : (candPut n c s).cmp.hist = s.cmp.hist := rfl
@[simp] theorem candPut_cmp_histSum (n : Nat) (c : Cand) (s : State) : (candPut n c s).cmp.histSum = s.cmp.histSum :=
  rfl
@[simp] theorem candPut_cmp_histCnt (n : Nat) (c : Cand) (s : State) : (candPut n c s).cmp.histCnt = s.cmp.histCnt :=
  rfl
@[simp] theorem candPut_cmp_holdRate (n : Nat) (c : Cand) (s : State) : (candPut n c s).cmp.holdRate = s.cmp.holdRate :=
  rfl
@[simp] theorem candPut_cmp_holdT (n : Nat) (c : Cand) (s : State) : (candPut n c s).cmp.holdT = s.cmp.holdT := rfl
@[simp] theorem candPut_cmp_bo (n : Nat) (c : Cand) (s : State) : (candPut n c s).cmp.bo = s.cmp.bo := rfl
@[simp] theorem candPut_cmp_slew (n : Nat) (c : Cand) (s : State) : (candPut n c s).cmp.slew = s.cmp.slew := rfl
@[simp] theorem candPut_cmp_step (n : Nat) (c : Cand) (s : State) : (candPut n c s).cmp.step = s.cmp.step := rfl
@[simp] theorem candPut_cmp_pstepQ (n : Nat) (c : Cand) (s : State) : (candPut n c s).cmp.pstepQ = s.cmp.pstepQ := rfl
@[simp] theorem candPut_cmp_realign (n : Nat) (c : Cand) (s : State) : (candPut n c s).cmp.realign = s.cmp.realign :=
  rfl
@[simp] theorem candPut_cmp_ticks (n : Nat) (c : Cand) (s : State) : (candPut n c s).cmp.ticks = s.cmp.ticks := rfl
@[simp] theorem chainPut_hub (c : Nat) (x : ChainSt) (s : State) : (chainPut c x s).hub = s.hub := rfl
@[simp] theorem chainPut_flt (c : Nat) (x : ChainSt) (s : State) : (chainPut c x s).flt = s.flt := rfl
@[simp] theorem chainPut_time (c : Nat) (x : ChainSt) (s : State) : (chainPut c x s).time = s.time := rfl
@[simp] theorem chainPut_grat (c : Nat) (x : ChainSt) (s : State) : (chainPut c x s).grat = s.grat := rfl
@[simp] theorem chainPut_cmp (c : Nat) (x : ChainSt) (s : State) : (chainPut c x s).cmp = s.cmp := rfl
@[simp] theorem chainPut_mem (c : Nat) (x : ChainSt) (s : State) : (chainPut c x s).mem = s.mem := rfl
@[simp] theorem chainPut_eccBad (c : Nat) (x : ChainSt) (s : State) : (chainPut c x s).eccBad = s.eccBad := rfl
@[simp] theorem chainPut_rdata (c : Nat) (x : ChainSt) (s : State) : (chainPut c x s).rdata = s.rdata := rfl
@[simp] theorem chainPut_free (c : Nat) (x : ChainSt) (s : State) : (chainPut c x s).free = s.free := rfl
@[simp] theorem chainPut_mix (c : Nat) (x : ChainSt) (s : State) : (chainPut c x s).mix = s.mix := rfl
@[simp] theorem chainPut_str (c : Nat) (x : ChainSt) (s : State) : (chainPut c x s).str = s.str := rfl
@[simp] theorem chainPut_sil (c : Nat) (x : ChainSt) (s : State) : (chainPut c x s).sil = s.sil := rfl
@[simp] theorem chainPut_core (c : Nat) (x : ChainSt) (s : State) : (chainPut c x s).core = s.core := rfl
@[simp] theorem chainPut_cl (c : Nat) (x : ChainSt) (s : State) : (chainPut c x s).cl = s.cl := rfl
@[simp] theorem chainPut_sup (c : Nat) (x : ChainSt) (s : State) : (chainPut c x s).sup = s.sup := rfl
@[simp] theorem chainPut_pwr (c : Nat) (x : ChainSt) (s : State) : (chainPut c x s).pwr = s.pwr := rfl
@[simp] theorem chainPut_out (c : Nat) (x : ChainSt) (s : State) : (chainPut c x s).out = s.out := rfl
@[simp] theorem chainPut_pair (c : Nat) (x : ChainSt) (s : State) : (chainPut c x s).pair = s.pair := rfl
@[simp] theorem chainPut_ser (c : Nat) (x : ChainSt) (s : State) : (chainPut c x s).ser = s.ser := rfl
@[simp] theorem chainPut_swx (c : Nat) (x : ChainSt) (s : State) : (chainPut c x s).swx = s.swx := rfl
@[simp] theorem chainPut_gaz (c : Nat) (x : ChainSt) (s : State) : (chainPut c x s).gaz = s.gaz := rfl
@[simp] theorem chainPut_svb (c : Nat) (x : ChainSt) (s : State) : (chainPut c x s).svb = s.svb := rfl
@[simp] theorem chainPut_boot (c : Nat) (x : ChainSt) (s : State) : (chainPut c x s).boot = s.boot := rfl
@[simp] theorem chainPut_host (c : Nat) (x : ChainSt) (s : State) : (chainPut c x s).host = s.host := rfl
@[simp] theorem chainPut_frst (c : Nat) (x : ChainSt) (s : State) : (chainPut c x s).frst = s.frst := rfl
@[simp] theorem chainPut_srv (c : Nat) (x : ChainSt) (s : State) : (chainPut c x s).srv = s.srv := rfl
@[simp] theorem chainPut_pending (c : Nat) (x : ChainSt) (s : State) : (chainPut c x s).pending = s.pending := rfl
@[simp] theorem chainPut_eqs_hist (c : Nat) (x : ChainSt) (s : State) : (chainPut c x s).eqs.hist = s.eqs.hist := rfl
@[simp] theorem chainPut_eqs_hPrev (c : Nat) (x : ChainSt) (s : State) : (chainPut c x s).eqs.hPrev = s.eqs.hPrev :=
  rfl
@[simp] theorem chainPut_eqs_due (c : Nat) (x : ChainSt) (s : State) : (chainPut c x s).eqs.due = s.eqs.due := rfl
@[simp] theorem chainPut_eqs_oldBank (c : Nat) (x : ChainSt) (s : State) : (chainPut c x s).eqs.oldBank = s.eqs.oldBank :=
  rfl
@[simp] theorem chainPut_eqs_out (c : Nat) (x : ChainSt) (s : State) : (chainPut c x s).eqs.out = s.eqs.out := rfl
@[simp] theorem clPut_hub (c : Nat) (x : ClusterSt) (s : State) : (clPut c x s).hub = s.hub := rfl
@[simp] theorem clPut_flt (c : Nat) (x : ClusterSt) (s : State) : (clPut c x s).flt = s.flt := rfl
@[simp] theorem clPut_time (c : Nat) (x : ClusterSt) (s : State) : (clPut c x s).time = s.time := rfl
@[simp] theorem clPut_grat (c : Nat) (x : ClusterSt) (s : State) : (clPut c x s).grat = s.grat := rfl
@[simp] theorem clPut_cmp (c : Nat) (x : ClusterSt) (s : State) : (clPut c x s).cmp = s.cmp := rfl
@[simp] theorem clPut_mem (c : Nat) (x : ClusterSt) (s : State) : (clPut c x s).mem = s.mem := rfl
@[simp] theorem clPut_eccBad (c : Nat) (x : ClusterSt) (s : State) : (clPut c x s).eccBad = s.eccBad := rfl
@[simp] theorem clPut_rdata (c : Nat) (x : ClusterSt) (s : State) : (clPut c x s).rdata = s.rdata := rfl
@[simp] theorem clPut_free (c : Nat) (x : ClusterSt) (s : State) : (clPut c x s).free = s.free := rfl
@[simp] theorem clPut_mix (c : Nat) (x : ClusterSt) (s : State) : (clPut c x s).mix = s.mix := rfl
@[simp] theorem clPut_eqs (c : Nat) (x : ClusterSt) (s : State) : (clPut c x s).eqs = s.eqs := rfl
@[simp] theorem clPut_str (c : Nat) (x : ClusterSt) (s : State) : (clPut c x s).str = s.str := rfl
@[simp] theorem clPut_sil (c : Nat) (x : ClusterSt) (s : State) : (clPut c x s).sil = s.sil := rfl
@[simp] theorem clPut_core (c : Nat) (x : ClusterSt) (s : State) : (clPut c x s).core = s.core := rfl
@[simp] theorem clPut_sup (c : Nat) (x : ClusterSt) (s : State) : (clPut c x s).sup = s.sup := rfl
@[simp] theorem clPut_pwr (c : Nat) (x : ClusterSt) (s : State) : (clPut c x s).pwr = s.pwr := rfl
@[simp] theorem clPut_out (c : Nat) (x : ClusterSt) (s : State) : (clPut c x s).out = s.out := rfl
@[simp] theorem clPut_pair (c : Nat) (x : ClusterSt) (s : State) : (clPut c x s).pair = s.pair := rfl
@[simp] theorem clPut_ser (c : Nat) (x : ClusterSt) (s : State) : (clPut c x s).ser = s.ser := rfl
@[simp] theorem clPut_swx (c : Nat) (x : ClusterSt) (s : State) : (clPut c x s).swx = s.swx := rfl
@[simp] theorem clPut_gaz (c : Nat) (x : ClusterSt) (s : State) : (clPut c x s).gaz = s.gaz := rfl
@[simp] theorem clPut_svb (c : Nat) (x : ClusterSt) (s : State) : (clPut c x s).svb = s.svb := rfl
@[simp] theorem clPut_boot (c : Nat) (x : ClusterSt) (s : State) : (clPut c x s).boot = s.boot := rfl
@[simp] theorem clPut_host (c : Nat) (x : ClusterSt) (s : State) : (clPut c x s).host = s.host := rfl
@[simp] theorem clPut_frst (c : Nat) (x : ClusterSt) (s : State) : (clPut c x s).frst = s.frst := rfl
@[simp] theorem clPut_srv (c : Nat) (x : ClusterSt) (s : State) : (clPut c x s).srv = s.srv := rfl
@[simp] theorem clPut_pending (c : Nat) (x : ClusterSt) (s : State) : (clPut c x s).pending = s.pending := rfl
@[simp] theorem corePut_hub (k : Nat) (c : NCore) (s : State) : (corePut k c s).hub = s.hub := rfl
@[simp] theorem corePut_flt (k : Nat) (c : NCore) (s : State) : (corePut k c s).flt = s.flt := rfl
@[simp] theorem corePut_time (k : Nat) (c : NCore) (s : State) : (corePut k c s).time = s.time := rfl
@[simp] theorem corePut_grat (k : Nat) (c : NCore) (s : State) : (corePut k c s).grat = s.grat := rfl
@[simp] theorem corePut_cmp (k : Nat) (c : NCore) (s : State) : (corePut k c s).cmp = s.cmp := rfl
@[simp] theorem corePut_mem (k : Nat) (c : NCore) (s : State) : (corePut k c s).mem = s.mem := rfl
@[simp] theorem corePut_eccBad (k : Nat) (c : NCore) (s : State) : (corePut k c s).eccBad = s.eccBad := rfl
@[simp] theorem corePut_rdata (k : Nat) (c : NCore) (s : State) : (corePut k c s).rdata = s.rdata := rfl
@[simp] theorem corePut_free (k : Nat) (c : NCore) (s : State) : (corePut k c s).free = s.free := rfl
@[simp] theorem corePut_mix (k : Nat) (c : NCore) (s : State) : (corePut k c s).mix = s.mix := rfl
@[simp] theorem corePut_eqs (k : Nat) (c : NCore) (s : State) : (corePut k c s).eqs = s.eqs := rfl
@[simp] theorem corePut_str (k : Nat) (c : NCore) (s : State) : (corePut k c s).str = s.str := rfl
@[simp] theorem corePut_sil (k : Nat) (c : NCore) (s : State) : (corePut k c s).sil = s.sil := rfl
@[simp] theorem corePut_cl (k : Nat) (c : NCore) (s : State) : (corePut k c s).cl = s.cl := rfl
@[simp] theorem corePut_sup (k : Nat) (c : NCore) (s : State) : (corePut k c s).sup = s.sup := rfl
@[simp] theorem corePut_pwr (k : Nat) (c : NCore) (s : State) : (corePut k c s).pwr = s.pwr := rfl
@[simp] theorem corePut_out (k : Nat) (c : NCore) (s : State) : (corePut k c s).out = s.out := rfl
@[simp] theorem corePut_pair (k : Nat) (c : NCore) (s : State) : (corePut k c s).pair = s.pair := rfl
@[simp] theorem corePut_ser (k : Nat) (c : NCore) (s : State) : (corePut k c s).ser = s.ser := rfl
@[simp] theorem corePut_swx (k : Nat) (c : NCore) (s : State) : (corePut k c s).swx = s.swx := rfl
@[simp] theorem corePut_gaz (k : Nat) (c : NCore) (s : State) : (corePut k c s).gaz = s.gaz := rfl
@[simp] theorem corePut_svb (k : Nat) (c : NCore) (s : State) : (corePut k c s).svb = s.svb := rfl
@[simp] theorem corePut_boot (k : Nat) (c : NCore) (s : State) : (corePut k c s).boot = s.boot := rfl
@[simp] theorem corePut_host (k : Nat) (c : NCore) (s : State) : (corePut k c s).host = s.host := rfl
@[simp] theorem corePut_frst (k : Nat) (c : NCore) (s : State) : (corePut k c s).frst = s.frst := rfl
@[simp] theorem corePut_srv (k : Nat) (c : NCore) (s : State) : (corePut k c s).srv = s.srv := rfl
@[simp] theorem corePut_pending (k : Nat) (c : NCore) (s : State) : (corePut k c s).pending = s.pending := rfl
@[simp] theorem domPut_hub (d : Nat) (x : Dom) (s : State) : (domPut d x s).hub = s.hub := rfl
@[simp] theorem domPut_flt (d : Nat) (x : Dom) (s : State) : (domPut d x s).flt = s.flt := rfl
@[simp] theorem domPut_time (d : Nat) (x : Dom) (s : State) : (domPut d x s).time = s.time := rfl
@[simp] theorem domPut_grat (d : Nat) (x : Dom) (s : State) : (domPut d x s).grat = s.grat := rfl
@[simp] theorem domPut_cmp (d : Nat) (x : Dom) (s : State) : (domPut d x s).cmp = s.cmp := rfl
@[simp] theorem domPut_mem (d : Nat) (x : Dom) (s : State) : (domPut d x s).mem = s.mem := rfl
@[simp] theorem domPut_eccBad (d : Nat) (x : Dom) (s : State) : (domPut d x s).eccBad = s.eccBad := rfl
@[simp] theorem domPut_rdata (d : Nat) (x : Dom) (s : State) : (domPut d x s).rdata = s.rdata := rfl
@[simp] theorem domPut_free (d : Nat) (x : Dom) (s : State) : (domPut d x s).free = s.free := rfl
@[simp] theorem domPut_mix (d : Nat) (x : Dom) (s : State) : (domPut d x s).mix = s.mix := rfl
@[simp] theorem domPut_eqs (d : Nat) (x : Dom) (s : State) : (domPut d x s).eqs = s.eqs := rfl
@[simp] theorem domPut_str (d : Nat) (x : Dom) (s : State) : (domPut d x s).str = s.str := rfl
@[simp] theorem domPut_sil (d : Nat) (x : Dom) (s : State) : (domPut d x s).sil = s.sil := rfl
@[simp] theorem domPut_core (d : Nat) (x : Dom) (s : State) : (domPut d x s).core = s.core := rfl
@[simp] theorem domPut_cl (d : Nat) (x : Dom) (s : State) : (domPut d x s).cl = s.cl := rfl
@[simp] theorem domPut_sup (d : Nat) (x : Dom) (s : State) : (domPut d x s).sup = s.sup := rfl
@[simp] theorem domPut_out (d : Nat) (x : Dom) (s : State) : (domPut d x s).out = s.out := rfl
@[simp] theorem domPut_pair (d : Nat) (x : Dom) (s : State) : (domPut d x s).pair = s.pair := rfl
@[simp] theorem domPut_ser (d : Nat) (x : Dom) (s : State) : (domPut d x s).ser = s.ser := rfl
@[simp] theorem domPut_swx (d : Nat) (x : Dom) (s : State) : (domPut d x s).swx = s.swx := rfl
@[simp] theorem domPut_gaz (d : Nat) (x : Dom) (s : State) : (domPut d x s).gaz = s.gaz := rfl
@[simp] theorem domPut_svb (d : Nat) (x : Dom) (s : State) : (domPut d x s).svb = s.svb := rfl
@[simp] theorem domPut_boot (d : Nat) (x : Dom) (s : State) : (domPut d x s).boot = s.boot := rfl
@[simp] theorem domPut_host (d : Nat) (x : Dom) (s : State) : (domPut d x s).host = s.host := rfl
@[simp] theorem domPut_frst (d : Nat) (x : Dom) (s : State) : (domPut d x s).frst = s.frst := rfl
@[simp] theorem domPut_srv (d : Nat) (x : Dom) (s : State) : (domPut d x s).srv = s.srv := rfl
@[simp] theorem domPut_pending (d : Nat) (x : Dom) (s : State) : (domPut d x s).pending = s.pending := rfl
@[simp] theorem domPut_pwr_step (d : Nat) (x : Dom) (s : State) : (domPut d x s).pwr.step = s.pwr.step := rfl
@[simp] theorem domPut_pwr_nextStep (d : Nat) (x : Dom) (s : State) : (domPut d x s).pwr.nextStep = s.pwr.nextStep :=
  rfl
@[simp] theorem domPut_pwr_stepLc (d : Nat) (x : Dom) (s : State) : (domPut d x s).pwr.stepLc = s.pwr.stepLc := rfl
@[simp] theorem domPut_pwr_throttled (d : Nat) (x : Dom) (s : State) : (domPut d x s).pwr.throttled = s.pwr.throttled :=
  rfl
@[simp] theorem domPut_pwr_queue (d : Nat) (x : Dom) (s : State) : (domPut d x s).pwr.queue = s.pwr.queue := rfl
@[simp] theorem domPut_pwr_budgetLow (d : Nat) (x : Dom) (s : State) : (domPut d x s).pwr.budgetLow = s.pwr.budgetLow :=
  rfl
@[simp] theorem domPut_pwr_paused (d : Nat) (x : Dom) (s : State) : (domPut d x s).pwr.paused = s.pwr.paused := rfl
@[simp] theorem domPut_pwr_okSince (d : Nat) (x : Dom) (s : State) : (domPut d x s).pwr.okSince = s.pwr.okSince := rfl
@[simp] theorem domPut_pwr_vsysBoot (d : Nat) (x : Dom) (s : State) : (domPut d x s).pwr.vsysBoot = s.pwr.vsysBoot :=
  rfl
@[simp] theorem domPut_pwr_vsys (d : Nat) (x : Dom) (s : State) : (domPut d x s).pwr.vsys = s.pwr.vsys := rfl
@[simp] theorem domPut_pwr_temp (d : Nat) (x : Dom) (s : State) : (domPut d x s).pwr.temp = s.pwr.temp := rfl
@[simp] theorem domPut_pwr_hotSince (d : Nat) (x : Dom) (s : State) : (domPut d x s).pwr.hotSince = s.pwr.hotSince :=
  rfl
@[simp] theorem domPut_pwr_hot150 (d : Nat) (x : Dom) (s : State) : (domPut d x s).pwr.hot150 = s.pwr.hot150 := rfl
@[simp] theorem domPut_pwr_sleep (d : Nat) (x : Dom) (s : State) : (domPut d x s).pwr.sleep = s.pwr.sleep := rfl
@[simp] theorem domPut_pwr_sleepReq (d : Nat) (x : Dom) (s : State) : (domPut d x s).pwr.sleepReq = s.pwr.sleepReq :=
  rfl
@[simp] theorem domPut_pwr_sleepLc (d : Nat) (x : Dom) (s : State) : (domPut d x s).pwr.sleepLc = s.pwr.sleepLc := rfl
@[simp] theorem domPut_pwr_wakeSrc (d : Nat) (x : Dom) (s : State) : (domPut d x s).pwr.wakeSrc = s.pwr.wakeSrc := rfl
@[simp] theorem domPut_pwr_wakeCfg (d : Nat) (x : Dom) (s : State) : (domPut d x s).pwr.wakeCfg = s.pwr.wakeCfg := rfl
@[simp] theorem domPut_pwr_alarm (d : Nat) (x : Dom) (s : State) : (domPut d x s).pwr.alarm = s.pwr.alarm := rfl
@[simp] theorem flowPut_hub (x : Nat) (f : FlowSt) (s : State) : (flowPut x f s).hub = s.hub := rfl
@[simp] theorem flowPut_flt (x : Nat) (f : FlowSt) (s : State) : (flowPut x f s).flt = s.flt := rfl
@[simp] theorem flowPut_time (x : Nat) (f : FlowSt) (s : State) : (flowPut x f s).time = s.time := rfl
@[simp] theorem flowPut_grat (x : Nat) (f : FlowSt) (s : State) : (flowPut x f s).grat = s.grat := rfl
@[simp] theorem flowPut_cmp (x : Nat) (f : FlowSt) (s : State) : (flowPut x f s).cmp = s.cmp := rfl
@[simp] theorem flowPut_mem (x : Nat) (f : FlowSt) (s : State) : (flowPut x f s).mem = s.mem := rfl
@[simp] theorem flowPut_eccBad (x : Nat) (f : FlowSt) (s : State) : (flowPut x f s).eccBad = s.eccBad := rfl
@[simp] theorem flowPut_rdata (x : Nat) (f : FlowSt) (s : State) : (flowPut x f s).rdata = s.rdata := rfl
@[simp] theorem flowPut_free (x : Nat) (f : FlowSt) (s : State) : (flowPut x f s).free = s.free := rfl
@[simp] theorem flowPut_mix (x : Nat) (f : FlowSt) (s : State) : (flowPut x f s).mix = s.mix := rfl
@[simp] theorem flowPut_eqs (x : Nat) (f : FlowSt) (s : State) : (flowPut x f s).eqs = s.eqs := rfl
@[simp] theorem flowPut_str (x : Nat) (f : FlowSt) (s : State) : (flowPut x f s).str = s.str := rfl
@[simp] theorem flowPut_sil (x : Nat) (f : FlowSt) (s : State) : (flowPut x f s).sil = s.sil := rfl
@[simp] theorem flowPut_core (x : Nat) (f : FlowSt) (s : State) : (flowPut x f s).core = s.core := rfl
@[simp] theorem flowPut_cl (x : Nat) (f : FlowSt) (s : State) : (flowPut x f s).cl = s.cl := rfl
@[simp] theorem flowPut_sup (x : Nat) (f : FlowSt) (s : State) : (flowPut x f s).sup = s.sup := rfl
@[simp] theorem flowPut_pwr (x : Nat) (f : FlowSt) (s : State) : (flowPut x f s).pwr = s.pwr := rfl
@[simp] theorem flowPut_out (x : Nat) (f : FlowSt) (s : State) : (flowPut x f s).out = s.out := rfl
@[simp] theorem flowPut_pair (x : Nat) (f : FlowSt) (s : State) : (flowPut x f s).pair = s.pair := rfl
@[simp] theorem flowPut_ser (x : Nat) (f : FlowSt) (s : State) : (flowPut x f s).ser = s.ser := rfl
@[simp] theorem flowPut_gaz (x : Nat) (f : FlowSt) (s : State) : (flowPut x f s).gaz = s.gaz := rfl
@[simp] theorem flowPut_svb (x : Nat) (f : FlowSt) (s : State) : (flowPut x f s).svb = s.svb := rfl
@[simp] theorem flowPut_boot (x : Nat) (f : FlowSt) (s : State) : (flowPut x f s).boot = s.boot := rfl
@[simp] theorem flowPut_host (x : Nat) (f : FlowSt) (s : State) : (flowPut x f s).host = s.host := rfl
@[simp] theorem flowPut_frst (x : Nat) (f : FlowSt) (s : State) : (flowPut x f s).frst = s.frst := rfl
@[simp] theorem flowPut_srv (x : Nat) (f : FlowSt) (s : State) : (flowPut x f s).srv = s.srv := rfl
@[simp] theorem flowPut_pending (x : Nat) (f : FlowSt) (s : State) : (flowPut x f s).pending = s.pending := rfl
@[simp] theorem flowPut_swx_port (x : Nat) (f : FlowSt) (s : State) : (flowPut x f s).swx.port = s.swx.port := rfl
@[simp] theorem flowPut_swx_dup (x : Nat) (f : FlowSt) (s : State) : (flowPut x f s).swx.dup = s.swx.dup := rfl
@[simp] theorem grpPut_hub (g : Nat) (x : SilGrp) (s : State) : (grpPut g x s).hub = s.hub := rfl
@[simp] theorem grpPut_flt (g : Nat) (x : SilGrp) (s : State) : (grpPut g x s).flt = s.flt := rfl
@[simp] theorem grpPut_time (g : Nat) (x : SilGrp) (s : State) : (grpPut g x s).time = s.time := rfl
@[simp] theorem grpPut_grat (g : Nat) (x : SilGrp) (s : State) : (grpPut g x s).grat = s.grat := rfl
@[simp] theorem grpPut_cmp (g : Nat) (x : SilGrp) (s : State) : (grpPut g x s).cmp = s.cmp := rfl
@[simp] theorem grpPut_mem (g : Nat) (x : SilGrp) (s : State) : (grpPut g x s).mem = s.mem := rfl
@[simp] theorem grpPut_eccBad (g : Nat) (x : SilGrp) (s : State) : (grpPut g x s).eccBad = s.eccBad := rfl
@[simp] theorem grpPut_rdata (g : Nat) (x : SilGrp) (s : State) : (grpPut g x s).rdata = s.rdata := rfl
@[simp] theorem grpPut_free (g : Nat) (x : SilGrp) (s : State) : (grpPut g x s).free = s.free := rfl
@[simp] theorem grpPut_mix (g : Nat) (x : SilGrp) (s : State) : (grpPut g x s).mix = s.mix := rfl
@[simp] theorem grpPut_eqs (g : Nat) (x : SilGrp) (s : State) : (grpPut g x s).eqs = s.eqs := rfl
@[simp] theorem grpPut_str (g : Nat) (x : SilGrp) (s : State) : (grpPut g x s).str = s.str := rfl
@[simp] theorem grpPut_core (g : Nat) (x : SilGrp) (s : State) : (grpPut g x s).core = s.core := rfl
@[simp] theorem grpPut_cl (g : Nat) (x : SilGrp) (s : State) : (grpPut g x s).cl = s.cl := rfl
@[simp] theorem grpPut_sup (g : Nat) (x : SilGrp) (s : State) : (grpPut g x s).sup = s.sup := rfl
@[simp] theorem grpPut_pwr (g : Nat) (x : SilGrp) (s : State) : (grpPut g x s).pwr = s.pwr := rfl
@[simp] theorem grpPut_out (g : Nat) (x : SilGrp) (s : State) : (grpPut g x s).out = s.out := rfl
@[simp] theorem grpPut_pair (g : Nat) (x : SilGrp) (s : State) : (grpPut g x s).pair = s.pair := rfl
@[simp] theorem grpPut_ser (g : Nat) (x : SilGrp) (s : State) : (grpPut g x s).ser = s.ser := rfl
@[simp] theorem grpPut_swx (g : Nat) (x : SilGrp) (s : State) : (grpPut g x s).swx = s.swx := rfl
@[simp] theorem grpPut_gaz (g : Nat) (x : SilGrp) (s : State) : (grpPut g x s).gaz = s.gaz := rfl
@[simp] theorem grpPut_svb (g : Nat) (x : SilGrp) (s : State) : (grpPut g x s).svb = s.svb := rfl
@[simp] theorem grpPut_boot (g : Nat) (x : SilGrp) (s : State) : (grpPut g x s).boot = s.boot := rfl
@[simp] theorem grpPut_host (g : Nat) (x : SilGrp) (s : State) : (grpPut g x s).host = s.host := rfl
@[simp] theorem grpPut_frst (g : Nat) (x : SilGrp) (s : State) : (grpPut g x s).frst = s.frst := rfl
@[simp] theorem grpPut_srv (g : Nat) (x : SilGrp) (s : State) : (grpPut g x s).srv = s.srv := rfl
@[simp] theorem grpPut_pending (g : Nat) (x : SilGrp) (s : State) : (grpPut g x s).pending = s.pending := rfl
@[simp] theorem grpPut_sil_loudAt (g : Nat) (x : SilGrp) (s : State) : (grpPut g x s).sil.loudAt = s.sil.loudAt := rfl
@[simp] theorem grpPut_sil_flags (g : Nat) (x : SilGrp) (s : State) : (grpPut g x s).sil.flags = s.sil.flags := rfl
@[simp] theorem grpPut_sil_gated (g : Nat) (x : SilGrp) (s : State) : (grpPut g x s).sil.gated = s.sil.gated := rfl
@[simp] theorem linePut_hub (l : Nat) (x : LineSt) (s : State) : (linePut l x s).hub = s.hub := rfl
@[simp] theorem linePut_flt (l : Nat) (x : LineSt) (s : State) : (linePut l x s).flt = s.flt := rfl
@[simp] theorem linePut_time (l : Nat) (x : LineSt) (s : State) : (linePut l x s).time = s.time := rfl
@[simp] theorem linePut_grat (l : Nat) (x : LineSt) (s : State) : (linePut l x s).grat = s.grat := rfl
@[simp] theorem linePut_cmp (l : Nat) (x : LineSt) (s : State) : (linePut l x s).cmp = s.cmp := rfl
@[simp] theorem linePut_mem (l : Nat) (x : LineSt) (s : State) : (linePut l x s).mem = s.mem := rfl
@[simp] theorem linePut_eccBad (l : Nat) (x : LineSt) (s : State) : (linePut l x s).eccBad = s.eccBad := rfl
@[simp] theorem linePut_rdata (l : Nat) (x : LineSt) (s : State) : (linePut l x s).rdata = s.rdata := rfl
@[simp] theorem linePut_free (l : Nat) (x : LineSt) (s : State) : (linePut l x s).free = s.free := rfl
@[simp] theorem linePut_mix (l : Nat) (x : LineSt) (s : State) : (linePut l x s).mix = s.mix := rfl
@[simp] theorem linePut_eqs (l : Nat) (x : LineSt) (s : State) : (linePut l x s).eqs = s.eqs := rfl
@[simp] theorem linePut_sil (l : Nat) (x : LineSt) (s : State) : (linePut l x s).sil = s.sil := rfl
@[simp] theorem linePut_core (l : Nat) (x : LineSt) (s : State) : (linePut l x s).core = s.core := rfl
@[simp] theorem linePut_cl (l : Nat) (x : LineSt) (s : State) : (linePut l x s).cl = s.cl := rfl
@[simp] theorem linePut_sup (l : Nat) (x : LineSt) (s : State) : (linePut l x s).sup = s.sup := rfl
@[simp] theorem linePut_pwr (l : Nat) (x : LineSt) (s : State) : (linePut l x s).pwr = s.pwr := rfl
@[simp] theorem linePut_out (l : Nat) (x : LineSt) (s : State) : (linePut l x s).out = s.out := rfl
@[simp] theorem linePut_pair (l : Nat) (x : LineSt) (s : State) : (linePut l x s).pair = s.pair := rfl
@[simp] theorem linePut_ser (l : Nat) (x : LineSt) (s : State) : (linePut l x s).ser = s.ser := rfl
@[simp] theorem linePut_swx (l : Nat) (x : LineSt) (s : State) : (linePut l x s).swx = s.swx := rfl
@[simp] theorem linePut_gaz (l : Nat) (x : LineSt) (s : State) : (linePut l x s).gaz = s.gaz := rfl
@[simp] theorem linePut_svb (l : Nat) (x : LineSt) (s : State) : (linePut l x s).svb = s.svb := rfl
@[simp] theorem linePut_boot (l : Nat) (x : LineSt) (s : State) : (linePut l x s).boot = s.boot := rfl
@[simp] theorem linePut_host (l : Nat) (x : LineSt) (s : State) : (linePut l x s).host = s.host := rfl
@[simp] theorem linePut_frst (l : Nat) (x : LineSt) (s : State) : (linePut l x s).frst = s.frst := rfl
@[simp] theorem linePut_srv (l : Nat) (x : LineSt) (s : State) : (linePut l x s).srv = s.srv := rfl
@[simp] theorem linePut_pending (l : Nat) (x : LineSt) (s : State) : (linePut l x s).pending = s.pending := rfl
@[simp] theorem linePut_str_out (l : Nat) (x : LineSt) (s : State) : (linePut l x s).str.out = s.str.out := rfl
@[simp] theorem measPut_hub (k : Nat) (m : Meas) (s : State) : (measPut k m s).hub = s.hub := rfl
@[simp] theorem measPut_flt (k : Nat) (m : Meas) (s : State) : (measPut k m s).flt = s.flt := rfl
@[simp] theorem measPut_time (k : Nat) (m : Meas) (s : State) : (measPut k m s).time = s.time := rfl
@[simp] theorem measPut_grat (k : Nat) (m : Meas) (s : State) : (measPut k m s).grat = s.grat := rfl
@[simp] theorem measPut_mem (k : Nat) (m : Meas) (s : State) : (measPut k m s).mem = s.mem := rfl
@[simp] theorem measPut_eccBad (k : Nat) (m : Meas) (s : State) : (measPut k m s).eccBad = s.eccBad := rfl
@[simp] theorem measPut_rdata (k : Nat) (m : Meas) (s : State) : (measPut k m s).rdata = s.rdata := rfl
@[simp] theorem measPut_free (k : Nat) (m : Meas) (s : State) : (measPut k m s).free = s.free := rfl
@[simp] theorem measPut_mix (k : Nat) (m : Meas) (s : State) : (measPut k m s).mix = s.mix := rfl
@[simp] theorem measPut_eqs (k : Nat) (m : Meas) (s : State) : (measPut k m s).eqs = s.eqs := rfl
@[simp] theorem measPut_str (k : Nat) (m : Meas) (s : State) : (measPut k m s).str = s.str := rfl
@[simp] theorem measPut_sil (k : Nat) (m : Meas) (s : State) : (measPut k m s).sil = s.sil := rfl
@[simp] theorem measPut_core (k : Nat) (m : Meas) (s : State) : (measPut k m s).core = s.core := rfl
@[simp] theorem measPut_cl (k : Nat) (m : Meas) (s : State) : (measPut k m s).cl = s.cl := rfl
@[simp] theorem measPut_sup (k : Nat) (m : Meas) (s : State) : (measPut k m s).sup = s.sup := rfl
@[simp] theorem measPut_pwr (k : Nat) (m : Meas) (s : State) : (measPut k m s).pwr = s.pwr := rfl
@[simp] theorem measPut_out (k : Nat) (m : Meas) (s : State) : (measPut k m s).out = s.out := rfl
@[simp] theorem measPut_pair (k : Nat) (m : Meas) (s : State) : (measPut k m s).pair = s.pair := rfl
@[simp] theorem measPut_ser (k : Nat) (m : Meas) (s : State) : (measPut k m s).ser = s.ser := rfl
@[simp] theorem measPut_swx (k : Nat) (m : Meas) (s : State) : (measPut k m s).swx = s.swx := rfl
@[simp] theorem measPut_gaz (k : Nat) (m : Meas) (s : State) : (measPut k m s).gaz = s.gaz := rfl
@[simp] theorem measPut_svb (k : Nat) (m : Meas) (s : State) : (measPut k m s).svb = s.svb := rfl
@[simp] theorem measPut_boot (k : Nat) (m : Meas) (s : State) : (measPut k m s).boot = s.boot := rfl
@[simp] theorem measPut_host (k : Nat) (m : Meas) (s : State) : (measPut k m s).host = s.host := rfl
@[simp] theorem measPut_frst (k : Nat) (m : Meas) (s : State) : (measPut k m s).frst = s.frst := rfl
@[simp] theorem measPut_srv (k : Nat) (m : Meas) (s : State) : (measPut k m s).srv = s.srv := rfl
@[simp] theorem measPut_pending (k : Nat) (m : Meas) (s : State) : (measPut k m s).pending = s.pending := rfl
@[simp] theorem measPut_cmp_st (k : Nat) (m : Meas) (s : State) : (measPut k m s).cmp.st = s.cmp.st := rfl
@[simp] theorem measPut_cmp_cur (k : Nat) (m : Meas) (s : State) : (measPut k m s).cmp.cur = s.cmp.cur := rfl
@[simp] theorem measPut_cmp_sw (k : Nat) (m : Meas) (s : State) : (measPut k m s).cmp.sw = s.cmp.sw := rfl
@[simp] theorem measPut_cmp_nextSel (k : Nat) (m : Meas) (s : State) : (measPut k m s).cmp.nextSel = s.cmp.nextSel :=
  rfl
@[simp] theorem measPut_cmp_cand (k : Nat) (m : Meas) (s : State) : (measPut k m s).cmp.cand = s.cmp.cand := rfl
@[simp] theorem measPut_cmp_base (k : Nat) (m : Meas) (s : State) : (measPut k m s).cmp.base = s.cmp.base := rfl
@[simp] theorem measPut_cmp_drifting (k : Nat) (m : Meas) (s : State) : (measPut k m s).cmp.drifting = s.cmp.drifting :=
  rfl
@[simp] theorem measPut_cmp_everLock (k : Nat) (m : Meas) (s : State) : (measPut k m s).cmp.everLock = s.cmp.everLock :=
  rfl
@[simp] theorem measPut_cmp_lockT (k : Nat) (m : Meas) (s : State) : (measPut k m s).cmp.lockT = s.cmp.lockT := rfl
@[simp] theorem measPut_cmp_unlockT (k : Nat) (m : Meas) (s : State) : (measPut k m s).cmp.unlockT = s.cmp.unlockT :=
  rfl
@[simp] theorem measPut_cmp_phaseErr (k : Nat) (m : Meas) (s : State) : (measPut k m s).cmp.phaseErr = s.cmp.phaseErr :=
  rfl
@[simp] theorem measPut_cmp_hist (k : Nat) (m : Meas) (s : State) : (measPut k m s).cmp.hist = s.cmp.hist := rfl
@[simp] theorem measPut_cmp_histSum (k : Nat) (m : Meas) (s : State) : (measPut k m s).cmp.histSum = s.cmp.histSum :=
  rfl
@[simp] theorem measPut_cmp_histCnt (k : Nat) (m : Meas) (s : State) : (measPut k m s).cmp.histCnt = s.cmp.histCnt :=
  rfl
@[simp] theorem measPut_cmp_holdRate (k : Nat) (m : Meas) (s : State) : (measPut k m s).cmp.holdRate = s.cmp.holdRate :=
  rfl
@[simp] theorem measPut_cmp_holdT (k : Nat) (m : Meas) (s : State) : (measPut k m s).cmp.holdT = s.cmp.holdT := rfl
@[simp] theorem measPut_cmp_bo (k : Nat) (m : Meas) (s : State) : (measPut k m s).cmp.bo = s.cmp.bo := rfl
@[simp] theorem measPut_cmp_slew (k : Nat) (m : Meas) (s : State) : (measPut k m s).cmp.slew = s.cmp.slew := rfl
@[simp] theorem measPut_cmp_step (k : Nat) (m : Meas) (s : State) : (measPut k m s).cmp.step = s.cmp.step := rfl
@[simp] theorem measPut_cmp_pstepQ (k : Nat) (m : Meas) (s : State) : (measPut k m s).cmp.pstepQ = s.cmp.pstepQ := rfl
@[simp] theorem measPut_cmp_realign (k : Nat) (m : Meas) (s : State) : (measPut k m s).cmp.realign = s.cmp.realign :=
  rfl
@[simp] theorem measPut_cmp_ticks (k : Nat) (m : Meas) (s : State) : (measPut k m s).cmp.ticks = s.cmp.ticks := rfl
@[simp] theorem outPut_hub (n : Nat) (x : OutCh) (s : State) : (outPut n x s).hub = s.hub := rfl
@[simp] theorem outPut_flt (n : Nat) (x : OutCh) (s : State) : (outPut n x s).flt = s.flt := rfl
@[simp] theorem outPut_time (n : Nat) (x : OutCh) (s : State) : (outPut n x s).time = s.time := rfl
@[simp] theorem outPut_grat (n : Nat) (x : OutCh) (s : State) : (outPut n x s).grat = s.grat := rfl
@[simp] theorem outPut_cmp (n : Nat) (x : OutCh) (s : State) : (outPut n x s).cmp = s.cmp := rfl
@[simp] theorem outPut_mem (n : Nat) (x : OutCh) (s : State) : (outPut n x s).mem = s.mem := rfl
@[simp] theorem outPut_eccBad (n : Nat) (x : OutCh) (s : State) : (outPut n x s).eccBad = s.eccBad := rfl
@[simp] theorem outPut_rdata (n : Nat) (x : OutCh) (s : State) : (outPut n x s).rdata = s.rdata := rfl
@[simp] theorem outPut_free (n : Nat) (x : OutCh) (s : State) : (outPut n x s).free = s.free := rfl
@[simp] theorem outPut_mix (n : Nat) (x : OutCh) (s : State) : (outPut n x s).mix = s.mix := rfl
@[simp] theorem outPut_eqs (n : Nat) (x : OutCh) (s : State) : (outPut n x s).eqs = s.eqs := rfl
@[simp] theorem outPut_str (n : Nat) (x : OutCh) (s : State) : (outPut n x s).str = s.str := rfl
@[simp] theorem outPut_sil (n : Nat) (x : OutCh) (s : State) : (outPut n x s).sil = s.sil := rfl
@[simp] theorem outPut_core (n : Nat) (x : OutCh) (s : State) : (outPut n x s).core = s.core := rfl
@[simp] theorem outPut_cl (n : Nat) (x : OutCh) (s : State) : (outPut n x s).cl = s.cl := rfl
@[simp] theorem outPut_sup (n : Nat) (x : OutCh) (s : State) : (outPut n x s).sup = s.sup := rfl
@[simp] theorem outPut_pwr (n : Nat) (x : OutCh) (s : State) : (outPut n x s).pwr = s.pwr := rfl
@[simp] theorem outPut_pair (n : Nat) (x : OutCh) (s : State) : (outPut n x s).pair = s.pair := rfl
@[simp] theorem outPut_ser (n : Nat) (x : OutCh) (s : State) : (outPut n x s).ser = s.ser := rfl
@[simp] theorem outPut_swx (n : Nat) (x : OutCh) (s : State) : (outPut n x s).swx = s.swx := rfl
@[simp] theorem outPut_gaz (n : Nat) (x : OutCh) (s : State) : (outPut n x s).gaz = s.gaz := rfl
@[simp] theorem outPut_svb (n : Nat) (x : OutCh) (s : State) : (outPut n x s).svb = s.svb := rfl
@[simp] theorem outPut_boot (n : Nat) (x : OutCh) (s : State) : (outPut n x s).boot = s.boot := rfl
@[simp] theorem outPut_host (n : Nat) (x : OutCh) (s : State) : (outPut n x s).host = s.host := rfl
@[simp] theorem outPut_frst (n : Nat) (x : OutCh) (s : State) : (outPut n x s).frst = s.frst := rfl
@[simp] theorem outPut_srv (n : Nat) (x : OutCh) (s : State) : (outPut n x s).srv = s.srv := rfl
@[simp] theorem outPut_pending (n : Nat) (x : OutCh) (s : State) : (outPut n x s).pending = s.pending := rfl
@[simp] theorem outPut_out_squall (n : Nat) (x : OutCh) (s : State) : (outPut n x s).out.squall = s.out.squall := rfl
@[simp] theorem outPut_out_squallDue (n : Nat) (x : OutCh) (s : State) : (outPut n x s).out.squallDue = s.out.squallDue :=
  rfl
@[simp] theorem outPut_out_trips (n : Nat) (x : OutCh) (s : State) : (outPut n x s).out.trips = s.out.trips := rfl
@[simp] theorem outPut_out_tripLoc (n : Nat) (x : OutCh) (s : State) : (outPut n x s).out.tripLoc = s.out.tripLoc :=
  rfl
@[simp] theorem outPut_out_tripStr (n : Nat) (x : OutCh) (s : State) : (outPut n x s).out.tripStr = s.out.tripStr :=
  rfl
@[simp] theorem outPut_out_senseLoc (n : Nat) (x : OutCh) (s : State) : (outPut n x s).out.senseLoc = s.out.senseLoc :=
  rfl
@[simp] theorem outPut_out_senseStr (n : Nat) (x : OutCh) (s : State) : (outPut n x s).out.senseStr = s.out.senseStr :=
  rfl
@[simp] theorem outPut_out_senseMiss (n : Nat) (x : OutCh) (s : State) : (outPut n x s).out.senseMiss = s.out.senseMiss :=
  rfl
@[simp] theorem prtPut_hub (p : Nat) (x : PortSt) (s : State) : (prtPut p x s).hub = s.hub := rfl
@[simp] theorem prtPut_flt (p : Nat) (x : PortSt) (s : State) : (prtPut p x s).flt = s.flt := rfl
@[simp] theorem prtPut_time (p : Nat) (x : PortSt) (s : State) : (prtPut p x s).time = s.time := rfl
@[simp] theorem prtPut_grat (p : Nat) (x : PortSt) (s : State) : (prtPut p x s).grat = s.grat := rfl
@[simp] theorem prtPut_cmp (p : Nat) (x : PortSt) (s : State) : (prtPut p x s).cmp = s.cmp := rfl
@[simp] theorem prtPut_mem (p : Nat) (x : PortSt) (s : State) : (prtPut p x s).mem = s.mem := rfl
@[simp] theorem prtPut_eccBad (p : Nat) (x : PortSt) (s : State) : (prtPut p x s).eccBad = s.eccBad := rfl
@[simp] theorem prtPut_rdata (p : Nat) (x : PortSt) (s : State) : (prtPut p x s).rdata = s.rdata := rfl
@[simp] theorem prtPut_free (p : Nat) (x : PortSt) (s : State) : (prtPut p x s).free = s.free := rfl
@[simp] theorem prtPut_mix (p : Nat) (x : PortSt) (s : State) : (prtPut p x s).mix = s.mix := rfl
@[simp] theorem prtPut_eqs (p : Nat) (x : PortSt) (s : State) : (prtPut p x s).eqs = s.eqs := rfl
@[simp] theorem prtPut_str (p : Nat) (x : PortSt) (s : State) : (prtPut p x s).str = s.str := rfl
@[simp] theorem prtPut_sil (p : Nat) (x : PortSt) (s : State) : (prtPut p x s).sil = s.sil := rfl
@[simp] theorem prtPut_core (p : Nat) (x : PortSt) (s : State) : (prtPut p x s).core = s.core := rfl
@[simp] theorem prtPut_cl (p : Nat) (x : PortSt) (s : State) : (prtPut p x s).cl = s.cl := rfl
@[simp] theorem prtPut_sup (p : Nat) (x : PortSt) (s : State) : (prtPut p x s).sup = s.sup := rfl
@[simp] theorem prtPut_pwr (p : Nat) (x : PortSt) (s : State) : (prtPut p x s).pwr = s.pwr := rfl
@[simp] theorem prtPut_out (p : Nat) (x : PortSt) (s : State) : (prtPut p x s).out = s.out := rfl
@[simp] theorem prtPut_pair (p : Nat) (x : PortSt) (s : State) : (prtPut p x s).pair = s.pair := rfl
@[simp] theorem prtPut_ser (p : Nat) (x : PortSt) (s : State) : (prtPut p x s).ser = s.ser := rfl
@[simp] theorem prtPut_gaz (p : Nat) (x : PortSt) (s : State) : (prtPut p x s).gaz = s.gaz := rfl
@[simp] theorem prtPut_svb (p : Nat) (x : PortSt) (s : State) : (prtPut p x s).svb = s.svb := rfl
@[simp] theorem prtPut_boot (p : Nat) (x : PortSt) (s : State) : (prtPut p x s).boot = s.boot := rfl
@[simp] theorem prtPut_host (p : Nat) (x : PortSt) (s : State) : (prtPut p x s).host = s.host := rfl
@[simp] theorem prtPut_frst (p : Nat) (x : PortSt) (s : State) : (prtPut p x s).frst = s.frst := rfl
@[simp] theorem prtPut_srv (p : Nat) (x : PortSt) (s : State) : (prtPut p x s).srv = s.srv := rfl
@[simp] theorem prtPut_pending (p : Nat) (x : PortSt) (s : State) : (prtPut p x s).pending = s.pending := rfl
@[simp] theorem prtPut_swx_dup (p : Nat) (x : PortSt) (s : State) : (prtPut p x s).swx.dup = s.swx.dup := rfl
@[simp] theorem prtPut_swx_flow (p : Nat) (x : PortSt) (s : State) : (prtPut p x s).swx.flow = s.swx.flow := rfl
@[simp] theorem rxPut_hub (r : Nat) (x : AesRx) (s : State) : (rxPut r x s).hub = s.hub := rfl
@[simp] theorem rxPut_flt (r : Nat) (x : AesRx) (s : State) : (rxPut r x s).flt = s.flt := rfl
@[simp] theorem rxPut_time (r : Nat) (x : AesRx) (s : State) : (rxPut r x s).time = s.time := rfl
@[simp] theorem rxPut_grat (r : Nat) (x : AesRx) (s : State) : (rxPut r x s).grat = s.grat := rfl
@[simp] theorem rxPut_cmp (r : Nat) (x : AesRx) (s : State) : (rxPut r x s).cmp = s.cmp := rfl
@[simp] theorem rxPut_mem (r : Nat) (x : AesRx) (s : State) : (rxPut r x s).mem = s.mem := rfl
@[simp] theorem rxPut_eccBad (r : Nat) (x : AesRx) (s : State) : (rxPut r x s).eccBad = s.eccBad := rfl
@[simp] theorem rxPut_rdata (r : Nat) (x : AesRx) (s : State) : (rxPut r x s).rdata = s.rdata := rfl
@[simp] theorem rxPut_free (r : Nat) (x : AesRx) (s : State) : (rxPut r x s).free = s.free := rfl
@[simp] theorem rxPut_mix (r : Nat) (x : AesRx) (s : State) : (rxPut r x s).mix = s.mix := rfl
@[simp] theorem rxPut_eqs (r : Nat) (x : AesRx) (s : State) : (rxPut r x s).eqs = s.eqs := rfl
@[simp] theorem rxPut_str (r : Nat) (x : AesRx) (s : State) : (rxPut r x s).str = s.str := rfl
@[simp] theorem rxPut_sil (r : Nat) (x : AesRx) (s : State) : (rxPut r x s).sil = s.sil := rfl
@[simp] theorem rxPut_core (r : Nat) (x : AesRx) (s : State) : (rxPut r x s).core = s.core := rfl
@[simp] theorem rxPut_cl (r : Nat) (x : AesRx) (s : State) : (rxPut r x s).cl = s.cl := rfl
@[simp] theorem rxPut_sup (r : Nat) (x : AesRx) (s : State) : (rxPut r x s).sup = s.sup := rfl
@[simp] theorem rxPut_pwr (r : Nat) (x : AesRx) (s : State) : (rxPut r x s).pwr = s.pwr := rfl
@[simp] theorem rxPut_out (r : Nat) (x : AesRx) (s : State) : (rxPut r x s).out = s.out := rfl
@[simp] theorem rxPut_pair (r : Nat) (x : AesRx) (s : State) : (rxPut r x s).pair = s.pair := rfl
@[simp] theorem rxPut_swx (r : Nat) (x : AesRx) (s : State) : (rxPut r x s).swx = s.swx := rfl
@[simp] theorem rxPut_gaz (r : Nat) (x : AesRx) (s : State) : (rxPut r x s).gaz = s.gaz := rfl
@[simp] theorem rxPut_svb (r : Nat) (x : AesRx) (s : State) : (rxPut r x s).svb = s.svb := rfl
@[simp] theorem rxPut_boot (r : Nat) (x : AesRx) (s : State) : (rxPut r x s).boot = s.boot := rfl
@[simp] theorem rxPut_host (r : Nat) (x : AesRx) (s : State) : (rxPut r x s).host = s.host := rfl
@[simp] theorem rxPut_frst (r : Nat) (x : AesRx) (s : State) : (rxPut r x s).frst = s.frst := rfl
@[simp] theorem rxPut_srv (r : Nat) (x : AesRx) (s : State) : (rxPut r x s).srv = s.srv := rfl
@[simp] theorem rxPut_pending (r : Nat) (x : AesRx) (s : State) : (rxPut r x s).pending = s.pending := rfl
@[simp] theorem rxPut_ser_tdm (r : Nat) (x : AesRx) (s : State) : (rxPut r x s).ser.tdm = s.ser.tdm := rfl
@[simp] theorem rxPut_ser_tx (r : Nat) (x : AesRx) (s : State) : (rxPut r x s).ser.tx = s.ser.tx := rfl
@[simp] theorem slotPut_hub (i : Nat) (x : SlotSt) (s : State) : (slotPut i x s).hub = s.hub := rfl
@[simp] theorem slotPut_flt (i : Nat) (x : SlotSt) (s : State) : (slotPut i x s).flt = s.flt := rfl
@[simp] theorem slotPut_time (i : Nat) (x : SlotSt) (s : State) : (slotPut i x s).time = s.time := rfl
@[simp] theorem slotPut_grat (i : Nat) (x : SlotSt) (s : State) : (slotPut i x s).grat = s.grat := rfl
@[simp] theorem slotPut_cmp (i : Nat) (x : SlotSt) (s : State) : (slotPut i x s).cmp = s.cmp := rfl
@[simp] theorem slotPut_mem (i : Nat) (x : SlotSt) (s : State) : (slotPut i x s).mem = s.mem := rfl
@[simp] theorem slotPut_eccBad (i : Nat) (x : SlotSt) (s : State) : (slotPut i x s).eccBad = s.eccBad := rfl
@[simp] theorem slotPut_rdata (i : Nat) (x : SlotSt) (s : State) : (slotPut i x s).rdata = s.rdata := rfl
@[simp] theorem slotPut_free (i : Nat) (x : SlotSt) (s : State) : (slotPut i x s).free = s.free := rfl
@[simp] theorem slotPut_eqs (i : Nat) (x : SlotSt) (s : State) : (slotPut i x s).eqs = s.eqs := rfl
@[simp] theorem slotPut_str (i : Nat) (x : SlotSt) (s : State) : (slotPut i x s).str = s.str := rfl
@[simp] theorem slotPut_sil (i : Nat) (x : SlotSt) (s : State) : (slotPut i x s).sil = s.sil := rfl
@[simp] theorem slotPut_core (i : Nat) (x : SlotSt) (s : State) : (slotPut i x s).core = s.core := rfl
@[simp] theorem slotPut_cl (i : Nat) (x : SlotSt) (s : State) : (slotPut i x s).cl = s.cl := rfl
@[simp] theorem slotPut_sup (i : Nat) (x : SlotSt) (s : State) : (slotPut i x s).sup = s.sup := rfl
@[simp] theorem slotPut_pwr (i : Nat) (x : SlotSt) (s : State) : (slotPut i x s).pwr = s.pwr := rfl
@[simp] theorem slotPut_out (i : Nat) (x : SlotSt) (s : State) : (slotPut i x s).out = s.out := rfl
@[simp] theorem slotPut_pair (i : Nat) (x : SlotSt) (s : State) : (slotPut i x s).pair = s.pair := rfl
@[simp] theorem slotPut_ser (i : Nat) (x : SlotSt) (s : State) : (slotPut i x s).ser = s.ser := rfl
@[simp] theorem slotPut_swx (i : Nat) (x : SlotSt) (s : State) : (slotPut i x s).swx = s.swx := rfl
@[simp] theorem slotPut_gaz (i : Nat) (x : SlotSt) (s : State) : (slotPut i x s).gaz = s.gaz := rfl
@[simp] theorem slotPut_svb (i : Nat) (x : SlotSt) (s : State) : (slotPut i x s).svb = s.svb := rfl
@[simp] theorem slotPut_boot (i : Nat) (x : SlotSt) (s : State) : (slotPut i x s).boot = s.boot := rfl
@[simp] theorem slotPut_host (i : Nat) (x : SlotSt) (s : State) : (slotPut i x s).host = s.host := rfl
@[simp] theorem slotPut_frst (i : Nat) (x : SlotSt) (s : State) : (slotPut i x s).frst = s.frst := rfl
@[simp] theorem slotPut_srv (i : Nat) (x : SlotSt) (s : State) : (slotPut i x s).srv = s.srv := rfl
@[simp] theorem slotPut_pending (i : Nat) (x : SlotSt) (s : State) : (slotPut i x s).pending = s.pending := rfl
@[simp] theorem slotPut_mix_inputs (i : Nat) (x : SlotSt) (s : State) : (slotPut i x s).mix.inputs = s.mix.inputs :=
  rfl
@[simp] theorem slotPut_mix_xp (i : Nat) (x : SlotSt) (s : State) : (slotPut i x s).mix.xp = s.mix.xp := rfl
@[simp] theorem slotPut_mix_buses (i : Nat) (x : SlotSt) (s : State) : (slotPut i x s).mix.buses = s.mix.buses := rfl
@[simp] theorem slotPut_mix_busPrev (i : Nat) (x : SlotSt) (s : State) : (slotPut i x s).mix.busPrev = s.mix.busPrev :=
  rfl
@[simp] theorem slotPut_mix_busPrev2 (i : Nat) (x : SlotSt) (s : State) : (slotPut i x s).mix.busPrev2 = s.mix.busPrev2 :=
  rfl
@[simp] theorem slotPut_mix_clOut (i : Nat) (x : SlotSt) (s : State) : (slotPut i x s).mix.clOut = s.mix.clOut := rfl
@[simp] theorem slotPut_mix_clMute (i : Nat) (x : SlotSt) (s : State) : (slotPut i x s).mix.clMute = s.mix.clMute :=
  rfl
@[simp] theorem slotPut_mix_busMuted (i : Nat) (x : SlotSt) (s : State) : (slotPut i x s).mix.busMuted = s.mix.busMuted :=
  rfl
@[simp] theorem slotPut_mix_outMute (i : Nat) (x : SlotSt) (s : State) : (slotPut i x s).mix.outMute = s.mix.outMute :=
  rfl
@[simp] theorem slotPut_mix_egr (i : Nat) (x : SlotSt) (s : State) : (slotPut i x s).mix.egr = s.mix.egr := rfl
@[simp] theorem slotPut_mix_egress (i : Nat) (x : SlotSt) (s : State) : (slotPut i x s).mix.egress = s.mix.egress :=
  rfl
@[simp] theorem slotPut_mix_egPrev (i : Nat) (x : SlotSt) (s : State) : (slotPut i x s).mix.egPrev = s.mix.egPrev :=
  rfl
@[simp] theorem slotPut_mix_slipDue (i : Nat) (x : SlotSt) (s : State) : (slotPut i x s).mix.slipDue = s.mix.slipDue :=
  rfl
@[simp] theorem tdmPut_hub (n : Nat) (x : TdmPort) (s : State) : (tdmPut n x s).hub = s.hub := rfl
@[simp] theorem tdmPut_flt (n : Nat) (x : TdmPort) (s : State) : (tdmPut n x s).flt = s.flt := rfl
@[simp] theorem tdmPut_time (n : Nat) (x : TdmPort) (s : State) : (tdmPut n x s).time = s.time := rfl
@[simp] theorem tdmPut_grat (n : Nat) (x : TdmPort) (s : State) : (tdmPut n x s).grat = s.grat := rfl
@[simp] theorem tdmPut_cmp (n : Nat) (x : TdmPort) (s : State) : (tdmPut n x s).cmp = s.cmp := rfl
@[simp] theorem tdmPut_mem (n : Nat) (x : TdmPort) (s : State) : (tdmPut n x s).mem = s.mem := rfl
@[simp] theorem tdmPut_eccBad (n : Nat) (x : TdmPort) (s : State) : (tdmPut n x s).eccBad = s.eccBad := rfl
@[simp] theorem tdmPut_rdata (n : Nat) (x : TdmPort) (s : State) : (tdmPut n x s).rdata = s.rdata := rfl
@[simp] theorem tdmPut_free (n : Nat) (x : TdmPort) (s : State) : (tdmPut n x s).free = s.free := rfl
@[simp] theorem tdmPut_mix (n : Nat) (x : TdmPort) (s : State) : (tdmPut n x s).mix = s.mix := rfl
@[simp] theorem tdmPut_eqs (n : Nat) (x : TdmPort) (s : State) : (tdmPut n x s).eqs = s.eqs := rfl
@[simp] theorem tdmPut_str (n : Nat) (x : TdmPort) (s : State) : (tdmPut n x s).str = s.str := rfl
@[simp] theorem tdmPut_sil (n : Nat) (x : TdmPort) (s : State) : (tdmPut n x s).sil = s.sil := rfl
@[simp] theorem tdmPut_core (n : Nat) (x : TdmPort) (s : State) : (tdmPut n x s).core = s.core := rfl
@[simp] theorem tdmPut_cl (n : Nat) (x : TdmPort) (s : State) : (tdmPut n x s).cl = s.cl := rfl
@[simp] theorem tdmPut_sup (n : Nat) (x : TdmPort) (s : State) : (tdmPut n x s).sup = s.sup := rfl
@[simp] theorem tdmPut_pwr (n : Nat) (x : TdmPort) (s : State) : (tdmPut n x s).pwr = s.pwr := rfl
@[simp] theorem tdmPut_out (n : Nat) (x : TdmPort) (s : State) : (tdmPut n x s).out = s.out := rfl
@[simp] theorem tdmPut_pair (n : Nat) (x : TdmPort) (s : State) : (tdmPut n x s).pair = s.pair := rfl
@[simp] theorem tdmPut_swx (n : Nat) (x : TdmPort) (s : State) : (tdmPut n x s).swx = s.swx := rfl
@[simp] theorem tdmPut_gaz (n : Nat) (x : TdmPort) (s : State) : (tdmPut n x s).gaz = s.gaz := rfl
@[simp] theorem tdmPut_svb (n : Nat) (x : TdmPort) (s : State) : (tdmPut n x s).svb = s.svb := rfl
@[simp] theorem tdmPut_boot (n : Nat) (x : TdmPort) (s : State) : (tdmPut n x s).boot = s.boot := rfl
@[simp] theorem tdmPut_host (n : Nat) (x : TdmPort) (s : State) : (tdmPut n x s).host = s.host := rfl
@[simp] theorem tdmPut_frst (n : Nat) (x : TdmPort) (s : State) : (tdmPut n x s).frst = s.frst := rfl
@[simp] theorem tdmPut_srv (n : Nat) (x : TdmPort) (s : State) : (tdmPut n x s).srv = s.srv := rfl
@[simp] theorem tdmPut_pending (n : Nat) (x : TdmPort) (s : State) : (tdmPut n x s).pending = s.pending := rfl
@[simp] theorem tdmPut_ser_rx (n : Nat) (x : TdmPort) (s : State) : (tdmPut n x s).ser.rx = s.ser.rx := rfl
@[simp] theorem tdmPut_ser_tx (n : Nat) (x : TdmPort) (s : State) : (tdmPut n x s).ser.tx = s.ser.tx := rfl
@[simp] theorem tevPut_hub (n : Nat) (t : Tev) (s : State) : (tevPut n t s).hub = s.hub := rfl
@[simp] theorem tevPut_flt (n : Nat) (t : Tev) (s : State) : (tevPut n t s).flt = s.flt := rfl
@[simp] theorem tevPut_grat (n : Nat) (t : Tev) (s : State) : (tevPut n t s).grat = s.grat := rfl
@[simp] theorem tevPut_cmp (n : Nat) (t : Tev) (s : State) : (tevPut n t s).cmp = s.cmp := rfl
@[simp] theorem tevPut_mem (n : Nat) (t : Tev) (s : State) : (tevPut n t s).mem = s.mem := rfl
@[simp] theorem tevPut_eccBad (n : Nat) (t : Tev) (s : State) : (tevPut n t s).eccBad = s.eccBad := rfl
@[simp] theorem tevPut_rdata (n : Nat) (t : Tev) (s : State) : (tevPut n t s).rdata = s.rdata := rfl
@[simp] theorem tevPut_free (n : Nat) (t : Tev) (s : State) : (tevPut n t s).free = s.free := rfl
@[simp] theorem tevPut_mix (n : Nat) (t : Tev) (s : State) : (tevPut n t s).mix = s.mix := rfl
@[simp] theorem tevPut_eqs (n : Nat) (t : Tev) (s : State) : (tevPut n t s).eqs = s.eqs := rfl
@[simp] theorem tevPut_str (n : Nat) (t : Tev) (s : State) : (tevPut n t s).str = s.str := rfl
@[simp] theorem tevPut_sil (n : Nat) (t : Tev) (s : State) : (tevPut n t s).sil = s.sil := rfl
@[simp] theorem tevPut_core (n : Nat) (t : Tev) (s : State) : (tevPut n t s).core = s.core := rfl
@[simp] theorem tevPut_cl (n : Nat) (t : Tev) (s : State) : (tevPut n t s).cl = s.cl := rfl
@[simp] theorem tevPut_sup (n : Nat) (t : Tev) (s : State) : (tevPut n t s).sup = s.sup := rfl
@[simp] theorem tevPut_pwr (n : Nat) (t : Tev) (s : State) : (tevPut n t s).pwr = s.pwr := rfl
@[simp] theorem tevPut_out (n : Nat) (t : Tev) (s : State) : (tevPut n t s).out = s.out := rfl
@[simp] theorem tevPut_pair (n : Nat) (t : Tev) (s : State) : (tevPut n t s).pair = s.pair := rfl
@[simp] theorem tevPut_ser (n : Nat) (t : Tev) (s : State) : (tevPut n t s).ser = s.ser := rfl
@[simp] theorem tevPut_swx (n : Nat) (t : Tev) (s : State) : (tevPut n t s).swx = s.swx := rfl
@[simp] theorem tevPut_gaz (n : Nat) (t : Tev) (s : State) : (tevPut n t s).gaz = s.gaz := rfl
@[simp] theorem tevPut_svb (n : Nat) (t : Tev) (s : State) : (tevPut n t s).svb = s.svb := rfl
@[simp] theorem tevPut_boot (n : Nat) (t : Tev) (s : State) : (tevPut n t s).boot = s.boot := rfl
@[simp] theorem tevPut_host (n : Nat) (t : Tev) (s : State) : (tevPut n t s).host = s.host := rfl
@[simp] theorem tevPut_frst (n : Nat) (t : Tev) (s : State) : (tevPut n t s).frst = s.frst := rfl
@[simp] theorem tevPut_srv (n : Nat) (t : Tev) (s : State) : (tevPut n t s).srv = s.srv := rfl
@[simp] theorem tevPut_pending (n : Nat) (t : Tev) (s : State) : (tevPut n t s).pending = s.pending := rfl
@[simp] theorem tevPut_time_lc (n : Nat) (t : Tev) (s : State) : (tevPut n t s).time.lc = s.time.lc := rfl
@[simp] theorem tevPut_time_offset (n : Nat) (t : Tev) (s : State) : (tevPut n t s).time.offset = s.time.offset := rfl
@[simp] theorem tevPut_time_rate (n : Nat) (t : Tev) (s : State) : (tevPut n t s).time.rate = s.time.rate := rfl
@[simp] theorem tevPut_time_stepCnt (n : Nat) (t : Tev) (s : State) : (tevPut n t s).time.stepCnt = s.time.stepCnt :=
  rfl
@[simp] theorem tevPut_time_ppsNext (n : Nat) (t : Tev) (s : State) : (tevPut n t s).time.ppsNext = s.time.ppsNext :=
  rfl
@[simp] theorem tevPut_time_ppsOn (n : Nat) (t : Tev) (s : State) : (tevPut n t s).time.ppsOn = s.time.ppsOn := rfl
@[simp] theorem tevPut_time_ppsEnd (n : Nat) (t : Tev) (s : State) : (tevPut n t s).time.ppsEnd = s.time.ppsEnd := rfl
@[simp] theorem tevPut_time_outOfs (n : Nat) (t : Tev) (s : State) : (tevPut n t s).time.outOfs = s.time.outOfs := rfl
@[simp] theorem tevPut_time_tcap (n : Nat) (t : Tev) (s : State) : (tevPut n t s).time.tcap = s.time.tcap := rfl
@[simp] theorem tevPut_time_txf (n : Nat) (t : Tev) (s : State) : (tevPut n t s).time.txf = s.time.txf := rfl
@[simp] theorem tevPut_time_txDrop (n : Nat) (t : Tev) (s : State) : (tevPut n t s).time.txDrop = s.time.txDrop := rfl
@[simp] theorem txPut_hub (t : Nat) (x : AesTx) (s : State) : (txPut t x s).hub = s.hub := rfl
@[simp] theorem txPut_flt (t : Nat) (x : AesTx) (s : State) : (txPut t x s).flt = s.flt := rfl
@[simp] theorem txPut_time (t : Nat) (x : AesTx) (s : State) : (txPut t x s).time = s.time := rfl
@[simp] theorem txPut_grat (t : Nat) (x : AesTx) (s : State) : (txPut t x s).grat = s.grat := rfl
@[simp] theorem txPut_cmp (t : Nat) (x : AesTx) (s : State) : (txPut t x s).cmp = s.cmp := rfl
@[simp] theorem txPut_mem (t : Nat) (x : AesTx) (s : State) : (txPut t x s).mem = s.mem := rfl
@[simp] theorem txPut_eccBad (t : Nat) (x : AesTx) (s : State) : (txPut t x s).eccBad = s.eccBad := rfl
@[simp] theorem txPut_rdata (t : Nat) (x : AesTx) (s : State) : (txPut t x s).rdata = s.rdata := rfl
@[simp] theorem txPut_free (t : Nat) (x : AesTx) (s : State) : (txPut t x s).free = s.free := rfl
@[simp] theorem txPut_mix (t : Nat) (x : AesTx) (s : State) : (txPut t x s).mix = s.mix := rfl
@[simp] theorem txPut_eqs (t : Nat) (x : AesTx) (s : State) : (txPut t x s).eqs = s.eqs := rfl
@[simp] theorem txPut_str (t : Nat) (x : AesTx) (s : State) : (txPut t x s).str = s.str := rfl
@[simp] theorem txPut_sil (t : Nat) (x : AesTx) (s : State) : (txPut t x s).sil = s.sil := rfl
@[simp] theorem txPut_core (t : Nat) (x : AesTx) (s : State) : (txPut t x s).core = s.core := rfl
@[simp] theorem txPut_cl (t : Nat) (x : AesTx) (s : State) : (txPut t x s).cl = s.cl := rfl
@[simp] theorem txPut_sup (t : Nat) (x : AesTx) (s : State) : (txPut t x s).sup = s.sup := rfl
@[simp] theorem txPut_pwr (t : Nat) (x : AesTx) (s : State) : (txPut t x s).pwr = s.pwr := rfl
@[simp] theorem txPut_out (t : Nat) (x : AesTx) (s : State) : (txPut t x s).out = s.out := rfl
@[simp] theorem txPut_pair (t : Nat) (x : AesTx) (s : State) : (txPut t x s).pair = s.pair := rfl
@[simp] theorem txPut_swx (t : Nat) (x : AesTx) (s : State) : (txPut t x s).swx = s.swx := rfl
@[simp] theorem txPut_gaz (t : Nat) (x : AesTx) (s : State) : (txPut t x s).gaz = s.gaz := rfl
@[simp] theorem txPut_svb (t : Nat) (x : AesTx) (s : State) : (txPut t x s).svb = s.svb := rfl
@[simp] theorem txPut_boot (t : Nat) (x : AesTx) (s : State) : (txPut t x s).boot = s.boot := rfl
@[simp] theorem txPut_host (t : Nat) (x : AesTx) (s : State) : (txPut t x s).host = s.host := rfl
@[simp] theorem txPut_frst (t : Nat) (x : AesTx) (s : State) : (txPut t x s).frst = s.frst := rfl
@[simp] theorem txPut_srv (t : Nat) (x : AesTx) (s : State) : (txPut t x s).srv = s.srv := rfl
@[simp] theorem txPut_pending (t : Nat) (x : AesTx) (s : State) : (txPut t x s).pending = s.pending := rfl
@[simp] theorem txPut_ser_tdm (t : Nat) (x : AesTx) (s : State) : (txPut t x s).ser.tdm = s.ser.tdm := rfl
@[simp] theorem txPut_ser_rx (t : Nat) (x : AesTx) (s : State) : (txPut t x s).ser.rx = s.ser.rx := rfl
@[simp] theorem mStores_hub (a : Nat) (l : List Byte) (s : State) : (mStores a l s).hub = s.hub := by
  induction l generalizing a s with
  | nil => rfl
  | cons b t ih => simp [mStores, ih]
@[simp] theorem mStoreW_hub (a v : Nat) (s : State) : (mStoreW a v s).hub = s.hub := mStores_hub _ _ _
@[simp] theorem mStores_flt (a : Nat) (l : List Byte) (s : State) : (mStores a l s).flt = s.flt := by
  induction l generalizing a s with
  | nil => rfl
  | cons b t ih => simp [mStores, ih]
@[simp] theorem mStoreW_flt (a v : Nat) (s : State) : (mStoreW a v s).flt = s.flt := mStores_flt _ _ _
@[simp] theorem mStores_time (a : Nat) (l : List Byte) (s : State) : (mStores a l s).time = s.time := by
  induction l generalizing a s with
  | nil => rfl
  | cons b t ih => simp [mStores, ih]
@[simp] theorem mStoreW_time (a v : Nat) (s : State) : (mStoreW a v s).time = s.time := mStores_time _ _ _
@[simp] theorem mStores_grat (a : Nat) (l : List Byte) (s : State) : (mStores a l s).grat = s.grat := by
  induction l generalizing a s with
  | nil => rfl
  | cons b t ih => simp [mStores, ih]
@[simp] theorem mStoreW_grat (a v : Nat) (s : State) : (mStoreW a v s).grat = s.grat := mStores_grat _ _ _
@[simp] theorem mStores_cmp (a : Nat) (l : List Byte) (s : State) : (mStores a l s).cmp = s.cmp := by
  induction l generalizing a s with
  | nil => rfl
  | cons b t ih => simp [mStores, ih]
@[simp] theorem mStoreW_cmp (a v : Nat) (s : State) : (mStoreW a v s).cmp = s.cmp := mStores_cmp _ _ _
@[simp] theorem mStores_eccBad (a : Nat) (l : List Byte) (s : State) : (mStores a l s).eccBad = s.eccBad := by
  induction l generalizing a s with
  | nil => rfl
  | cons b t ih => simp [mStores, ih]
@[simp] theorem mStoreW_eccBad (a v : Nat) (s : State) : (mStoreW a v s).eccBad = s.eccBad := mStores_eccBad _ _ _
@[simp] theorem mStores_rdata (a : Nat) (l : List Byte) (s : State) : (mStores a l s).rdata = s.rdata := by
  induction l generalizing a s with
  | nil => rfl
  | cons b t ih => simp [mStores, ih]
@[simp] theorem mStoreW_rdata (a v : Nat) (s : State) : (mStoreW a v s).rdata = s.rdata := mStores_rdata _ _ _
@[simp] theorem mStores_free (a : Nat) (l : List Byte) (s : State) : (mStores a l s).free = s.free := by
  induction l generalizing a s with
  | nil => rfl
  | cons b t ih => simp [mStores, ih]
@[simp] theorem mStoreW_free (a v : Nat) (s : State) : (mStoreW a v s).free = s.free := mStores_free _ _ _
@[simp] theorem mStores_mix (a : Nat) (l : List Byte) (s : State) : (mStores a l s).mix = s.mix := by
  induction l generalizing a s with
  | nil => rfl
  | cons b t ih => simp [mStores, ih]
@[simp] theorem mStoreW_mix (a v : Nat) (s : State) : (mStoreW a v s).mix = s.mix := mStores_mix _ _ _
@[simp] theorem mStores_eqs (a : Nat) (l : List Byte) (s : State) : (mStores a l s).eqs = s.eqs := by
  induction l generalizing a s with
  | nil => rfl
  | cons b t ih => simp [mStores, ih]
@[simp] theorem mStoreW_eqs (a v : Nat) (s : State) : (mStoreW a v s).eqs = s.eqs := mStores_eqs _ _ _
@[simp] theorem mStores_str (a : Nat) (l : List Byte) (s : State) : (mStores a l s).str = s.str := by
  induction l generalizing a s with
  | nil => rfl
  | cons b t ih => simp [mStores, ih]
@[simp] theorem mStoreW_str (a v : Nat) (s : State) : (mStoreW a v s).str = s.str := mStores_str _ _ _
@[simp] theorem mStores_sil (a : Nat) (l : List Byte) (s : State) : (mStores a l s).sil = s.sil := by
  induction l generalizing a s with
  | nil => rfl
  | cons b t ih => simp [mStores, ih]
@[simp] theorem mStoreW_sil (a v : Nat) (s : State) : (mStoreW a v s).sil = s.sil := mStores_sil _ _ _
@[simp] theorem mStores_core (a : Nat) (l : List Byte) (s : State) : (mStores a l s).core = s.core := by
  induction l generalizing a s with
  | nil => rfl
  | cons b t ih => simp [mStores, ih]
@[simp] theorem mStoreW_core (a v : Nat) (s : State) : (mStoreW a v s).core = s.core := mStores_core _ _ _
@[simp] theorem mStores_cl (a : Nat) (l : List Byte) (s : State) : (mStores a l s).cl = s.cl := by
  induction l generalizing a s with
  | nil => rfl
  | cons b t ih => simp [mStores, ih]
@[simp] theorem mStoreW_cl (a v : Nat) (s : State) : (mStoreW a v s).cl = s.cl := mStores_cl _ _ _
@[simp] theorem mStores_sup (a : Nat) (l : List Byte) (s : State) : (mStores a l s).sup = s.sup := by
  induction l generalizing a s with
  | nil => rfl
  | cons b t ih => simp [mStores, ih]
@[simp] theorem mStoreW_sup (a v : Nat) (s : State) : (mStoreW a v s).sup = s.sup := mStores_sup _ _ _
@[simp] theorem mStores_pwr (a : Nat) (l : List Byte) (s : State) : (mStores a l s).pwr = s.pwr := by
  induction l generalizing a s with
  | nil => rfl
  | cons b t ih => simp [mStores, ih]
@[simp] theorem mStoreW_pwr (a v : Nat) (s : State) : (mStoreW a v s).pwr = s.pwr := mStores_pwr _ _ _
@[simp] theorem mStores_out (a : Nat) (l : List Byte) (s : State) : (mStores a l s).out = s.out := by
  induction l generalizing a s with
  | nil => rfl
  | cons b t ih => simp [mStores, ih]
@[simp] theorem mStoreW_out (a v : Nat) (s : State) : (mStoreW a v s).out = s.out := mStores_out _ _ _
@[simp] theorem mStores_pair (a : Nat) (l : List Byte) (s : State) : (mStores a l s).pair = s.pair := by
  induction l generalizing a s with
  | nil => rfl
  | cons b t ih => simp [mStores, ih]
@[simp] theorem mStoreW_pair (a v : Nat) (s : State) : (mStoreW a v s).pair = s.pair := mStores_pair _ _ _
@[simp] theorem mStores_ser (a : Nat) (l : List Byte) (s : State) : (mStores a l s).ser = s.ser := by
  induction l generalizing a s with
  | nil => rfl
  | cons b t ih => simp [mStores, ih]
@[simp] theorem mStoreW_ser (a v : Nat) (s : State) : (mStoreW a v s).ser = s.ser := mStores_ser _ _ _
@[simp] theorem mStores_swx (a : Nat) (l : List Byte) (s : State) : (mStores a l s).swx = s.swx := by
  induction l generalizing a s with
  | nil => rfl
  | cons b t ih => simp [mStores, ih]
@[simp] theorem mStoreW_swx (a v : Nat) (s : State) : (mStoreW a v s).swx = s.swx := mStores_swx _ _ _
@[simp] theorem mStores_gaz (a : Nat) (l : List Byte) (s : State) : (mStores a l s).gaz = s.gaz := by
  induction l generalizing a s with
  | nil => rfl
  | cons b t ih => simp [mStores, ih]
@[simp] theorem mStoreW_gaz (a v : Nat) (s : State) : (mStoreW a v s).gaz = s.gaz := mStores_gaz _ _ _
@[simp] theorem mStores_svb (a : Nat) (l : List Byte) (s : State) : (mStores a l s).svb = s.svb := by
  induction l generalizing a s with
  | nil => rfl
  | cons b t ih => simp [mStores, ih]
@[simp] theorem mStoreW_svb (a v : Nat) (s : State) : (mStoreW a v s).svb = s.svb := mStores_svb _ _ _
@[simp] theorem mStores_boot (a : Nat) (l : List Byte) (s : State) : (mStores a l s).boot = s.boot := by
  induction l generalizing a s with
  | nil => rfl
  | cons b t ih => simp [mStores, ih]
@[simp] theorem mStoreW_boot (a v : Nat) (s : State) : (mStoreW a v s).boot = s.boot := mStores_boot _ _ _
@[simp] theorem mStores_host (a : Nat) (l : List Byte) (s : State) : (mStores a l s).host = s.host := by
  induction l generalizing a s with
  | nil => rfl
  | cons b t ih => simp [mStores, ih]
@[simp] theorem mStoreW_host (a v : Nat) (s : State) : (mStoreW a v s).host = s.host := mStores_host _ _ _
@[simp] theorem mStores_frst (a : Nat) (l : List Byte) (s : State) : (mStores a l s).frst = s.frst := by
  induction l generalizing a s with
  | nil => rfl
  | cons b t ih => simp [mStores, ih]
@[simp] theorem mStoreW_frst (a v : Nat) (s : State) : (mStoreW a v s).frst = s.frst := mStores_frst _ _ _
@[simp] theorem mStores_srv (a : Nat) (l : List Byte) (s : State) : (mStores a l s).srv = s.srv := by
  induction l generalizing a s with
  | nil => rfl
  | cons b t ih => simp [mStores, ih]
@[simp] theorem mStoreW_srv (a v : Nat) (s : State) : (mStoreW a v s).srv = s.srv := mStores_srv _ _ _
@[simp] theorem mStores_pending (a : Nat) (l : List Byte) (s : State) : (mStores a l s).pending = s.pending := by
  induction l generalizing a s with
  | nil => rfl
  | cons b t ih => simp [mStores, ih]
@[simp] theorem mStoreW_pending (a v : Nat) (s : State) : (mStoreW a v s).pending = s.pending := mStores_pending _ _ _

/-- Two states with the same registers read the same. -/
theorem lv_of {s t : State} (h : s.hub.live = t.hub.live) (a : Nat) : lv s a = lv t a := by unfold lv; rw [h]
theorem lvn_of {s t : State} (h : s.hub.live = t.hub.live) (a : Nat) : lvn s a = lvn t a := by unfold lvn; rw [lv_of h]
theorem lf_of {s t : State} (h : s.hub.live = t.hub.live) (a lo n : Nat) : lf s a lo n = lf t a lo n := by unfold lf; rw [lv_of h]
theorem lb_of {s t : State} (h : s.hub.live = t.hub.live) (a i : Nat) : lb s a i = lb t a i := by unfold lb; rw [lv_of h]

end Sys2Proof.Machine
end

