-- ==== Sys2Proof/Laws/Packet.lean ====
section
/-! SUPPORT. What a packet of a core does, once it issues. -/

namespace Sys2Proof.Machine

theorem core_of {s t : State} (h : s.core = t.core) (j : Nat) : coreGet s j = coreGet t j := by unfold coreGet; rw [h]

theorem corePut_get {t : State} (h : coresWf t = true) (k : Nat) (c : NCore) (j : Nat) :
    coreGet (corePut k c t) j = if j = k then c else coreGet t j := tget_tset h k c j

theorem corePut_wf {t : State} (h : coresWf t = true) (k : Nat) (c : NCore) : coresWf (corePut k c t) = true :=
  tabWf_tset h k c

theorem coresWf_of {s t : State} (h : s.core = t.core) : coresWf s = coresWf t := by unfold coresWf; rw [h]

/-- The registers of a packet's operations, done one after another from the registers at issue. -/
def slotsDone (s : State) (k t : Nat) (x : NCore) (ops : List SlotOp) (c : NCore) : NCore :=
  ops.foldl (fun c o => postFx x o (loadFx s k t x o (opFx s t x o c))) c

/-- The account and the sampling of a packet at clock t. -/
def packetSrv (k t back : Nat) (gap : Tab Nat) (x : NCore) (ops : List SlotOp) (bo : Option (Posted ⊕ BusLoad)) (n : Next)
    (cycle : Nat) (s1 : State) : State :=
  let isLoad := match bo with
    | some (.inr _) => true
    | _ => false
  let s2 := whenS isLoad (srvCore k 6 1) (issueAccount k back n.add true n.waste true s1)
  let s3 := whenS (bo.isSome && k != 32) (srvUp (21 + k / 8) 1 1) s2
  let g := gapReason gap
  let lat := if isLoad then 0 else g.2 + max 1 (packetLat ops)
  smpRetire k { core := k, reason := g.1, held := g.2, pc := x.pc, cyc := t, lat := lat, cycle := cycle } s3

theorem srvUp_srv (b i n : Nat) (s : State) : srvUp b i n s = { s with srv := (srvUp b i n s).srv } := by
  unfold srvUp; split <;> rfl
theorem srvCore_srv (b i n : Nat) (s : State) : srvCore b i n s = { s with srv := (srvCore b i n s).srv } := by
  unfold srvCore; split <;> rfl
theorem issueAccount_srv (k back add : Nat) (r w f : Bool) (s : State) :
    issueAccount k back add r w f s = { s with srv := (issueAccount k back add r w f s).srv } := by
  unfold issueAccount
  dsimp only
  rw [srvCore_srv, srvCore_srv (s := srvCore k 3 back s), srvCore_srv (s := s)]
theorem smpRetire_srv (k : Nat) (r : SmpRec) (s : State) : smpRetire k r s = { s with srv := (smpRetire k r s).srv } := by
  unfold smpRetire
  dsimp only
  (repeat' split) <;> rfl
theorem whenS_srv (c : Bool) (f : State → State) (s : State) (hf : ∀ t, f t = { t with srv := (f t).srv }) :
    whenS c f s = { s with srv := (whenS c f s).srv } := by
  unfold whenS; split
  · exact hf s
  · rfl

/-- The account changes nothing but the Survey. -/
theorem packetSrv_eq (k t back : Nat) (gap : Tab Nat) (x : NCore) (ops : List SlotOp) (bo : Option (Posted ⊕ BusLoad))
    (n : Next) (cycle : Nat) (s : State) :
    packetSrv k t back gap x ops bo n cycle s = { s with srv := (packetSrv k t back gap x ops bo n cycle s).srv } := by
  unfold packetSrv
  dsimp only
  rw [smpRetire_srv, whenS_srv _ (srvUp _ 1 1) _ (srvUp_srv _ _ _), whenS_srv _ (srvCore k 6 1) _ (srvCore_srv _ _ _),
    issueAccount_srv]

/-- The bus side of a packet, and where it leads. -/
def packetNext (k : Nat) (x : NCore) (ops : List SlotOp) (c : NCore) : Next := ctlNext k x ops (busOut c (busOp k x ops))

/-- A packet that goes does its slots, its bus side, its stores, its account and its waits. -/
theorem packet_goes {s : State} {k : Nat} {g : Option (Bool × Fin 4)} {ops : List SlotOp} (h : packetGoes s k g ops = true) :
    ∃ back gap, issuePacket k g ops s =
      (let t := issueClock s k ops
       let x := issueView s k ops
       let n := packetNext k x ops (slotsDone s k t x ops x)
       waitFx k x ops (packetSrv k t back gap x ops (busOp k x ops) n s.grat.cycle
         (corePut k { n.core with cyc := t + 1 + n.add, gap := if n.add = 0 then [] else [(n.why, n.add)] }
           (foldS ops (storeFx k x) s)))) := by
  simp only [packetGoes, Bool.and_eq_true, Bool.not_eq_true', Option.isNone_iff_eq_none] at h
  obtain ⟨⟨⟨⟨h1, h2⟩, h3⟩, h4⟩, h5⟩ := h
  let x0 := issueCore s k
  let r := readyAt x0 ops
  let st := bankStalls (packetBanks k (landTo r x0) ops)
  let g1 := tset 0 x0.gap 2 (tget 0 x0.gap 2 + (r - x0.cyc))
  refine ⟨issueClock s k ops - x0.cyc, tset 0 g1 1 (tget 0 g1 1 + st), ?_⟩
  unfold issuePacket
  have h1' : (!coreTakes s k) = false := by rw [h1]; rfl
  rw [if_neg (by rw [h1']; exact Bool.false_ne_true)]
  have e1 : guardOn { coreGet s k with levels := levelsOpen (coreGet s k).levels, wfi := false } g = true := h2
  simp only [e1, if_true]
  refine (if_neg ?_).trans ?_
  · rw [Bool.eq_false_iff] at h3; exact h3
  · have e4 : lowestExc (packetExc s k (landTo (issueClock s k ops) (issueCore s k)) true ops) = none := h4
    have e5 : busWaits (landTo (issueClock s k ops) (issueCore s k)) (busOp k (landTo (issueClock s k ops) (issueCore s k)) ops) = false := h5
    simp only [issueClock, issueCore] at e4 e5
    simp only [e4, e5, Bool.and_false]
    rfl

/-! ### Causes -/

theorem lowestExc_none {l : List (Nat × Option Nat)} (h : lowestExc l = none) : l = [] := by
  cases l with
  | nil => rfl
  | cons a t =>
    exfalso
    have key : ∀ (t : List (Nat × Option Nat)) (a : Nat × Option Nat), t.foldl (fun r e =>
      match r with
      | none => some e
      | some d => if e.1 < d.1 then some e else some d) (some a) ≠ none := by
      intro t
      induction t with
      | nil => intro a; simp
      | cons b t ih => intro a; simp only [List.foldl_cons]; split <;> exact ih _
    exact key t a h

/-- A packet that goes passes the check at issue (R181). -/
theorem packet_legal {s : State} {k : Nat} {g : Option (Bool × Fin 4)} {ops : List SlotOp} (h : packetGoes s k g ops = true) :
    packetIllegal k (supUser s) ops = false := by
  simp only [packetGoes, Bool.and_eq_true, Option.isNone_iff_eq_none] at h
  have h1 := lowestExc_none h.1.2
  unfold packetExc at h1
  simp only [List.append_eq_nil_iff] at h1
  cases h2 : packetIllegal k (supUser s) ops with
  | false => rfl
  | true => rw [h2] at h1; simp at h1

theorem noRepeat_cons {α : Type} [DecidableEq α] {a : α} {t : List α} (h : noRepeat (a :: t) = true) :
    a ∉ t ∧ noRepeat t = true := by
  simp only [noRepeat, Bool.and_eq_true, Bool.not_eq_true', List.contains_eq_mem] at h
  exact ⟨by simpa using h.1, h.2⟩

theorem noRepeat_append {α : Type} [DecidableEq α] {a b : List α} (h : noRepeat (a ++ b) = true) : ∀ x ∈ a, x ∉ b := by
  induction a with
  | nil => simp
  | cons y t ih =>
    have h1 := noRepeat_cons h
    intro x hx
    rcases List.mem_cons.mp hx with rfl | hx
    · exact fun hb => h1.1 (by simp [hb])
    · exact ih h1.2 x hx

/-- In a packet that goes, the other slots are other slots, and write other registers. -/
theorem packet_others {s : State} {k : Nat} {g : Option (Bool × Fin 4)} {o : SlotOp} {l : List SlotOp}
    (h : packetGoes s k g (o :: l) = true) :
    (∀ p ∈ l, slotOfOp p ≠ slotOfOp o) ∧ (∀ p ∈ l, ∀ d ∈ opVDst o, d ∉ opVDst p) := by
  have h1 := packet_legal h
  simp only [packetIllegal, Bool.or_eq_false_iff] at h1
  obtain ⟨⟨⟨⟨⟨⟨⟨_, h2⟩, h3⟩, _⟩, _⟩, _⟩, _⟩, _⟩ := h1
  have h2' : noRepeat ((o :: l).map slotOfOp) = true := by simpa using h2
  have h3' : noRepeat ((o :: l).flatMap opVDst) = true := by simpa using h3
  constructor
  · intro p hp he
    exact (noRepeat_cons h2').1 (List.mem_map.mpr ⟨p, hp, he⟩)
  · intro p hp d hd hd2
    exact noRepeat_append h3' d hd (List.mem_flatMap.mpr ⟨p, hp, hd2⟩)

/-! ### Results in flight -/

theorem mem_flightAdd (f g : Flight) (l : List Flight) : f ∈ flightAdd g l ↔ f = g ∨ f ∈ l := by
  induction l with
  | nil => simp [flightAdd]
  | cons a t ih =>
    unfold flightAdd
    split
    · simp
    · simp only [List.mem_cons, ih]
      exact ⟨fun h => h.elim (fun h => .inr (.inl h)) (fun h => h.elim .inl (fun h => .inr (.inr h))),
        fun h => h.elim (fun h => .inr (.inl h)) (fun h => h.elim .inl (fun h => .inr (.inr h)))⟩

theorem flightAdd_filter_other (p : Flight → Bool) (g : Flight) (l : List Flight) (h : p g = false) :
    (flightAdd g l).filter p = l.filter p := by
  induction l with
  | nil => simp [flightAdd, h]
  | cons a t ih =>
    unfold flightAdd
    split
    · simp [List.filter_cons, h]
    · simp [List.filter_cons, ih]

theorem flightAdd_filter_new (p : Flight → Bool) (g : Flight) (l : List Flight) (h : p g = true) (hl : l.filter p = []) :
    (flightAdd g l).filter p = [g] := by
  induction l with
  | nil => simp [flightAdd, h]
  | cons a t ih =>
    have ha : p a = false := by
      cases hp : p a with
      | false => rfl
      | true => simp [hp] at hl
    have ht : t.filter p = [] := by simpa [List.filter_cons, ha] using hl
    unfold flightAdd
    split
    · simp [h, ha, ht]
    · simp [ha, ih ht]

theorem fly_flight (t r : Nat) (v : Word) (c : NCore) :
    (fly t r v c).flight = flightAdd { land := t, reg := r, val := v } c.flight := rfl

theorem lands_fly {old c : NCore} {t r : Nat} {v : Word} (h : c.flight.filter (fun f => f.reg == r) = old.flight.filter (fun f => f.reg == r)) :
    lands old (fly t r v c) t r v := by
  refine ⟨(mem_flightAdd _ _ _).mpr (.inl rfl), fun h1 => ?_⟩
  refine flightAdd_filter_new _ _ _ (by simp) ?_
  rw [h]
  simp only [List.filter_eq_nil_iff]
  intro f hf
  have := List.all_eq_true.mp h1 f hf
  simpa using this

/-- Another result in flight changes nothing for this register. -/
theorem lands_keep {old c c' : NCore} {t r : Nat} {v : Word} (h : lands old c t r v)
    (hm : ∀ f ∈ c.flight, f ∈ c'.flight)
    (hf : c'.flight.filter (fun f => f.reg == r) = c.flight.filter (fun f => f.reg == r)) : lands old c' t r v :=
  ⟨hm _ h.1, fun h1 => by rw [hf]; exact h.2 h1⟩

/-- The flights of c' are those of c, but for results of registers that `ds` lists. -/
def flownBut (ds : List Nat) (c c' : NCore) : Prop :=
  (∀ f ∈ c.flight, f ∈ c'.flight) ∧
    ∀ r, r < 32 → r ∉ ds → c'.flight.filter (fun f => f.reg == r) = c.flight.filter (fun f => f.reg == r)

theorem flownBut_refl (ds : List Nat) (c : NCore) : flownBut ds c c := ⟨fun _ h => h, fun _ _ _ => rfl⟩
theorem flownBut_eq {ds : List Nat} {c c' : NCore} (h : c'.flight = c.flight) : flownBut ds c c' := by
  unfold flownBut; rw [h]; exact ⟨fun _ h => h, fun _ _ _ => rfl⟩
theorem flownBut_trans {ds : List Nat} {a b c : NCore} (h1 : flownBut ds a b) (h2 : flownBut ds b c) : flownBut ds a c :=
  ⟨fun f h => h2.1 f (h1.1 f h), fun r h h' => by rw [h2.2 r h h', h1.2 r h h']⟩
theorem flownBut_fly {ds : List Nat} {t r : Nat} {v : Word} (c : NCore) (h : r ∈ ds ∨ 32 ≤ r) : flownBut ds c (fly t r v c) := by
  refine ⟨fun f hf => (mem_flightAdd _ _ _).mpr (.inr hf), fun j h1 h2 => flightAdd_filter_other _ _ _ ?_⟩
  simp only [beq_eq_false_iff_ne]
  rintro rfl
  rcases h with h | h
  · exact h2 h
  · omega
theorem flownBut_extract {ds : List Nat} {t : Nat} {rd : Bool} {sh : Nat} {x : NCore} {n d : Nat} (c : NCore) (h : d ∈ ds) :
    flownBut ds c (extractTo t rd sh x n d c) := by
  unfold extractTo
  dsimp only
  split
  · exact flownBut_trans (flownBut_fly _ (.inl h)) (flownBut_fly _ (.inr (Nat.le_refl _)))
  · exact flownBut_fly _ (.inl h)

theorem fileSet_flight (f : AFile) (n : Nat) (v : Word) (c : NCore) : (fileSet f n v c).flight = c.flight := by
  cases f <;> rfl

/-- The operations of a slot fly only to the registers they write. -/
theorem opFx_flown (s : State) (t : Nat) (x : NCore) (o : SlotOp) (c : NCore) : flownBut (opVDst o) c (opFx s t x o c) := by
  cases o
  case aclr p n =>
    cases p <;> exact flownBut_eq rfl
  case rnd p d n sh =>
    cases p
    · exact flownBut_extract _ (by simp [opVDst])
    · exact flownBut_trans (flownBut_extract _ (by simp [opVDst])) (flownBut_extract _ (by simp [opVDst]))
  case sat p d n sh =>
    cases p
    · exact flownBut_extract _ (by simp [opVDst])
    · exact flownBut_trans (flownBut_extract _ (by simp [opVDst])) (flownBut_extract _ (by simp [opVDst]))
  case alu2 => exact flownBut_trans (flownBut_fly _ (.inl (by simp [opVDst]))) (flownBut_eq rfl)
  case alu1 => exact flownBut_trans (flownBut_fly _ (.inl (by simp [opVDst]))) (flownBut_eq rfl)
  case shift => exact flownBut_trans (flownBut_fly _ (.inl (by simp [opVDst]))) (flownBut_eq rfl)
  case movi => exact flownBut_fly _ (.inl (by simp [opVDst]))
  case movh => exact flownBut_fly _ (.inl (by simp [opVDst]))
  case sel => exact flownBut_fly _ (.inl (by simp [opVDst]))
  case mrd => exact flownBut_fly _ (.inl (by simp [opVDst]))
  case movs mv =>
    cases mv
    · exact flownBut_fly _ (.inl (by simp [opVDst]))
    · exact flownBut_refl _ _
  all_goals first
    | exact flownBut_refl _ _
    | exact flownBut_eq rfl
    | exact flownBut_eq (fileSet_flight _ _ _ _)

theorem loadFx_flown (s : State) (k t : Nat) (x : NCore) (o : SlotOp) (c : NCore) : flownBut (opVDst o) c (loadFx s k t x o c) := by
  unfold loadFx
  split
  · dsimp only
    split
    · exact flownBut_refl _ _
    · rename_i w _ d ea _
      cases w
      · exact flownBut_trans (flownBut_fly _ (.inl (by simp [opVDst]))) (flownBut_fly _ (.inl (by simp [opVDst])))
      · exact flownBut_fly _ (.inl (by simp [opVDst]))
  · exact flownBut_refl _ _

theorem postFx_flight (x : NCore) (o : SlotOp) (c : NCore) : (postFx x o c).flight = c.flight := by
  unfold postFx
  split
  · split
    · exact fileSet_flight _ _ _ _
    · rfl
  · rfl

/-- A list of slots flies only to the registers its operations write. -/
theorem slotsDone_flown (s : State) (k t : Nat) (x : NCore) (ds : List Nat) (l : List SlotOp) (c : NCore)
    (h : ∀ o ∈ l, ∀ d ∈ opVDst o, d ∈ ds) : flownBut ds c (slotsDone s k t x l c) := by
  induction l generalizing c with
  | nil => exact flownBut_refl _ _
  | cons o l ih =>
    have up : ∀ {a b : NCore}, flownBut (opVDst o) a b → flownBut ds a b := fun h1 =>
      ⟨h1.1, fun r hr hd => h1.2 r hr (fun hx => hd (h o (by simp) r hx))⟩
    refine flownBut_trans ?_ (ih _ (fun p hp => h p (by simp [hp])))
    exact flownBut_trans (up (opFx_flown s t x o c)) (flownBut_trans (up (loadFx_flown s k t x o _)) (flownBut_eq (postFx_flight _ _ _)))

/-! ### The other registers -/

/-- The registers that the slots of a packet may change; all else is the sequencer's. -/
def sameRest (c c' : NCore) : Prop :=
  c' = { c with flight := c'.flight, flags := c'.flags, acc := c'.acc, accVis := c'.accVis, a := c'.a, m := c'.m, l := c'.l, b := c'.b }

theorem sameRest_trans {a b c : NCore} (h1 : sameRest a b) (h2 : sameRest b c) : sameRest a c := by
  unfold sameRest at *; rw [h2, h1]

theorem fileSet_rest (f : AFile) (n : Nat) (v : Word) (c : NCore) : sameRest c (fileSet f n v c) := by cases f <;> rfl
theorem extractTo_rest (t : Nat) (rd : Bool) (sh : Nat) (x : NCore) (n d : Nat) (c : NCore) :
    sameRest c (extractTo t rd sh x n d c) := by
  unfold extractTo; dsimp only; split <;> rfl

theorem opFx_rest (s : State) (t : Nat) (x : NCore) (o : SlotOp) (c : NCore) : sameRest c (opFx s t x o c) := by
  cases o
  case aclr p n => cases p <;> rfl
  case rnd p d n sh =>
    cases p
    · exact extractTo_rest _ _ _ _ _ _ _
    · exact sameRest_trans (extractTo_rest _ _ _ _ _ _ _) (extractTo_rest _ _ _ _ _ _ _)
  case sat p d n sh =>
    cases p
    · exact extractTo_rest _ _ _ _ _ _ _
    · exact sameRest_trans (extractTo_rest _ _ _ _ _ _ _) (extractTo_rest _ _ _ _ _ _ _)
  case movs mv => cases mv <;> rfl
  all_goals first
    | rfl
    | exact fileSet_rest _ _ _ _

theorem loadFx_rest (s : State) (k t : Nat) (x : NCore) (o : SlotOp) (c : NCore) : sameRest c (loadFx s k t x o c) := by
  unfold loadFx
  split
  · dsimp only
    (repeat' split) <;> rfl
  · rfl

theorem postFx_rest (x : NCore) (o : SlotOp) (c : NCore) : sameRest c (postFx x o c) := by
  unfold postFx
  split
  · split
    · exact fileSet_rest _ _ _ _
    · rfl
  · rfl

theorem slotsDone_rest (s : State) (k t : Nat) (x : NCore) (l : List SlotOp) (c : NCore) : sameRest c (slotsDone s k t x l c) := by
  induction l generalizing c with
  | nil => rfl
  | cons o l ih =>
    exact sameRest_trans (sameRest_trans (opFx_rest s t x o c) (sameRest_trans (loadFx_rest s k t x o _) (postFx_rest x o _))) (ih _)

theorem loadFx_flags (s : State) (k t : Nat) (x : NCore) (o : SlotOp) (c : NCore) :
    (loadFx s k t x o c).flags = c.flags ∧ (loadFx s k t x o c).acc = c.acc ∧ (loadFx s k t x o c).accVis = c.accVis ∧
      (loadFx s k t x o c).a = c.a ∧ (loadFx s k t x o c).m = c.m ∧ (loadFx s k t x o c).l = c.l ∧ (loadFx s k t x o c).b = c.b := by
  unfold loadFx
  split
  · dsimp only
    (repeat' split) <;> exact ⟨rfl, rfl, rfl, rfl, rfl, rfl, rfl⟩
  · exact ⟨rfl, rfl, rfl, rfl, rfl, rfl, rfl⟩

theorem postFx_flags (x : NCore) (o : SlotOp) (c : NCore) :
    (postFx x o c).flags = c.flags ∧ (postFx x o c).acc = c.acc ∧ (postFx x o c).accVis = c.accVis := by
  unfold postFx
  split
  · split <;> exact ⟨rfl, rfl, rfl⟩
  · exact ⟨rfl, rfl, rfl⟩

theorem fileSet_flags (f : AFile) (n : Nat) (v : Word) (c : NCore) :
    (fileSet f n v c).flags = c.flags ∧ (fileSet f n v c).acc = c.acc ∧ (fileSet f n v c).accVis = c.accVis := by
  cases f <;> exact ⟨rfl, rfl, rfl⟩

theorem extractTo_flags (t : Nat) (rd : Bool) (sh : Nat) (x : NCore) (n d : Nat) (c : NCore) :
    (extractTo t rd sh x n d c).flags = c.flags ∧ (extractTo t rd sh x n d c).acc = c.acc
      ∧ (extractTo t rd sh x n d c).accVis = c.accVis ∧ (extractTo t rd sh x n d c).a = c.a
      ∧ (extractTo t rd sh x n d c).m = c.m ∧ (extractTo t rd sh x n d c).l = c.l ∧ (extractTo t rd sh x n d c).b = c.b := by
  unfold extractTo; dsimp only; split <;> exact ⟨rfl, rfl, rfl, rfl, rfl, rfl, rfl⟩

/-- Only the A slot writes FLAGS at issue. -/
theorem opFx_flags (s : State) (t : Nat) (x : NCore) (o : SlotOp) (c : NCore) (h : slotOfOp o ≠ .a) :
    (opFx s t x o c).flags = c.flags := by
  cases o
  case aclr p n => cases p <;> rfl
  case rnd p d n sh =>
    cases p
    · exact (extractTo_flags _ _ _ _ _ _ _).1
    · exact (extractTo_flags _ _ _ _ _ _ _).1.trans (extractTo_flags _ _ _ _ _ _ _).1
  case sat p d n sh =>
    cases p
    · exact (extractTo_flags _ _ _ _ _ _ _).1
    · exact (extractTo_flags _ _ _ _ _ _ _).1.trans (extractTo_flags _ _ _ _ _ _ _).1
  all_goals first
    | rfl
    | exact (fileSet_flags _ _ _ _).1
    | exact absurd rfl h

/-- Only the M slot writes accumulators. -/
theorem opFx_acc (s : State) (t : Nat) (x : NCore) (o : SlotOp) (c : NCore) (h : slotOfOp o ≠ .m) :
    (opFx s t x o c).acc = c.acc ∧ (opFx s t x o c).accVis = c.accVis := by
  cases o
  case movs mv => cases mv <;> exact ⟨rfl, rfl⟩
  all_goals first
    | exact ⟨rfl, rfl⟩
    | exact (fileSet_flags _ _ _ _).2
    | exact absurd rfl h

/-- Only the G slot and the post-modifications write the address side. -/
theorem opFx_files (s : State) (t : Nat) (x : NCore) (o : SlotOp) (c : NCore) (h : slotOfOp o ≠ .g) :
    (opFx s t x o c).a = c.a ∧ (opFx s t x o c).m = c.m ∧ (opFx s t x o c).l = c.l ∧ (opFx s t x o c).b = c.b := by
  cases o
  case aclr p n => cases p <;> exact ⟨rfl, rfl, rfl, rfl⟩
  case rnd p d n sh =>
    have e := extractTo_flags t true sh x
    cases p
    · exact (e _ _ _).2.2.2
    · have e1 := (e n d c).2.2.2
      have e2 := (e (n + 1) (d + 1) (extractTo t true sh x n d c)).2.2.2
      exact ⟨e2.1.trans e1.1, e2.2.1.trans e1.2.1, e2.2.2.1.trans e1.2.2.1, e2.2.2.2.trans e1.2.2.2⟩
  case sat p d n sh =>
    have e := extractTo_flags t false sh x
    cases p
    · exact (e _ _ _).2.2.2
    · have e1 := (e n d c).2.2.2
      have e2 := (e (n + 1) (d + 1) (extractTo t false sh x n d c)).2.2.2
      exact ⟨e2.1.trans e1.1, e2.2.1.trans e1.2.1, e2.2.2.1.trans e1.2.2.1, e2.2.2.2.trans e1.2.2.2⟩
  case movs mv => cases mv <;> exact ⟨rfl, rfl, rfl, rfl⟩
  all_goals first
    | exact ⟨rfl, rfl, rfl, rfl⟩
    | exact absurd rfl h

theorem slotsDone_flags (s : State) (k t : Nat) (x : NCore) (l : List SlotOp) (c : NCore) (h : ∀ o ∈ l, slotOfOp o ≠ .a) :
    (slotsDone s k t x l c).flags = c.flags := by
  induction l generalizing c with
  | nil => rfl
  | cons o l ih =>
    refine (ih _ (fun p hp => h p (by simp [hp]))).trans ?_
    rw [(postFx_flags _ _ _).1, (loadFx_flags _ _ _ _ _ _).1, opFx_flags _ _ _ _ _ (h o (by simp))]

theorem slotsDone_acc (s : State) (k t : Nat) (x : NCore) (l : List SlotOp) (c : NCore) (h : ∀ o ∈ l, slotOfOp o ≠ .m) :
    (slotsDone s k t x l c).acc = c.acc ∧ (slotsDone s k t x l c).accVis = c.accVis := by
  induction l generalizing c with
  | nil => exact ⟨rfl, rfl⟩
  | cons o l ih =>
    have h1 := ih (postFx x o (loadFx s k t x o (opFx s t x o c))) (fun p hp => h p (by simp [hp]))
    have h2 := opFx_acc s t x o c (h o (by simp))
    exact ⟨h1.1.trans (((postFx_flags _ _ _).2.1.trans (loadFx_flags _ _ _ _ _ _).2.1).trans h2.1),
      h1.2.trans (((postFx_flags _ _ _).2.2.trans (loadFx_flags _ _ _ _ _ _).2.2.1).trans h2.2)⟩

theorem slotsDone_files (s : State) (k t : Nat) (x : NCore) (l : List SlotOp) (c : NCore)
    (h : ∀ o ∈ l, slotOfOp o ≠ .g ∧ opEa o = none) :
    (slotsDone s k t x l c).a = c.a ∧ (slotsDone s k t x l c).m = c.m ∧ (slotsDone s k t x l c).l = c.l
      ∧ (slotsDone s k t x l c).b = c.b := by
  induction l generalizing c with
  | nil => exact ⟨rfl, rfl, rfl, rfl⟩
  | cons o l ih =>
    have h1 := ih (postFx x o (loadFx s k t x o (opFx s t x o c))) (fun p hp => h p (by simp [hp]))
    have h2 := opFx_files s t x o c (h o (by simp)).1
    have h3 : postFx x o (loadFx s k t x o (opFx s t x o c)) = loadFx s k t x o (opFx s t x o c) := by
      unfold postFx; rw [(h o (by simp)).2]
    have h4 := (loadFx_flags s k t x o (opFx s t x o c)).2.2.2
    rw [h3] at h1
    have e : slotsDone s k t x (o :: l) c = slotsDone s k t x l (loadFx s k t x o (opFx s t x o c)) :=
      congrArg (slotsDone s k t x l) h3
    rw [e]
    exact ⟨h1.1.trans (h4.1.trans h2.1), h1.2.1.trans (h4.2.1.trans h2.2.1),
      h1.2.2.1.trans (h4.2.2.1.trans h2.2.2.1), h1.2.2.2.trans (h4.2.2.2.trans h2.2.2.2)⟩

/-- The registers of the slots: not the sequencer's. -/
def sameSlots (c c' : NCore) : Prop :=
  c'.v = c.v ∧ c'.flight = c.flight ∧ c'.acc = c.acc ∧ c'.accVis = c.accVis ∧ c'.a = c.a ∧ c'.m = c.m ∧ c'.l = c.l ∧ c'.b = c.b

theorem seqNext_slots (k : Nat) (c : NCore) : sameSlots c (seqNext k c).core ∧ (seqNext k c).core.flags = c.flags := by
  unfold seqNext
  split
  · (repeat' split) <;> exact ⟨⟨rfl, rfl, rfl, rfl, rfl, rfl, rfl, rfl⟩, rfl⟩
  · exact ⟨⟨rfl, rfl, rfl, rfl, rfl, rfl, rfl, rfl⟩, rfl⟩

theorem ctlNext_slots (k : Nat) (x : NCore) (ops : List SlotOp) (c : NCore) :
    sameSlots c (ctlNext k x ops c).core ∧ (ctlNext k x ops c).core.flags = c.flags := by
  have e := seqNext_slots k c
  unfold ctlNext
  dsimp only
  cases ops.find? (fun o => slotOfOp o == .c) with
  | none => exact e
  | some o =>
    cases o
    case rep n stop =>
      dsimp only
      unfold repNext
      dsimp only
      split <;> exact ⟨⟨rfl, rfl, rfl, rfl, rfl, rfl, rfl, rfl⟩, rfl⟩
    case brk =>
      dsimp only
      unfold breakNext
      split
      · exact ⟨⟨rfl, rfl, rfl, rfl, rfl, rfl, rfl, rfl⟩, rfl⟩
      · exact e
    case jmp => exact ⟨⟨rfl, rfl, rfl, rfl, rfl, rfl, rfl, rfl⟩, rfl⟩
    case call => exact ⟨⟨rfl, rfl, rfl, rfl, rfl, rfl, rfl, rfl⟩, rfl⟩
    case ret => exact ⟨⟨rfl, rfl, rfl, rfl, rfl, rfl, rfl, rfl⟩, rfl⟩
    all_goals exact e

theorem packetNext_slots (k : Nat) (x : NCore) (ops : List SlotOp) (c : NCore) :
    sameSlots c (packetNext k x ops c).core ∧ (packetNext k x ops c).core.flags = c.flags := by
  have e := ctlNext_slots k x ops (busOut c (busOp k x ops))
  have e2 : sameSlots c (busOut c (busOp k x ops)) ∧ (busOut c (busOp k x ops)).flags = c.flags := by
    unfold busOut
    split <;> exact ⟨⟨rfl, rfl, rfl, rfl, rfl, rfl, rfl, rfl⟩, rfl⟩
  unfold packetNext
  obtain ⟨⟨h1, h2, h3, h4, h5, h6, h7, h8⟩, h9⟩ := e
  obtain ⟨⟨g1, g2, g3, g4, g5, g6, g7, g8⟩, g9⟩ := e2
  exact ⟨⟨h1.trans g1, h2.trans g2, h3.trans g3, h4.trans g4, h5.trans g5, h6.trans g6, h7.trans g7, h8.trans g8⟩, h9.trans g9⟩

/-! ### The state -/

theorem storeFx_core (k : Nat) (x : NCore) (o : SlotOp) (s : State) : (storeFx k x o s).core = s.core := by
  unfold storeFx
  split
  · dsimp only
    split
    · simp [eccWritten]
    · rfl
  · rfl

theorem stores_core (k : Nat) (x : NCore) (l : List SlotOp) (s : State) : (foldS l (storeFx k x) s).core = s.core := by
  unfold foldS
  induction l generalizing s with
  | nil => rfl
  | cons o l ih => rw [List.foldl_cons, ih, storeFx_core]

/-- The waits of a packet leave the slots' registers of its core; without IRET also FLAGS. -/
theorem waitFx_slots (k : Nat) (x : NCore) (l : List SlotOp) (s : State) (hw : coresWf s = true) :
    sameSlots (coreGet s k) (coreGet (waitFx k x l s) k) ∧
      ((∀ o ∈ l, o ≠ .iret) → (coreGet (waitFx k x l s) k).flags = (coreGet s k).flags) := by
  have ht : ∀ {a b c : NCore}, sameSlots a b → sameSlots b c → sameSlots a c := by
    rintro a b c ⟨h1, h2, h3, h4, h5, h6, h7, h8⟩ ⟨g1, g2, g3, g4, g5, g6, g7, g8⟩
    exact ⟨g1.trans h1, g2.trans h2, g3.trans h3, g4.trans h4, g5.trans h5, g6.trans h6, g7.trans h7, g8.trans h8⟩
  have hr : ∀ c : NCore, sameSlots c c := fun c => ⟨rfl, rfl, rfl, rfl, rfl, rfl, rfl, rfl⟩
  induction l generalizing s with
  | nil => exact ⟨hr _, fun _ => rfl⟩
  | cons o l ih =>
    have step : ∃ s1, waitFx k x (o :: l) s = waitFx k x l s1 ∧ coresWf s1 = true ∧ sameSlots (coreGet s k) (coreGet s1 k) ∧
        (o ≠ .iret → (coreGet s1 k).flags = (coreGet s k).flags) := by
      refine ⟨_, rfl, ?_⟩
      have put : ∀ c : NCore, sameSlots (coreGet s k) c → c.flags = (coreGet s k).flags →
          coresWf (corePut k c s) = true ∧ sameSlots (coreGet s k) (coreGet (corePut k c s) k) ∧
            (o ≠ .iret → (coreGet (corePut k c s) k).flags = (coreGet s k).flags) := by
        intro c h1 h2
        rw [corePut_get hw, if_pos rfl]
        exact ⟨corePut_wf hw _ _, h1, fun _ => h2⟩
      have same : coresWf s = true ∧ sameSlots (coreGet s k) (coreGet s k) ∧
          (o ≠ .iret → (coreGet s k).flags = (coreGet s k).flags) := ⟨hw, hr _, fun _ => rfl⟩
      cases o
      case waitCycle =>
        dsimp only
        split <;> exact put _ ⟨rfl, rfl, rfl, rfl, rfl, rfl, rfl, rfl⟩ rfl
      case sync =>
        dsimp only
        split
        · exact put _ ⟨rfl, rfl, rfl, rfl, rfl, rfl, rfl, rfl⟩ rfl
        · exact same
      case wfi => exact put _ ⟨rfl, rfl, rfl, rfl, rfl, rfl, rfl, rfl⟩ rfl
      case user => exact same
      case movs mv =>
        cases mv
        · exact same
        · rename_i n a
          have hc : (sysWrite n (vGet x a) s).core = s.core := by
            unfold sysWrite; dsimp only; (repeat' split) <;> rfl
          dsimp only
          rw [core_of hc, coresWf_of hc]
          exact same
      case iret =>
        refine ⟨corePut_wf hw _ _, ?_, fun h => absurd rfl h⟩
        have hp : coreGet (framePop s) k = _ := corePut_get (t := { s with sup := (framePop s).sup }) hw 32 _ k
        show sameSlots (coreGet s k) (coreGet (framePop s) k)
        rw [hp]
        split
        · rename_i hk
          subst hk
          exact ⟨rfl, rfl, rfl, rfl, rfl, rfl, rfl, rfl⟩
        · exact hr _
      all_goals exact same
    obtain ⟨s1, h1, h2, h3, h4⟩ := step
    rw [h1]
    obtain ⟨h5, h6⟩ := ih s1 h2
    exact ⟨ht h3 h5, fun h => (h6 (fun p hp => h p (by simp [hp]))).trans (h4 (h o (by simp)))⟩

/-- The registers of a core after its packet are those that its slots leave. -/
theorem packet_after {s : State} {k : Nat} {g : Option (Bool × Fin 4)} {ops : List SlotOp} (h : packetGoes s k g ops = true)
    (hw : coresWf s = true) :
    sameSlots (slotsDone s k (issueClock s k ops) (issueView s k ops) ops (issueView s k ops)) (coreGet (issuePacket k g ops s) k) ∧
      ((∀ o ∈ ops, o ≠ .iret) → (coreGet (issuePacket k g ops s) k).flags =
        (slotsDone s k (issueClock s k ops) (issueView s k ops) ops (issueView s k ops)).flags) := by
  obtain ⟨back, gap, e⟩ := packet_goes h
  rw [e]
  dsimp only
  generalize hn : packetNext k (issueView s k ops) ops
    (slotsDone s k (issueClock s k ops) (issueView s k ops) ops (issueView s k ops)) = n
  have hx := packetNext_slots k (issueView s k ops) ops
    (slotsDone s k (issueClock s k ops) (issueView s k ops) ops (issueView s k ops))
  rw [hn] at hx
  rw [packetSrv_eq]
  generalize hc : ({ n.core with cyc := issueClock s k ops + 1 + n.add, gap := if n.add = 0 then [] else [(n.why, n.add)] } : NCore) = c
  have hc1 : sameSlots n.core c ∧ c.flags = n.core.flags := by subst hc; exact ⟨⟨rfl, rfl, rfl, rfl, rfl, rfl, rfl, rfl⟩, rfl⟩
  have hw1 : coresWf (foldS ops (storeFx k (issueView s k ops)) s) = true := by rw [coresWf_of (stores_core _ _ _ _)]; exact hw
  generalize packetSrv k _ back gap _ ops _ n _ (corePut k c _) = z
  have hg : coreGet { corePut k c (foldS ops (storeFx k (issueView s k ops)) s) with srv := z.srv } k = c :=
    (corePut_get hw1 k c k).trans (if_pos rfl)
  have hw2 : coresWf { corePut k c (foldS ops (storeFx k (issueView s k ops)) s) with srv := z.srv } = true := corePut_wf hw1 k c
  have hy := waitFx_slots k (issueView s k ops) ops _ hw2
  rw [hg] at hy
  obtain ⟨⟨⟨a1, a2, a3, a4, a5, a6, a7, a8⟩, a9⟩, ⟨⟨b1, b2, b3, b4, b5, b6, b7, b8⟩, b9⟩⟩ := And.intro hx hc1
  obtain ⟨⟨c1, c2, c3, c4, c5, c6, c7, c8⟩, c9⟩ := hy
  exact ⟨⟨c1.trans (b1.trans a1), c2.trans (b2.trans a2), c3.trans (b3.trans a3), c4.trans (b4.trans a4),
    c5.trans (b5.trans a5), c6.trans (b6.trans a6), c7.trans (b7.trans a7), c8.trans (b8.trans a8)⟩,
    fun hi => (c9 hi).trans (b9.trans a9)⟩

/-- A packet of one operation that neither stores, loads, diverts nor waits changes its core and the Survey only. -/
theorem packet_single {s : State} {k : Nat} {g : Option (Bool × Fin 4)} {o : SlotOp} (h : packetGoes s k g [o] = true)
    (he : opEa o = none) (hc : slotOfOp o = .a ∨ slotOfOp o = .m ∨ slotOfOp o = .g)
    (hm : ∀ n a, o ≠ .movs (.write n a)) :
    ∃ srv, issuePacket k g [o] s =
      { s with
        core := tset {} s.core k (packetEnd k (issueClock s k [o]) (opFx s (issueClock s k [o]) (issueView s k [o]) o (issueView s k [o]))),
        srv := srv } := by
  obtain ⟨back, gap, e⟩ := packet_goes h
  rw [e]
  dsimp only
  generalize hx : issueView s k [o] = x
  generalize ht : issueClock s k [o] = t
  have e1 : loadFx s k t x o (opFx s t x o x) = opFx s t x o x := by
    unfold loadFx; split
    · simp [opEa] at he
    · rfl
  have e2 : slotsDone s k t x [o] x = opFx s t x o x := by
    simp only [slotsDone, List.foldl_cons, List.foldl_nil, e1]
    unfold postFx; rw [he]
  have e3 : busOp k x [o] = none := by
    unfold busOp
    cases o <;> first
      | rfl
      | simp [opEa] at he
  have e4 : foldS [o] (storeFx k x) s = s := by
    unfold foldS storeFx
    cases o <;> first
      | rfl
      | simp [opEa] at he
  have e5 : ∀ c, packetNext k x [o] c = seqNext k c := by
    intro c
    unfold packetNext
    rw [e3]
    unfold ctlNext
    have : List.find? (fun o => slotOfOp o == .c) [o] = none := by
      rcases hc with hc | hc | hc <;> (simp only [List.find?, hc]; rfl)
    simp only [this]
    rfl
  have e6 : ∀ u, waitFx k x [o] u = u := by
    intro u
    unfold waitFx foldS
    cases o
    case movs mv =>
      cases mv
      · rfl
      · exact absurd rfl (hm _ _)
    all_goals first
      | rfl
      | (simp [slotOfOp] at hc)
  rw [e6, e2, e5, e4, packetSrv_eq]
  exact ⟨_, rfl⟩

/-! ### Post-modification, waits and control -/

theorem postFx_a (x : NCore) (o : SlotOp) (c : NCore) :
    (postFx x o c).a = (if (opEa o).any eaModifies then
      tset 0 c.a ((opEa o).elim 0 eaReg) ((opEa o).elim 0 (eaNext x)) else c.a) ∧
    (postFx x o c).m = c.m ∧ (postFx x o c).l = c.l ∧ (postFx x o c).b = c.b := by
  unfold postFx
  cases opEa o with
  | none => exact ⟨rfl, rfl, rfl, rfl⟩
  | some ea =>
    dsimp only [Option.any, Option.elim]
    split <;> exact ⟨rfl, rfl, rfl, rfl⟩

/-- Slots other than G change the address side by their post-modifications only. -/
theorem slotsDone_post (s : State) (k t : Nat) (x : NCore) (l : List SlotOp) (c : NCore) (h : ∀ o ∈ l, slotOfOp o ≠ .g) :
    (slotsDone s k t x l c).a = postMods x l c.a ∧ (slotsDone s k t x l c).m = c.m ∧ (slotsDone s k t x l c).l = c.l
      ∧ (slotsDone s k t x l c).b = c.b := by
  induction l generalizing c with
  | nil => exact ⟨rfl, rfl, rfl, rfl⟩
  | cons o l ih =>
    have h1 := ih (postFx x o (loadFx s k t x o (opFx s t x o c))) (fun p hp => h p (by simp [hp]))
    have h2 := opFx_files s t x o c (h o (by simp))
    have h3 := postFx_a x o (loadFx s k t x o (opFx s t x o c))
    have h4 := (loadFx_flags s k t x o (opFx s t x o c)).2.2.2
    refine ⟨h1.1.trans ?_, h1.2.1.trans (h3.2.1.trans (h4.2.1.trans h2.2.1)),
      h1.2.2.1.trans (h3.2.2.1.trans (h4.2.2.1.trans h2.2.2.1)), h1.2.2.2.trans (h3.2.2.2.trans (h4.2.2.2.trans h2.2.2.2))⟩
    rw [h3.1, h4.1, h2.1]
    rfl

/-- Operations that do not wait, return or enter a mode leave the cores to the rest of the packet. -/
theorem waitFx_core (k : Nat) (x : NCore) (l : List SlotOp) (s : State)
    (h : ∀ o ∈ l, o ≠ .waitCycle ∧ o ≠ .sync ∧ o ≠ .wfi ∧ o ≠ .iret) : (waitFx k x l s).core = s.core := by
  induction l generalizing s with
  | nil => rfl
  | cons o l ih =>
    have h1 := h o (by simp)
    have step : ∃ s1, waitFx k x (o :: l) s = waitFx k x l s1 ∧ s1.core = s.core := by
      refine ⟨_, rfl, ?_⟩
      cases o
      case movs mv =>
        cases mv
        · rfl
        · rename_i n a
          show (sysWrite n (vGet x a) s).core = s.core
          unfold sysWrite; dsimp only; (repeat' split) <;> rfl
      case waitCycle => exact absurd rfl h1.1
      case sync => exact absurd rfl h1.2.1
      case wfi => exact absurd rfl h1.2.2.1
      case iret => exact absurd rfl h1.2.2.2
      all_goals rfl
    obtain ⟨s1, e, h2⟩ := step
    rw [e, ih s1 (fun p hp => h p (by simp [hp])), h2]

/-- The core after a packet whose C slot does not wait: where the packet leads. -/
theorem packet_ctl {s : State} {k : Nat} {g : Option (Bool × Fin 4)} {ops : List SlotOp} (h : packetGoes s k g ops = true)
    (hw : coresWf s = true) (ho : ∀ o ∈ ops, o ≠ .waitCycle ∧ o ≠ .sync ∧ o ≠ .wfi ∧ o ≠ .iret) :
    coreGet (issuePacket k g ops s) k =
      (let n := packetNext k (issueView s k ops) ops
        (slotsDone s k (issueClock s k ops) (issueView s k ops) ops (issueView s k ops))
       { n.core with cyc := issueClock s k ops + 1 + n.add, gap := if n.add = 0 then [] else [(n.why, n.add)] }) := by
  obtain ⟨back, gap, e⟩ := packet_goes h
  rw [e]
  dsimp only
  rw [core_of (waitFx_core _ _ _ _ ho), packetSrv_eq]
  exact (corePut_get (by rw [coresWf_of (stores_core _ _ _ _)]; exact hw) k _ k).trans (if_pos rfl)

/-- A packet of one operation of the C slot. -/
theorem packet_single_ctl {s : State} {k : Nat} {g : Option (Bool × Fin 4)} {o : SlotOp} (h : packetGoes s k g [o] = true)
    (hc : slotOfOp o = .c) :
    ∃ srv, issuePacket k g [o] s =
      (let n := ctlNext k (issueView s k [o]) [o] (issueView s k [o])
       waitFx k (issueView s k [o]) [o] { s with
        core := tset {} s.core k { n.core with
          cyc := issueClock s k [o] + 1 + n.add, gap := if n.add = 0 then [] else [(n.why, n.add)] },
        srv := srv }) := by
  obtain ⟨back, gap, e⟩ := packet_goes h
  rw [e]
  dsimp only
  generalize hx : issueView s k [o] = x
  generalize ht : issueClock s k [o] = t
  have e2 : slotsDone s k t x [o] x = x := by
    cases o <;> first
      | rfl
      | (simp [slotOfOp] at hc; done)
      | (rename_i sl _ _; cases sl <;> simp [slotOfOp] at hc)
  have e3 : busOp k x [o] = none := by
    cases o <;> first
      | rfl
      | (simp [slotOfOp] at hc; done)
      | (rename_i sl _ _; cases sl <;> simp [slotOfOp] at hc)
  have e4 : foldS [o] (storeFx k x) s = s := by
    cases o <;> first
      | rfl
      | (simp [slotOfOp] at hc; done)
      | (rename_i sl _ _; cases sl <;> simp [slotOfOp] at hc)
  have e5 : ∀ c, packetNext k x [o] c = ctlNext k x [o] c := by
    intro c; unfold packetNext; rw [e3]; rfl
  rw [e2, e5, e4, packetSrv_eq]
  exact ⟨_, rfl⟩

/-- A packet of one local load. -/
theorem packet_single_load {s : State} {k : Nat} {g : Option (Bool × Fin 4)} {w : Bool} {slot : MemSlot} {d : VReg} {ea : Ea}
    (h : packetGoes s k g [.ld w slot d ea] = true) (hl : isLocal k (eaAddr (issueView s k [.ld w slot d ea]) ea).toNat = true) :
    ∃ srv, issuePacket k g [.ld w slot d ea] s =
      (let o := SlotOp.ld w slot d ea
       let t := issueClock s k [o]
       let x := issueView s k [o]
       { s with core := tset {} s.core k (packetEnd k t (postFx x o (loadFx s k t x o x))), srv := srv }) := by
  obtain ⟨back, gap, e⟩ := packet_goes h
  rw [e]
  dsimp only
  generalize hx : issueView s k [.ld w slot d ea] = x at *
  generalize ht : issueClock s k [.ld w slot d ea] = t
  have e3 : busOp k x [.ld w slot d ea] = none := by simp [busOp, hl]
  have e5 : ∀ c, packetNext k x [.ld w slot d ea] c = seqNext k c := by
    intro c
    unfold packetNext
    rw [e3]
    unfold ctlNext
    have : List.find? (fun o => slotOfOp o == .c) [SlotOp.ld w slot d ea] = none := by cases slot <;> rfl
    simp only [this]
    rfl
  rw [e5, packetSrv_eq]
  exact ⟨_, rfl⟩

/-- A packet of one local store. -/
theorem packet_single_store {s : State} {k : Nat} {g : Option (Bool × Fin 4)} {w : Bool} {slot : MemSlot} {v : VReg} {ea : Ea}
    (h : packetGoes s k g [.st w slot v ea] = true) (hl : isLocal k (eaAddr (issueView s k [.st w slot v ea]) ea).toNat = true) :
    ∃ srv, issuePacket k g [.st w slot v ea] s =
      (let o := SlotOp.st w slot v ea
       let t := issueClock s k [o]
       let x := issueView s k [o]
       { storeFx k x o s with core := tset {} s.core k (packetEnd k t (postFx x o x)), srv := srv }) := by
  obtain ⟨back, gap, e⟩ := packet_goes h
  rw [e]
  dsimp only
  generalize hx : issueView s k [.st w slot v ea] = x at *
  generalize ht : issueClock s k [.st w slot v ea] = t
  have e3 : busOp k x [.st w slot v ea] = none := by simp [busOp, hl]
  have e5 : ∀ c, packetNext k x [.st w slot v ea] c = seqNext k c := by
    intro c
    unfold packetNext
    rw [e3]
    unfold ctlNext
    have : List.find? (fun o => slotOfOp o == .c) [SlotOp.st w slot v ea] = none := by cases slot <;> rfl
    simp only [this]
    rfl
  rw [e5, packetSrv_eq]
  have hc : (foldS [SlotOp.st w slot v ea] (storeFx k x) s).core = s.core := stores_core _ _ _ _
  have hp : ∀ c, corePut k c (foldS [SlotOp.st w slot v ea] (storeFx k x) s) =
      { storeFx k x (.st w slot v ea) s with core := tset {} s.core k c } := fun c => by unfold corePut; rw [hc]; rfl
  have hq : ∀ u, waitFx k x [SlotOp.st w slot v ea] u = u := fun _ => rfl
  rw [hp, hq]
  exact ⟨_, rfl⟩

/-- A packet of one access over the bus. -/
theorem packet_single_bus {s : State} {k : Nat} {g : Option (Bool × Fin 4)} {o : SlotOp} {b : Posted ⊕ BusLoad}
    (h : packetGoes s k g [o] = true) (hb : busOp k (issueView s k [o]) [o] = some b) :
    ∃ srv, issuePacket k g [o] s =
      (let t := issueClock s k [o]
       let x := issueView s k [o]
       { s with core := tset {} s.core k (packetEnd k t (busOut (postFx x o x) (some b))), srv := srv }) := by
  obtain ⟨back, gap, e⟩ := packet_goes h
  rw [e]
  dsimp only
  generalize hx : issueView s k [o] = x at *
  generalize ht : issueClock s k [o] = t
  have hm : (∃ w sl d ea, o = .ld w sl d ea ∧ isLocal k (eaAddr x ea).toNat = false) ∨
      (∃ w sl d ea, o = .st w sl d ea ∧ isLocal k (eaAddr x ea).toNat = false) := by
    cases o
    case ld w sl d ea =>
      refine .inl ⟨w, sl, d, ea, rfl, ?_⟩
      cases hl : isLocal k (eaAddr x ea).toNat with
      | false => rfl
      | true => simp [busOp, hl] at hb
    case st w sl d ea =>
      refine .inr ⟨w, sl, d, ea, rfl, ?_⟩
      cases hl : isLocal k (eaAddr x ea).toNat with
      | false => rfl
      | true => simp [busOp, hl] at hb
    all_goals simp [busOp] at hb
  have e2 : slotsDone s k t x [o] x = postFx x o x := by
    rcases hm with ⟨w, sl, d, ea, rfl, hl⟩ | ⟨w, sl, d, ea, rfl, hl⟩
    · simp [slotsDone, opFx, loadFx, hl]
    · rfl
  have e4 : foldS [o] (storeFx k x) s = s := by
    rcases hm with ⟨w, sl, d, ea, rfl, hl⟩ | ⟨w, sl, d, ea, rfl, hl⟩
    · rfl
    · simp [foldS, storeFx, hl]
  have e5 : ∀ c, packetNext k x [o] c = seqNext k (busOut c (some b)) := by
    intro c
    unfold packetNext
    rw [hb]
    unfold ctlNext
    have : List.find? (fun o => slotOfOp o == .c) [o] = none := by
      rcases hm with ⟨w, sl, d, ea, rfl, hl⟩ | ⟨w, sl, d, ea, rfl, hl⟩ <;> cases sl <;> rfl
    simp only [this]
  have e6 : ∀ u, waitFx k x [o] u = u := by
    intro u
    rcases hm with ⟨w, sl, d, ea, rfl, hl⟩ | ⟨w, sl, d, ea, rfl, hl⟩ <;> rfl
  rw [e6, e2, e5, e4, packetSrv_eq]
  exact ⟨_, rfl⟩

/-! ### The bus side and memory -/

theorem ctlNext_bus (k : Nat) (x : NCore) (ops : List SlotOp) (c : NCore) :
    (ctlNext k x ops c).core.load = c.load ∧ (ctlNext k x ops c).core.posted = c.posted := by
  have e : (seqNext k c).core.load = c.load ∧ (seqNext k c).core.posted = c.posted := by
    unfold seqNext
    split
    · (repeat' split) <;> exact ⟨rfl, rfl⟩
    · exact ⟨rfl, rfl⟩
  unfold ctlNext
  dsimp only
  cases ops.find? (fun o => slotOfOp o == .c) with
  | none => exact e
  | some o =>
    cases o
    case rep n stop =>
      dsimp only
      unfold repNext
      dsimp only
      split <;> exact ⟨rfl, rfl⟩
    case brk =>
      dsimp only
      unfold breakNext
      split
      · exact ⟨rfl, rfl⟩
      · exact e
    case jmp => exact ⟨rfl, rfl⟩
    case call => exact ⟨rfl, rfl⟩
    case ret => exact ⟨rfl, rfl⟩
    all_goals exact e

/-- The waits of a packet change neither memory nor the bus side of its core. -/
theorem waitFx_bus (k : Nat) (x : NCore) (l : List SlotOp) (s : State) (hw : coresWf s = true) :
    (waitFx k x l s).mem = s.mem ∧ (coreGet (waitFx k x l s) k).load = (coreGet s k).load ∧
      (coreGet (waitFx k x l s) k).posted = (coreGet s k).posted := by
  induction l generalizing s with
  | nil => exact ⟨rfl, rfl, rfl⟩
  | cons o l ih =>
    have step : ∃ s1, waitFx k x (o :: l) s = waitFx k x l s1 ∧ coresWf s1 = true ∧ s1.mem = s.mem ∧
        (coreGet s1 k).load = (coreGet s k).load ∧ (coreGet s1 k).posted = (coreGet s k).posted := by
      refine ⟨_, rfl, ?_⟩
      have put : ∀ c : NCore, c.load = (coreGet s k).load → c.posted = (coreGet s k).posted →
          coresWf (corePut k c s) = true ∧ (corePut k c s).mem = s.mem ∧
            (coreGet (corePut k c s) k).load = (coreGet s k).load ∧ (coreGet (corePut k c s) k).posted = (coreGet s k).posted := by
        intro c h1 h2
        rw [corePut_get hw, if_pos rfl]
        exact ⟨corePut_wf hw _ _, rfl, h1, h2⟩
      have same : coresWf s = true ∧ s.mem = s.mem ∧ (coreGet s k).load = (coreGet s k).load ∧
          (coreGet s k).posted = (coreGet s k).posted := ⟨hw, rfl, rfl, rfl⟩
      cases o
      case waitCycle =>
        dsimp only
        split <;> exact put _ rfl rfl
      case sync =>
        dsimp only
        split
        · exact put _ rfl rfl
        · exact same
      case wfi => exact put _ rfl rfl
      case user => exact same
      case movs mv =>
        cases mv
        · exact same
        · rename_i n a
          have hc : (sysWrite n (vGet x a) s).core = s.core ∧ (sysWrite n (vGet x a) s).mem = s.mem := by
            unfold sysWrite; dsimp only; (repeat' split) <;> exact ⟨rfl, rfl⟩
          show coresWf (sysWrite n (vGet x a) s) = true ∧ (sysWrite n (vGet x a) s).mem = s.mem ∧
            (coreGet (sysWrite n (vGet x a) s) k).load = _ ∧ (coreGet (sysWrite n (vGet x a) s) k).posted = _
          rw [core_of hc.1, coresWf_of hc.1]
          exact ⟨hw, hc.2, rfl, rfl⟩
      case iret =>
        refine ⟨corePut_wf hw _ _, rfl, ?_⟩
        have hp : coreGet (framePop s) k = _ := corePut_get (t := { s with sup := (framePop s).sup }) hw 32 _ k
        show (coreGet (framePop s) k).load = (coreGet s k).load ∧ (coreGet (framePop s) k).posted = (coreGet s k).posted
        rw [hp]
        split
        · rename_i hk
          subst hk
          exact ⟨rfl, rfl⟩
        · exact ⟨rfl, rfl⟩
      all_goals exact same
    obtain ⟨s1, h1, h2, h3, h4, h5⟩ := step
    rw [h1]
    obtain ⟨h6, h7, h8⟩ := ih s1 h2
    exact ⟨h6.trans h3, h7.trans h4, h8.trans h5⟩

/-- Memory and the bus side after a packet. -/
theorem packet_bus {s : State} {k : Nat} {g : Option (Bool × Fin 4)} {ops : List SlotOp} (h : packetGoes s k g ops = true)
    (hw : coresWf s = true) :
    (issuePacket k g ops s).mem = (foldS ops (storeFx k (issueView s k ops)) s).mem ∧
      (coreGet (issuePacket k g ops s) k).load = (busOut (issueView s k ops) (busOp k (issueView s k ops) ops)).load ∧
      (coreGet (issuePacket k g ops s) k).posted = (busOut (issueView s k ops) (busOp k (issueView s k ops) ops)).posted := by
  obtain ⟨back, gap, e⟩ := packet_goes h
  rw [e]
  dsimp only
  have hr := slotsDone_rest s k (issueClock s k ops) (issueView s k ops) ops (issueView s k ops)
  generalize slotsDone s k (issueClock s k ops) (issueView s k ops) ops (issueView s k ops) = d at *
  have hx : (packetNext k (issueView s k ops) ops d).core.load = (busOut (issueView s k ops) (busOp k (issueView s k ops) ops)).load ∧
      (packetNext k (issueView s k ops) ops d).core.posted = (busOut (issueView s k ops) (busOp k (issueView s k ops) ops)).posted := by
    have h1 := ctlNext_bus k (issueView s k ops) ops (busOut d (busOp k (issueView s k ops) ops))
    have h2 : d.load = (issueView s k ops).load ∧ d.posted = (issueView s k ops).posted := by
      unfold sameRest at hr; rw [hr]; exact ⟨rfl, rfl⟩
    refine ⟨h1.1.trans ?_, h1.2.trans ?_⟩
    · unfold busOut; split <;> simp [h2.1]
    · unfold busOut; split <;> simp [h2.2]
  generalize packetNext k (issueView s k ops) ops d = n at *
  rw [packetSrv_eq]
  have hw1 : coresWf (foldS ops (storeFx k (issueView s k ops)) s) = true := by rw [coresWf_of (stores_core _ _ _ _)]; exact hw
  generalize hc : ({ n.core with cyc := issueClock s k ops + 1 + n.add, gap := if n.add = 0 then [] else [(n.why, n.add)] } : NCore) = c
  generalize packetSrv k _ back gap _ ops _ n _ (corePut k c _) = z
  have hy := waitFx_bus k (issueView s k ops) ops { corePut k c (foldS ops (storeFx k (issueView s k ops)) s) with srv := z.srv }
    (corePut_wf hw1 k c)
  have hg : coreGet { corePut k c (foldS ops (storeFx k (issueView s k ops)) s) with srv := z.srv } k = c :=
    (corePut_get hw1 k c k).trans (if_pos rfl)
  rw [hg] at hy
  refine ⟨hy.1, hy.2.1.trans ?_, hy.2.2.trans ?_⟩
  · subst hc; exact hx.1
  · subst hc; exact hx.2

/-! ### The C slot -/

theorem corePut_corePut {s : State} (h : coresWf s = true) (k : Nat) (c c' : NCore) :
    corePut k c' (corePut k c s) = corePut k c' s := by
  unfold corePut
  rw [show tset {} (tset {} s.core k c) k c' = tset {} s.core k c' from tset_tset h k c c']

/-- Slots other than C, with no MOVS to a system register, do nothing after the rest. -/
theorem waitFx_none (k : Nat) (x : NCore) (l : List SlotOp) (s : State)
    (h : ∀ o ∈ l, slotOfOp o ≠ .c ∧ ∀ n a, o ≠ .movs (.write n a)) : waitFx k x l s = s := by
  induction l generalizing s with
  | nil => rfl
  | cons o l ih =>
    have h1 := h o (by simp)
    have step : waitFx k x (o :: l) s = waitFx k x l s := by
      cases o
      case movs mv =>
        cases mv
        · rfl
        · exact absurd rfl (h1.2 _ _)
      all_goals first
        | rfl
        | exact absurd rfl h1.1
    rw [step, ih s (fun p hp => h p (by simp [hp]))]

/-- A packet with a C-slot operation and no MOVS to a system register: its operation's own part comes last. -/
theorem packet_c {s : State} {k : Nat} {g : Option (Bool × Fin 4)} {o : SlotOp} {l : List SlotOp}
    (h : packetGoes s k g (o :: l) = true) (hc : slotOfOp o = .c) (hl : ∀ p ∈ l, ∀ n a, p ≠ .movs (.write n a)) :
    ∃ srv, issuePacket k g (o :: l) s =
      (let t := issueClock s k (o :: l)
       let x := issueView s k (o :: l)
       let n := packetNext k x (o :: l) (slotsDone s k t x (o :: l) x)
       waitFx k x [o] { corePut k { n.core with cyc := t + 1 + n.add, gap := if n.add = 0 then [] else [(n.why, n.add)] }
         (foldS (o :: l) (storeFx k x) s) with srv := srv }) := by
  obtain ⟨back, gap, e⟩ := packet_goes h
  obtain ⟨ho, _⟩ := packet_others h
  rw [e]
  dsimp only
  have hw : ∀ x u, waitFx k x (o :: l) u = waitFx k x [o] u := by
    intro x u
    have : waitFx k x (o :: l) u = waitFx k x l (waitFx k x [o] u) := rfl
    rw [this, waitFx_none _ _ _ _ (fun p hp => ⟨by rw [← hc]; exact ho p hp, hl p hp⟩)]
  rw [hw, packetSrv_eq]
  exact ⟨_, rfl⟩

end Sys2Proof.Machine
end

