-- ==== Sys2Proof/Laws/Settle.lean ====
section
/-! SUPPORT. The placement of faults: what it can change, and what it leaves as the command left it. -/

namespace Sys2Proof.Machine

/-- `t` differs from `s` at most in the register hub, the fault manager, the pair controller, the ports' queues, the
service bus and the Survey. -/
structure Keeps (s t : State) : Prop where
  time : t.time = s.time
  grat : t.grat = s.grat
  cmp : t.cmp = s.cmp
  mem : t.mem = s.mem
  eccBad : t.eccBad = s.eccBad
  rdata : t.rdata = s.rdata
  free : t.free = s.free
  mix : t.mix = s.mix
  eqs : t.eqs = s.eqs
  str : t.str = s.str
  sil : t.sil = s.sil
  core : t.core = s.core
  cl : t.cl = s.cl
  sup : t.sup = s.sup
  pwr : t.pwr = s.pwr
  out : t.out = s.out
  ser : t.ser = s.ser
  gaz : t.gaz = s.gaz
  boot : t.boot = s.boot
  host : t.host = s.host
  frst : t.frst = s.frst
  pending : t.pending = s.pending

theorem Keeps.refl (s : State) : Keeps s s := by constructor <;> rfl

theorem Keeps.trans {s t u : State} (h : Keeps s t) (g : Keeps t u) : Keeps s u := by
  cases h; cases g; constructor <;> simp only [*]

theorem Keeps.of_ite {c : Prop} [Decidable c] {s t u : State} (h : Keeps s t) (g : Keeps s u) :
    Keeps s (if c then t else u) := by split <;> assumption

theorem Keeps.foldS {α : Type} (l : List α) (f : α → State → State) (h : ∀ a s, Keeps s (f a s)) (s : State) :
    Keeps s (foldS l f s) := by
  unfold Machine.foldS
  induction l generalizing s with
  | nil => exact .refl s
  | cons a l ih => exact (h a s).trans (ih (f a s))

theorem Keeps.whenS (c : Bool) (f : State → State) (h : ∀ s, Keeps s (f s)) (s : State) : Keeps s (whenS c f s) :=
  .of_ite (h s) (.refl s)

theorem evOr_keeps (a m : Nat) (s : State) : Keeps s (evOr a m s) := by constructor <;> rfl
theorem raise_keeps (code cls i arg : Nat) (s : State) : Keeps s (raise code cls i arg s) := by constructor <;> rfl
theorem srvUp_keeps (b i n : Nat) (s : State) : Keeps s (srvUp b i n s) := .of_ite (.refl s) (by constructor <;> rfl)
theorem ctrUp_keeps (a lo n : Nat) (s : State) : Keeps s (ctrUp a lo n s) := .of_ite (by constructor <;> rfl) (.refl s)

theorem txOwn_keeps (p c : Nat) (f : TxFrame) (s : State) : Keeps s (txOwn p c f s) :=
  .of_ite (.refl s) (.of_ite (by constructor <;> rfl) (by constructor <;> rfl))

theorem stateSend_keeps (sub cyc a b : Nat) (l : List Byte) (due : Nat) (s : State) :
    Keeps s (stateSend sub cyc a b l due s) := txOwn_keeps ..
theorem leaseSend_keeps (op cyc : Nat) (s : State) : Keeps s (leaseSend op cyc s) := txOwn_keeps ..

theorem relinquishSend_keeps (s : State) : Keeps s (relinquishSend s) :=
  (leaseSend_keeps 3 s.grat.cycle s).trans (.of_ite (by constructor <;> rfl) (.refl _))

theorem setRole_keeps (r : Nat) (s : State) : Keeps s (setRole r s) := .of_ite (.refl s) (by constructor <;> rfl)

theorem resyncStart_keeps (s : State) : Keeps s (resyncStart s) :=
  Keeps.trans (t := { s with pair.step := 4, pair.rphase := 1, pair.ready := none, pair.retryAt := none })
    (by constructor <;> rfl) (stateSend_keeps ..)

theorem outOfStep_keeps (err : Bool) (s : State) : Keeps s (outOfStep err s) := by
  refine Keeps.trans (t := pairEvent 2 { s with pair.step := 3, pair.mis := 0, pair.matchN := 0 }) (by constructor <;> rfl) ?_
  refine Keeps.trans (.whenS (err && (pairEvent 2 { s with pair.step := 3, pair.mis := 0, pair.matchN := 0 }).pair.role == 2)
    (pairRaise 0x0F30 2) (fun s => raise_keeps ..) _) ?_
  exact .of_ite (resyncStart_keeps _) (.refl _)

theorem resyncFail_keeps (s : State) : Keeps s (resyncFail s) := by
  refine .of_ite (.refl s) ?_
  have h : Keeps s (pairRaise 0x0F25 1 (pairEvent 8 (outOfStep false
      { s with pair.rphase := 0, pair.ready := none, pair.log := [], pair.logBytes := 0, pair.caught := [] }))) :=
    ((Keeps.trans (by constructor <;> rfl) (outOfStep_keeps false _)).trans (evOr_keeps ..)).trans (raise_keeps ..)
  exact h.trans (.of_ite (by constructor <;> rfl) (.refl _))

theorem toRole_keeps (r : Nat) (s : State) : Keeps s (toRole r s) :=
  (Keeps.of_ite (resyncFail_keeps s) (.refl s)).trans (setRole_keeps r _)

theorem dropOwn_keeps (s : State) : Keeps s (dropOwn s) := .of_ite (by constructor <;> rfl) (.refl s)

theorem pairSafe_keeps (s : State) : Keeps s (pairSafe s) := by
  refine .of_ite (.refl s) ?_
  have h := (Keeps.of_ite (c := s.pair.own = true) ((dropOwn_keeps s).trans (relinquishSend_keeps _)) (.refl s)).trans
    (toRole_keeps 2 _)
  exact h.trans (.of_ite (.refl _) (outOfStep_keeps false _))

theorem enterSafe_keeps (s : State) : Keeps s (enterSafe s) :=
  .of_ite (.refl s) (Keeps.trans (by constructor <;> rfl) (pairSafe_keeps _))

theorem takeSlot_keeps (r : FaultRec) (s : State) : Keeps s (takeSlot r s) := by constructor <;> rfl

theorem faultDrop_keeps (c : Nat) (s : State) : Keeps s (faultDrop c s) :=
  (((evOr_keeps ..).trans (ctrUp_keeps ..)).trans (evOr_keeps ..)).trans (srvUp_keeps ..)

theorem queueJoin_keeps (r : FaultRec) (s : State) : Keeps s (queueJoin r s) := by
  unfold queueJoin
  refine Keeps.trans (t := { s with flt.arrivals := s.flt.arrivals + 1 }) (by constructor <;> rfl) ?_
  refine .of_ite (by constructor <;> rfl) (.of_ite ?_ (faultDrop_keeps ..))
  dsimp only
  split
  · exact Keeps.trans (by constructor <;> rfl) (faultDrop_keeps ..)
  · exact faultDrop_keeps ..

theorem placeFault_keeps (r : FaultRec) (s : State) : Keeps s (placeFault r s) := by
  unfold placeFault
  split
  · exact Keeps.trans (by constructor <;> rfl) (srvUp_keeps ..)
  · refine .of_ite (Keeps.trans (by constructor <;> rfl) (srvUp_keeps ..)) ?_
    split
    · exact takeSlot_keeps ..
    · exact .of_ite (takeSlot_keeps ..) (queueJoin_keeps ..)

theorem zephyrLog_keeps (r : FaultRec) (s : State) : Keeps s (zephyrLog r s) :=
  .of_ite (Keeps.trans (by constructor <;> rfl) (srvUp_keeps ..)) (.refl s)

theorem takeFault_keeps (r : FaultRec) (s : State) : Keeps s (takeFault r s) := by
  have h : Keeps s (placeFault r (hostFault r (zephyrLog r (srvUp 1 r.cls 1 s)))) :=
    (((srvUp_keeps ..).trans (zephyrLog_keeps ..)).trans (.whenS _ _ (fun s => evOr_keeps ..) _)).trans
      (placeFault_keeps ..)
  exact .of_ite (h.trans (enterSafe_keeps _)) h

/-- Placing what has been detected changes no engine, no core, no memory. -/
theorem settleRun_keeps (n : Nat) (s : State) : Keeps s (settleRun n s) := by
  induction n generalizing s with
  | zero => exact .refl s
  | succ n ih =>
    refine .of_ite (.refl s) ?_
    exact (Keeps.trans (by constructor <;> rfl) (.foldS _ _ takeFault_keeps _)).trans (ih _)

/-- With nothing detected there is nothing to place. -/
theorem settleRun_quiet (n : Nat) (s : State) (h : s.flt.fresh = []) : settleRun n s = s := by
  cases n with
  | zero => rfl
  | succ n => exact if_pos (by rw [h]; rfl)

end Sys2Proof.Machine
end

