-- ==== Sys2Proof/WellFormed.lean ====
section
/-! DEFINITION. Which commands a well-behaved outside sends: the counts and sizes that the spec gives a frame, a
sample row or a record, which the operand types alone do not say. The step itself takes any command. -/

namespace Sys2Proof

/-- Sense samples: four of V and four of I (R252). -/
def senseOk (r : SenseIn) : Bool := r.v.length == 4 && r.i.length == 4

/-- At most one row a channel. -/
def sensesOk (l : List SenseIn) : Bool := l.all senseOk && decide (l.map (fun r => r.ch)).Nodup

/-- What the outside supplies for a boundary. -/
def boundaryOk (b : BoundaryInput) : Bool := sensesOk b.sense && decide (b.frac.map (fun e => e.1)).Nodup

/-- Slot words of a TDM frame: at most 32 (R259). -/
def dinOk (l : List Word) : Bool := decide (l.length ≤ 32)

/-- Bytes of an Ethernet frame from its DA, without FCS: a received frame has at least 60 (R289). -/
def frameOk (l : List Byte) : Bool := decide (60 ≤ l.length)

/-- Words with a word address. -/
def wordsAligned (l : List Word) : Bool := l.all (fun a => a.toNat % 4 == 0)

/-- A MIRROR entry: 1 to 64 channels, the same number of samples each, 2, 4 or 8 (R347). -/
def mirrorOk (e : MirrorEntry) : Bool :=
  decide (1 ≤ e.nch) && decide (e.nch ≤ 64) && [2 * e.nch, 4 * e.nch, 8 * e.nch].contains e.samples.length

/-- A request with data carries LEN words (R380). -/
def hostDataOk (f : HostFrame) : Bool := f.data.length == 4 * f.len.toNat

/-- A request without data. -/
def hostPlainOk (f : HostFrame) : Bool := f.data.isEmpty

/-- Runs of flash bytes lie below the end of a 4-byte flash address (R417). -/
def flashOk (l : List (Nat × List Byte)) : Bool := l.all (fun c => decide (c.1 + c.2.length ≤ 2 ^ 32))

/-- A reservation message: at most 16 hops, a rate of at least one frame in PER cycles (R331). -/
def rsvOk (m : RsvMsg) : Bool := decide (m.route.length ≤ 16) && decide (1 ≤ m.per)

/-- Is the command one that the spec's formats allow? -/
def Instr.wellFormed : Instr → Bool
  | .cycleBoundary b => boundaryOk b
  | .scrubberSweep l m => wordsAligned l && wordsAligned m
  | .memoryEccError _ a => a.toNat % 4 == 0
  | .tdmFrame _ d => dinOk d
  | .tdmFrameReceived _ _ d => dinOk d
  | .rxFrame _ l _ => frameOk l
  | .helloReceived _ l => frameOk l
  | .wakeFrame _ l _ => frameOk l
  | .svbRxFrame l _ _ => frameOk l
  | .reserve _ m => rsvOk m
  | .confirm _ m => rsvOk m
  | .refuse _ m => rsvOk m
  | .release _ m => rsvOk m
  | .broken _ m => rsvOk m
  | .mirror _ l => l.all mirrorOk
  | .sense _ l => sensesOk l
  | .read f => hostPlainOk f
  | .readStatus f => hostPlainOk f
  | .enumerate f => hostPlainOk f
  | .whoCalls f => hostPlainOk f
  | .write f => hostDataOk f
  | .bootStream f => hostDataOk f
  | .resetRelease _ _ f => flashOk f.cells
  | .flashCommandDone _ l => flashOk l
  | _ => true

end Sys2Proof
end

