-- ==== Sys2Proof/Tests/Slice0.lean ====
section
/-! SUPPORT. Tests: ill-formed terms refused, small runs of single commands, and for every statement with
hypotheses a state that meets them. -/

namespace Sys2Proof.Tests

set_option Elab.async false

open Sys2Proof.Machine

/-! ### States for the tests -/

/-- A running node: handed off by the boot ROM, every domain ON, not sealed. -/
def rig : State :=
  { State.reset with boot.phase := 4, pwr.dom := (List.range 15).map (fun d => (d, { st := 3 })) }

/-- A register word's live copy set for a test. -/
def reg (a v : Nat) (s : State) : State := setLv a (wd v) s

/-- TEV[3] holds a ONCE schedule at second 1. -/
def rigTev : State := reg 0x400601C8 65536 rig


/-- A sealed, enabled member of a redundant pair, windward. -/
def rigPair : State :=
  reg 0x40030008 1 (reg 0x400F0020 0x80000000 (reg 0x400F0000 0x80000000 { rig with pair.role := 1, pair.link := true }))

/-! ### Ill-formed commands are refused by the check -/

theorem test_ill_sense : Instr.wellFormed (.sense 0 [{ ch := 3, v := [0, 0, 0], i := [0, 0, 0, 0] }]) = false := by decide
theorem test_ill_senses : sensesOk [{ ch := 3, v := [0, 0, 0, 0], i := [0, 0, 0, 0] },
    { ch := 3, v := [0, 0, 0, 0], i := [0, 0, 0, 0] }] = false := by decide
theorem test_ill_boundary : Instr.wellFormed (.cycleBoundary { frac := [(2, 5), (2, 6)] }) = false := by decide
theorem test_ill_din : Instr.wellFormed (.tdmFrame 0 (List.replicate 33 0)) = false := by decide
theorem test_ill_frame : Instr.wellFormed (.rxFrame 0 (List.replicate 59 0) true) = false := by decide
theorem test_ill_words : Instr.wellFormed (.scrubberSweep [0x40050002] []) = false := by decide
theorem test_ill_ecc : Instr.wellFormed (.memoryEccError .host 0x100001) = false := by decide
theorem test_ill_mirror : mirrorOk { slot := 0, nch := 2, samples := [0, 0, 0] } = false ∧
    mirrorOk { slot := 0, nch := 0, samples := [] } = false := by decide
theorem test_ill_hostData : Instr.wellFormed (.write { dev := 0, len := 1, data := [1, 2, 3], crc := 0 }) = false := by decide
theorem test_ill_hostPlain : Instr.wellFormed (.read { dev := 0, len := 1, data := [1], crc := 0 }) = false := by decide
theorem test_ill_flash : Instr.wellFormed (.flashCommandDone [] [(0xFFFFFFFF, [0, 0])]) = false := by decide
theorem test_ill_rsv : rsvOk { flow := 0, per := 0 } = false ∧ rsvOk { flow := 0, route := List.replicate 17 0 } = false := by decide

/-! ### Figures of the spec's worked examples and tables -/

/-- LC 600,000,000,000 at RATE 2^30 of 03_fabric_time.md's example. -/
def exampleTime : State :=
  { rig with time.lc := 600000000000, time.rate := 2 ^ 30, time.offset := (1751518800 * 1000000000 + 995442363) * 65536 + 51200 }

/-- 03_fabric_time.md, example from LC to PTP time, step 5. -/
theorem test_time_words : regVal exampleTime 0x40060020 = 0x4E20 ∧ regVal exampleTime 0x40060024 = 0x13018000 ∧
    regVal exampleTime 0x40060028 = 0x6866 := by decide +kernel
/-- The same, steps 7 and 8: 20,000 ns into the cycle, window 30. -/
theorem test_time_pos : regVal { exampleTime with grat.cycle := 42036480024000 } 0x40070018 = 0x4E20001E := by decide +kernel
/-- 11_fabric_ports.md, 64 channels at 96 kHz: DA and header bytes 0 to 7. -/
theorem test_flow_head : flowDa (reg 0x400C0004 0x03E00F0 rig) 0x2A5C3 = 0x03E00F02A5C3 ∧
    eorelHead { kind := 0, flow := 0x2A5C3, nch := 64, spc := 4 } = [0x10, 0, 0x2A, 0x5C, 0x30, 0x40, 4, 0] := by decide +kernel
/-- The same, windows needed by 1,094 byte times at 25G, 10G and 1G. -/
theorem test_flow_windows : windowsFor rig 3 1094 = 1 ∧ windowsFor rig 2 1094 = 2 ∧ windowsFor rig 1 1094 = 14 := by decide +kernel
/-- 18_faults_resets_bus.md, the record of step 1. -/
theorem test_fault_words : recWords { code := 0x1B10, cls := 1, inst := 7, cycle := 480000, ns := 3200 } =
    [0x1B100107, 0, 0x00075300, 0x0C800000] := by decide +kernel
/-- The same, the overrun record after the merge of step 5. -/
theorem test_fault_merged : getAt 0 (recWords (merged { code := 0x1610, cls := 2, inst := 3, cycle := 480001 })) 0 = 0x16101203 := by
  decide +kernel
/-- 09_output_stage.md, the shorted lead: the hold of 2,400 cycles, the retest of 480, W of 120, the rise of 1,200. -/
theorem test_out_times : cy100ms rig = 2400 ∧ cy20ms rig = 480 ∧ softW rig = 120 ∧ cy50ms rig = 1200 ∧ cy10s rig = 240000 := by
  decide +kernel
/-- R167's thresholds of the silence detector at −120 and −60 dBFS. -/
theorem test_silence_thresholds : getAt 0 quietTable 0 = 16777 ∧ getAt 0 quietTable 60 = 17 := by decide +kernel
/-- 00_scope.md: silicon stepping B0. -/
theorem test_step_b0 : nfld (regVal State.reset 0x40000000).toNat 8 8 = 0xB0 := by decide +kernel

/-! ### One packet, one boundary, one register -/

/-- The state after a command. -/
def after (c : Instr) (s : State) : State :=
  match exec c s with
  | .next t => t
  | _ => s

/-- A running core 31 with V1 = 5 and V2 = 7. -/
def exampleCore : State := { rig with core := [(31, { st := 2, v := [(1, 5), (2, 7)], cyc := 7 })], cl := [(3, { running := true })] }

/-- R188: a MOV's result is there for the packet of the next clock; V0 and the other registers stand. -/
theorem test_core_latency :
    let s := after (.nop { core := 31 }) (after (.mov { core := 31 } 3 1) exampleCore)
    (coreGet s 31).pc = 2 ∧ vGet (coreGet s 31) 3 = 5 ∧ vGet (coreGet s 31) 2 = 7 := by decide +kernel
/-- R180: two operations of one packet read before either writes. -/
theorem test_core_reads_first :
    let s := after (.nop { core := 31 }) (after (.mul { core := 31, others := [.alu1 .mov 1 2] } 0 1 1 .int) exampleCore)
    accGet (coreGet s 31) 0 = 25 ∧ vGet (coreGet s 31) 1 = 7 := by decide +kernel
/-- R191: saturating sums and differences; CLZ of 0; ABS of the most negative value wraps. -/
theorem test_alu_edges : (alu2Fx .adds 0x7FFFFFFF 1 0).1 = 0x7FFFFFFF ∧ (alu2Fx .subs 0x80000000 1 0).1 = 0x80000000 ∧
    (alu1Fx .clz 0 0).1 = 32 ∧ (alu1Fx .abs 0x80000000 0).1 = 0x80000000 := by decide +kernel
/-- R448: FLT.ACK with nothing in handling leaves the fault manager as it is. -/
theorem test_ack_empty : (after (.fltAck .host) rig).flt.slots = [] := by decide +kernel
/-- R238: a channel in SHORT_HOLD goes to RETEST after 2,400 cycles, not before. -/
theorem test_short_hold :
    let s (k : Nat) : State := { rig with grat.cycle := k, out.ch := [(7, { st := 6, since := 5000001, retry := 3 })] }
    (outGet (after (.shortHoldExpiry 7) (s 5002401)) 7).st = 7 ∧ (outGet (after (.shortHoldExpiry 7) (s 5002401)) 7).retry = 2 ∧
      (outGet (after (.shortHoldExpiry 7) (s 5002400)) 7).st = 6 := by decide +kernel

/-! ### Every hypothesis can be met -/

theorem test_meets_IdleStepCounts : State.reset.pending = [] := rfl

theorem test_meets_PlacementFrame : State.reset.flt.fresh = [] := rfl

theorem test_meets_EveryCommandPlacesItsFaults :
    ∃ s t : State, quiet s = true ∧ step s = .next t := by
  exact ⟨State.reset, { State.reset with time.lc := 1 }, by decide +kernel, rfl⟩

theorem test_meets_FaultManagerKept : faultsWf State.reset = true ∧ ({ code := 0x0501, cls := 1, inst := 3, arg := 0, cycle := 0, ns := 0 } : FaultRec).cls < 4 := by
  decide +kernel

theorem test_meets_RepeatedFaultMerges :
    let a : FaultRec := { code := 0x0501, cls := 1, inst := 3, arg := 0, cycle := 0, ns := 0 }
    let s : State := { State.reset with flt.slots := [(1, some a)] }
    let u : State := { State.reset with flt.queue := [a] }
    tabWf (fun _ => none) s.flt.slots = true ∧ tget none s.flt.slots 1 = some a ∧
    (∀ c q, tget none s.flt.slots c = some q → c = 1) ∧ (∀ c q, tget none u.flt.slots c ≠ some q) ∧ a ∈ u.flt.queue := by
  refine ⟨by decide +kernel, by decide +kernel, ?_, ?_, by decide +kernel⟩
  · intro c q h
    by_cases e : c = 1
    · exact e
    · have h : (if c = 1 then _ else if c < 1 then none else none) = some q := h
      rw [if_neg e] at h
      split at h <;> cases h
  · intro c q h; cases h

theorem test_meets_AcknowledgedFaultLeaves :
    let a : FaultRec := { code := 0x0501, cls := 1, inst := 3, arg := 0, cycle := 0, ns := 0 }
    let two : State := { rig with flt.slots := [(0, some { a with cls := 0 }), (1, some a)] }
    let one : State := { rig with flt.slots := [(1, some a)], flt.queue := [{ a with inst := 4 }] }
    writes two .sup 0x4001000C = true ∧ faultsWf two = true ∧ curClass two = some 1 ∧
    writes one .sup 0x4001000C = true ∧ faultsWf one = true ∧ curClass one = some 1 ∧ curClass rig = none ∧
    [3, 2, 1, 0].find? (fun k => k != 1 && (slotRec two k).isSome) = some 0 ∧
    [3, 2, 1, 0].find? (fun k => k != 1 && (slotRec one k).isSome) = none := by decide +kernel

theorem test_meets_MemoryOperations : Memory.wf State.reset.mem = true := by decide +kernel

theorem test_meets_RegisterAccessForm :
    isReg 0x40010000 = true ∧ issues rig .host = true ∧ fwCheck rig .host 0x40010000 false = none ∧
    fwCheck rig .host 0x40010000 true = none ∧ decodes rig 0x40010000 = true ∧ decodes rig 0x40010003 = true := by
  decide +kernel

theorem test_meets_LockedWritesIgnored :
    let s : State := reg 0x40030008 1 (reg 0x40020018 1024 (reg 0x40020010 2 rig))
    isReg 0x40010008 = true ∧ issues s .host = true ∧ badAccess s 0x40010008 .word = false ∧
    isSealed s = true ∧ lb s 0x40020018 (masterId .host) = true ∧ lb s 0x40020010 1 = true ∧
    fwCheck s .host 0x40010008 true = none ∧ reads s .host 0x40010008 = true ∧ isSealed rig = false := by decide +kernel

theorem test_meets_ResetState : (14 : Nat) < 15 ∧ (4095 : Nat) < 4096 ∧ (4 : Nat) ≤ 31 ∧ (31 : Nat) < 32 ∧ (3 : Nat) < 4 ∧ (47 : Nat) < 48 := by decide

theorem test_meets_TimedEventCommands :
    (writes rig .sup (tevBase 3 + 0x20) = true ∧ tevBad (counted rigTev) 3 = false ∧ lb rigTev 0x40070038 19 = false ∧
      ((tevGet rigTev 3).active && (tevGet rigTev 3).endLc.isSome) = false ∧ writes rigTev .sup (tevBase 3 + 0x20) = true ∧
      ftNow (counted rigTev) ≤ tevEdgeFt (counted rigTev) 3 (tevRegs (counted rigTev) 3) 0) ∧
    tevBad (counted (reg 0x40060100 3 rig)) 0 = true ∧
    (tevBad (counted (reg 0x40070038 0x80000 rigTev)) 3 = false ∧ lb (reg 0x40070038 0x80000 rigTev) 0x40070038 19 = true) ∧
    (let s := tevPut 0 { armed := true, active := true, endLc := some 9 } rig
     writes s .sup (tevBase 0 + 0x20) = true ∧ tevBad (counted s) 0 = false ∧ lb s 0x40070038 16 = false ∧
      ((tevGet s 0).active && (tevGet s 0).endLc.isSome) = true ∧ (tevGet s 0).armed = true ∧
      (tevGet s 0).waiting = false ∧ (tevGet s 0).next = none) := by decide +kernel

theorem test_meets_PulseAndCaptureCommands :
    lb (reg 0x40060200 1 rig) 0x40060200 0 = true ∧ ({ rig with time.ppsOn := true } : State).time.ppsOn = true ∧
    (let s := reg (tcapBase 3) 0x13 rig
     lb s (tcapBase 3) 0 = true ∧ lb s (tcapBase 3) 1 = true ∧ lb s (tcapBase 3) 4 = true) ∧
    (let s : State := { rig with time.tcap := [(3, [⟨true, 5⟩])], time.txf := [(3, [⟨1, 2, 3, 4⟩])] }
     reads s .host (tcapBase 3 + 8) = true ∧ tget [] s.time.tcap 3 = [⟨true, 5⟩] ∧ tget [] s.time.tcap 2 = [] ∧
      reads s .host (tcapBase 2 + 8) = true ∧ reads s .sup (prtBase 3 + 0x42C) = true ∧
      tget [] s.time.txf 3 = [⟨1, 2, 3, 4⟩] ∧ tget [] s.time.txf 0 = [] ∧ writes s .sup (prtBase 3 + 0x424) = true) := by
  decide +kernel

theorem test_meets_CommonStartCommands :
    (writes rig .host 0x40070040 = true ∧ lb (reg 0x4007003C 1 rig) 0x4007003C 0 = true ∧
      writes (reg 0x4007003C 1 rig) .host 0x40070040 = true ∧ lb rig 0x4007003C 0 = false) ∧
    (let s := reg 0x40070030 2 rig
     writes s .host 0x40070040 = true ∧ lb s 0x4007003C 0 = false ∧
      s.grat.cycle + 2 ≤ lvn s 0x40070030 + lvn s 0x40070034 * 2 ^ 32) ∧
    (let s := reg 0x40070030 1 rig
     writes s .host 0x40070040 = true ∧ lb s 0x4007003C 0 = false ∧
      lvn s 0x40070030 + lvn s 0x40070034 * 2 ^ 32 < s.grat.cycle + 2) ∧
    (let s : State := { rig with grat.armed := true, grat.src := true }
     s.grat.armed = true ∧ s.grat.src = true ∧ s.grat.startCyc = none) := by decide +kernel

theorem test_meets_CandidateCommands :
    (candGet (candPut 7 { signal := true } rig) 7).signal = true ∧
    (let s := candPut 7 { qualT := 1000000 } (reg (candBase 7) 1 rig)
     candPrio s 7 ≠ 0 ∧ (candGet s 7).qual = false ∧ cmpW s 0x20 * 1000 ≤ (candGet s 7).qualT ∧
      (List.range 8).filter (fun m => candPrio s m != 0 && !(candGet s m).qual && sameSource s 7 m) = [7]) ∧
    (let s := candPut 7 { warn := true, warnT := 10000000 } rig
     (candGet s 7).warn = true ∧ (candGet s 7).warned = false ∧ cmpW s 0x2C * 1000 ≤ (candGet s 7).warnT) ∧
    (let s := candPut 0 { wtrRun := true, wtrT := 10000000, qual := true }
      { reg (candBase 0) 1 (reg (candBase 1) 2 (reg 0x40050000 3 rig)) with cmp.cur := some 1 }
     (candGet s 0).wtrRun = true ∧ cmpW s 0x3C * 1000 ≤ (candGet s 0).wtrT ∧ mayRevert s 0 = true) ∧
    (let s := candPut 0 { wtrRun := true, wtrT := 10000000 } rig
     (candGet s 0).wtrRun = true ∧ cmpW s 0x3C * 1000 ≤ (candGet s 0).wtrT ∧ mayRevert s 0 = false) := by decide +kernel

theorem test_meets_CompassStateCommands :
    (let s : State := { rig with cmp.st := 1, cmp.cur := some 0, cmp.lockT := 100000 }
     s.cmp.st = 1 ∧ s.cmp.cur = some 0 ∧ s.cmp.sw = none ∧ cmpW s 0x48 ≤ s.cmp.lockT) ∧
    (let s : State := { rig with cmp.st := 2, cmp.cur := some 7, cmp.unlockT := 100000 }
     s.cmp.st = 2 ∧ s.cmp.cur = some 7 ∧ s.cmp.drifting = false ∧ s.cmp.sw = none ∧ cmpW s 0x48 ≤ s.cmp.unlockT) ∧
    (let s : State := { reg 0x40050050 1 rig with cmp.st := 3, cmp.holdT := 2000 }
     s.cmp.st = 3 ∧ cmpW s 0x50 ≠ 0 ∧ cmpW s 0x50 < holdElapsed s) ∧
    (let s : State := { rig with cmp.st := 2, cmp.histCnt := 1000 }
     s.cmp.st = 2 ∧ s.cmp.drifting = false ∧ s.cmp.sw = none ∧ 1000 ≤ s.cmp.histCnt) ∧
    (let s : State := { rig with cmp.sw := some { target := 3, tick := 100000 } }
     cmpW s 0x40 ≤ 100000 ∧ s.cmp.sw = some { target := 3, tick := 100000 }) := by decide +kernel

theorem test_meets_PhaseStepCommands :
    (writes rig .sup 0x400500D0 = true ∧ lb rig 0x40050000 2 = false ∧ writes rig .sup 0x400500E4 = true) ∧
    (let s := reg 0x40050000 4 rig
     let b := reg 0x400500C4 1000000000 s
     let v := reg 0x400500C0 2 s
     let q : State := { s with cmp.slew := some { kind := 0, delta := 1, p := 1, a := 1 } }
     (writes b .sup 0x400500D0 = true ∧ lb b 0x40050000 2 = true ∧ 1000000000 ≤ cmpW b 0xC4) ∧
     (writes q .sup 0x400500D0 = true ∧ lb q 0x40050000 2 = true ∧ ((pstepRegs q).abs && (pstepRegs q).slew) = false ∧
       cmpW q 0xC4 < 1000000000 ∧ cmpBusy q = true ∧ q.cmp.pstepQ = none) ∧
     (writes v .sup 0x400500D0 = true ∧ lb v 0x40050000 2 = true ∧ (pstepRegs v).abs = false ∧ (pstepRegs v).slew = true ∧
       cmpW v 0xC4 < 1000000000 ∧ cmpBusy v = false) ∧
     (writes s .sup 0x400500D0 = true ∧ lb s 0x40050000 2 = true ∧ (pstepRegs s).slew = false ∧
       cmpW s 0xC4 < 1000000000 ∧ cmpBusy s = false)) ∧
    (let w : FtSlew := { kind := 1, delta := 1, p := 1, a := 1, tick := 100000 }
     let s : State := { rig with cmp.slew := some w }
     s.cmp.slew = some w ∧ ftSlewOver w = true ∧ s.cmp.pstepQ = none ∧ s.cmp.nextSel = none ∧ s.cmp.cur = none) ∧
    (let w : FtStepSt := { amount := -1, k1 := some 1 }
     let s : State := { reg 0x40050060 1 rig with cmp.step := some w, grat.nextCycle := 2 }
     let u := atFt (cycleFt s (1 + cmpW s 0x60)) s
     s.cmp.step = some w ∧ 1 + cmpW s 0x60 = s.grat.nextCycle ∧ s.cmp.cur = none ∧
      unsgn 96 ((ftNow u : Int) + w.amount) ≤ ftNow u) := by decide +kernel

theorem test_meets_CompassMeasurementCommands :
    (let w : FtStepSt := { amount := 65536, k1 := some 1 }
     let s : State := { reg 0x40050060 1 rig with cmp.step := some w, grat.nextCycle := 2 }
     let u := atFt (cycleFt s (1 + cmpW s 0x60)) s
     s.cmp.step = some w ∧ 1 + cmpW s 0x60 = s.grat.nextCycle ∧
      ftNow u < unsgn 96 ((ftNow u : Int) + w.amount)) := by decide +kernel

theorem test_meets_RegisterWriteCommands :
    (writes rig .host 0x40050024 = true ∧ plainReg 0x40050024 = true ∧ (rowOf 0x40050024).map RegRow.acc = some .rw ∧
      egrUnused rig 0x40050024 = false) ∧
    (writes rig .host 0x40010004 = true ∧ plainReg 0x40010004 = true ∧ (rowOf 0x40010004).map RegRow.acc = some .rc) ∧
    (let s : State := { rig with hub.live := [(0x40070000, 0x300)] }
     writes s .host 0x40114800 = true ∧ plainReg 0x40114800 = true ∧
      (rowOf 0x40114800).map RegRow.acc = some .rw ∧ egrUnused s 0x40114800 = true) ∧
    (issues rig .host = true ∧ fwCheck rig .host 0x60000000 true = none ∧ badAccess rig 0x60000000 .word = true) ∧
    (writes rig .host 0x4000001C = true ∧ plainReg 0x4000001C = true ∧ (rowOf 0x4000001C).map RegRow.acc = some .ri ∧
      riMulti 0x4000001C = some (0x40000018, 2) ∧ (0x4000001C - 0x40000018) / 4 + 1 = 2) ∧
    (writes rig .host 0x40000018 = true ∧ plainReg 0x40000018 = true ∧ (rowOf 0x40000018).map RegRow.acc = some .ri ∧
      riMulti 0x40000018 = some (0x40000018, 2) ∧ (0x40000018 - 0x40000018) / 4 + 1 < 2) ∧
    (let s : State := { rig with frst.jobs := [{ fn := 69 }] }
     isReg 0x40050024 = true ∧ issues s .host = true ∧ fwCheck s .host 0x40050024 true = none ∧
      badAccess s 0x40050024 .word = false ∧ winOf 0x40050024 ≠ 30 ∧ locked s .host 0x40050024 = false ∧
      waitsReset s 0x40050024 = true) := by decide +kernel

theorem test_meets_RegisterReadCommands :
    (reads rig .host 0x40060010 = true ∧ plainReg 0x40060010 = true ∧ multiAt 0x40060010 = some (0x40060010, 2) ∧
      offOf 0x40060010 < 0x300) ∧
    (reads rig .host 0x40010004 = true ∧ plainReg 0x40010004 = true ∧ multiAt 0x40010004 = none ∧ rcMask 0x40010004 ≠ 0) ∧
    (rig.hub.shadowBad = [] ∧ rig.hub.liveBad = []) ∧
    (let s : State := { rig with hub.liveBad := [0x40050024] }
     scrubbed s 0x40050024 = true ∧ hasShadow 0x40050024 = true ∧ 0x40050024 ∉ s.hub.dirty) ∧
    (memReads rig .host 0x100000 = true ∧ rig.eccBad = []) := by decide +kernel

theorem test_meets_BoundaryCommands :
    writes rig .sup 0x40000010 = true ∧ (boundaryOn rig = true ∧ rig.hub.held = [] ∧ rig.cmp.step = none) ∧
    boundaryOn State.reset = false := by decide +kernel

theorem test_meets_SilenceAndCoreEventCommands :
    (let s := reg 0x40140010 0 rig
     lf s 0x40140010 0 12 * famF s ≤ s.grat.cycle + 1 - tget 0 s.sil.loudAt 255) ∧
    (let s : State := reg (grpBase 31) 0 { rig with sil.grp := [(31, { st := 2, hold := 5 })] }
     (grpGet s 31).st = 2 ∧ lf s (grpBase 31) 0 12 * famF s ≤ (grpGet s 31).hold) ∧
    (let s : State := { rig with core := [(32, { levels := [{ start := 1, stop := 2, lc := 0, dep := 0, first := false }] })] }
     ∃ l rest, (coreGet s 32).levels = l :: rest ∧ l.lc = 0) ∧
    (let s : State := { rig with core := [(31, { st := 2, drain := true, cyc := 9, flight := [{ land := 12, reg := 3, val := 7 }] })] }
     (coreGet s 31).st = 2 ∧ (coreGet s 31).drain = true ∧ (coreGet s 31).posted = [] ∧ (coreGet s 31).load = none) ∧
    (let s : State := { rig with cl := [(3, { psnap := some 8 })] }
     (clGet s 3).psnap.isSome = true) ∧
    (let r : SmpRec := { core := 31, reason := 1, held := 2, pc := 3, cyc := 4, lat := 5, cycle := 6 }
     let s : State := { rig with srv.wait := [r] }
     let b : State := reg 0x401E0040 0x40000000 { s with srv.fill := [(3, 256)] }
     (s.srv.wait.find? (fun r => r.core == 31 && r.lat != 0) = some r ∧ s.srv.frozen = false ∧ lb s 0x401E0040 30 = false) ∧
     (b.srv.wait.find? (fun r => r.core == 31 && r.lat != 0) = some r ∧ b.srv.frozen = false ∧
       lb b 0x401E0040 30 = true ∧ tget 0 b.srv.fill (31 / 8) = 256)) := by
  refine ⟨by decide +kernel, by decide +kernel, ⟨_, _, rfl, rfl⟩, by decide +kernel, by decide +kernel, by decide +kernel⟩

theorem test_meets_CoreCycleCommands :
    (let s : State := { rig with cl := [(3, { inRes := true })], core := [(24, { st := 1, restart := true })] }
     tabWf (fun _ => ({} : NCore)) s.core = true ∧ (clGet s 3).inRes = true) ∧
    (let s : State := reg (clBase 3 + 0x1C) 0x81 { rig with core := [(24, { st := 2, sync := true, cyc := 5 }), (31, { st := 2, sync := true, cyc := 9 })] }
     tabWf (fun _ => ({} : NCore)) s.core = true ∧ barMembers s 3 = [24, 31] ∧
       (∀ k, k ∈ barMembers s 3 → (coreGet s k).sync = true) ∧
       (∀ j : Fin 8, lb s (clBase 3 + 0x1C) j = true → coreBusyRun s (3 * 8 + j) = true → (coreGet s (3 * 8 + j)).drain = false)) ∧
    (let s : State := { rig with core := [(31, { st := 2, cyc := 9 })] }
     coreBusyRun s 31 = true) ∧
    (let s : State := { rig with cl := [(3, { sem := [(31, 8)] })] }
     tabWf (fun _ => ({} : ClusterSt)) s.cl = true ∧ tabWf (fun _ => 0) (clGet s 3).sem = true) := by
  decide +kernel

theorem test_meets_SemaphoreAndMailboxCommands :
    reads rig .sup (clBase 3 + 0x40 + 4 * 31) = true ∧ semOwnerCode 3 .sup = some 9 ∧
    reads rig (.dma 0) (clBase 3 + 0x40 + 4 * 31) = true ∧ semOwnerCode 3 (.dma 0) = none ∧
    writes rig .host (clBase 3 + 0x40 + 4 * 31) = true ∧ writes rig (.core 3 7) (clBase 3 + 0x100 + 16 * 8) = true ∧
    (let s : State := { rig with cl := [(3, { mbx := [(8, [7])] })] }
     reads s .sup (clBase 3 + 0x100 + 16 * 8) = true ∧ tget [] (clGet s 3).mbx 8 = [7] ∧
     reads s .sup (clBase 3 + 0x100 + 16 * 0) = true ∧ tget [] (clGet s 3).mbx 0 = []) := by
  decide +kernel

theorem test_meets_AluTwoSourceCommands :
    let s : State := { rig with core := [(31, { st := 2, v := [(1, 5), (2, 0x80000000)], cyc := 7 })], cl := [(3, { running := true })] }
    coresWf s = true ∧ packetGoes s 31 none [.alu2 .add 3 1 2] = true ∧
      packetGoes s 31 (some (true, 3)) [.alu2 .max 3 1 1, .re .mac 0 1 2 .q31, .aaddI 2 4, .ret] = false ∧
      packetGoes s 31 (some (true, 3)) [.alu2 .max 3 1 1, .re .mac 0 1 2 .q31, .aaddI 2 4] = true ∧
      packetGoes s 31 none [.alu2 .sub 31 0 31] = true := by
  decide +kernel

theorem test_meets_AluOneSourceAndMoveCommands :
    let s : State := { rig with core := [(32, { st := 2, v := [(1, 0x80000000)], cyc := 7 })] }
    coresWf s = true ∧ packetGoes s 32 none [.alu1 .abs 3 1] = true ∧ packetGoes s 32 none [.shift .shra 31 1 (.reg 2)] = true ∧
      packetGoes s 32 none [.movi 0 0x80000] = true ∧ packetGoes s 32 none [.movh 31 0xFFFF] = true ∧
      packetGoes s 32 none [.sel 1 2 3 3] = true ∧ packetGoes s 32 none [.mrd 1 (.accTop 7)] = true := by
  decide +kernel

theorem test_meets_FlagAndAccumulatorCommands :
    let s : State := { rig with core := [(0, { st := 2, v := [(1, 0x80000000)], cyc := 7 })] }
    coresWf s = true ∧ packetGoes s 0 none [.cmp .hs 3 0 31] = true ∧ packetGoes s 0 none [.mwr 1] = true ∧
      packetGoes s 0 none [.re .msub 7 1 1 .q31, .cmp .lt 0 1 2] = true ∧ packetGoes s 0 none [.mac2 6 30 0 .q30] = true ∧
      packetGoes s 0 none [.cx .cmsub 6 30 0 .int true] = true ∧ packetGoes s 0 none [.aclr true 6] = true := by
  decide +kernel

theorem test_meets_ExtractionAndAddressCommands :
    let s : State := { rig with core := [(7, { st := 2, acc := [(7, -5)], l := [(2, 8)], cyc := 7 })] }
    coresWf s = true ∧ packetGoes s 7 none [.rnd false 31 7 32] = true ∧ packetGoes s 7 none [.sat true 30 6 63, .alu1 .mov 1 2] = true ∧
      packetGoes s 7 none [.aaddI 7 0x8000] = true ∧ packetGoes s 7 none [.aaddM 7 7, .ld true .x 1 (.postImm 1 4)] = true ∧
      packetGoes s 7 none [.amod 2 3 true] = true ∧ packetGoes s 7 none [.amov .l 2 3] = true ∧
      packetGoes s 7 none [.amovi .b 2 0x80000] = true := by
  decide +kernel

theorem test_meets_LoadAndStoreCommands :
    let s : State := { rig with core := [(31, { st := 2, a := [(1, 0x100), (2, 0x40000020)], cyc := 7 })] }
    coresWf s = true ∧ packetGoes s 31 none [.ld true .x 3 (.postImm 1 4)] = true ∧
      packetGoes s 31 none [.ld false .y 30 (.ind 1), .alu1 .mov 1 2] = true ∧
      isLocal 31 (eaAddr (issueView s 31 [.ld true .x 3 (.postImm 1 4)]) (.postImm 1 4)).toNat = true ∧
      packetGoes s 31 none [.ld true .z 3 (.ind 2)] = true ∧ isLocal 31 (eaAddr (issueView s 31 [.ld true .z 3 (.ind 2)]) (.ind 2)).toNat = false ∧
      packetGoes s 31 none [.st false .z 30 (.ind 1)] = true ∧ packetGoes s 31 none [.st true .z 31 (.ind 2)] = true := by
  decide +kernel

theorem test_meets_ControlCommands :
    let l : RepLevel := { start := 3, stop := 9, lc := 2, dep := 1 }
    let s : State := { rig with core := [(5, { st := 2, pc := 9, levels := [l], rdep := 1, rstk := [(0, (7, 0))] })] }
    coresWf s = true ∧ packetGoes s 5 none [.nop] = true ∧ packetGoes s 5 none [.jmp (.imm 4)] = true ∧
      packetGoes s 5 none [.call 4, .alu1 .mov 1 2] = true ∧ packetGoes rig 5 none [.rep (.imm 3) 8] = false ∧
      (let r : State := { rig with core := [(5, { st := 2, pc := 9, rdep := 1, rstk := [(0, (7, 0))] })] }
       packetGoes r 5 none [.ret] = true ∧ packetGoes r 5 none [.rep (.imm 3) 20] = true ∧ packetGoes r 5 none [.rep (.reg 3) 20] = true) ∧
      packetGoes s 5 none [.brk] = true ∧
      (let x0 := issueCore s 5
       coreTakes s 5 = true ∧ guardOn x0 (some (false, 3)) = false ∧
        x0.cyc + bankStalls (packetBanks 5 (landTo x0.cyc x0) []) < (clGet s (5 / 8)).budget ∧
        lowestExc (packetExc s 5 (landTo 0 x0) false [.ret]) = none) := by
  decide +kernel
theorem test_meets_ControlCommands_any (is : Issue) (s : State) : exec (.ret is) s = finish s (issueOp is .ret s) := rfl

theorem test_meets_WaitAndModeCommands :
    let s : State := { rig with core := [(5, { st := 2 }), (32, { st := 2 })] }
    coresWf s = true ∧ packetGoes s 5 none [.waitCycle] = true ∧ packetGoes s 32 none [.waitCycle, .alu1 .mov 1 2] = true ∧
      packetGoes s 5 none [.sync] = true ∧ packetGoes s 32 none [.wfi] = true ∧ packetGoes s 32 none [.user] = true ∧
      packetGoes s 32 none [.iret] = true ∧ packetGoes s 32 none [.movs (.read 3 0)] = true ∧
      packetGoes s 32 none [.movs (.write 47 3), .nop] = true ∧
      (let r : State := reg (clBase 0 + 0x1C) 0x20 s
       lb r (clBase (5 / 8) + 0x1C) (5 % 8) = true ∧ packetGoes r 5 none [.sync] = true) ∧
      (let r : State := { s with sup.grd := [(14, 16)] }
       bit (tget 0 r.sup.grd (2 * 7)) 4 = true) := by
  decide +kernel

theorem test_meets_PacketExceptions :
    let s : State := { rig with core := [(5, { st := 2 }), (32, { st := 2, pc := 100 })] }
    let u : State := { s with sup.ssp := 3 }
    (let x := issueView s 5 [.ld true .x 1 (.ind 0)]
     coreTakes s 5 = true ∧ guardOn (issueCore s 5) none = true ∧ issueClock s 5 [.ret] < (clGet s (5 / 8)).budget ∧
       lowestExc (packetExc s 5 x true [.ret]) = some (0, none)) ∧
    (coresWf s = true ∧ coreTakes s 32 = true ∧ guardOn (issueCore s 32) none = true ∧
      lowestExc (packetExc s 32 (issueView s 32 [.ld true .x 1 (.ind 0)]) true [.ld true .x 1 (.ind 0)]) = some (1, some 0) ∧
      s.sup.ssp.toNat % 64 = 0 ∧ guardDenies s false .write (s.sup.ssp - 64).toNat = false ∧
      guardDenies s false .write ((s.sup.ssp - 64).toNat + 32) = false ∧ inSupRam (s.sup.ssp - 64).toNat = true) ∧
    (coresWf u = true ∧ coreTakes u 32 = true ∧ lowestExc (packetExc u 32 (issueView u 32 [.ret]) true [.ret]) = some (0, none) ∧
      u.sup.ssp.toNat % 64 ≠ 0) ∧
    lowestExc (packetExc s 32 (issueView s 32 [.trap 15]) true [.trap 15]) = some (6, none) := by
  decide +kernel
theorem test_meets_PacketExceptions_any (is : Issue) (s : State) : exec (.ret is) s = finish s (issueOp is .ret s) := rfl

theorem test_meets_BusLoadReturnCommands :
    (let s : State := { rig with core := [(5, { st := 2, load := some { addr := 0x40010004#32, dbl := false, d := 3 } })] }
     ((coreGet s 5).load.map (fun l => (waitsReset s l.addr.toNat, waitsSnap s l.addr.toNat false, reads s (masterOfCore 5) l.addr.toNat))) =
       some (false, false, true)) ∧
    (let p : Posted := { addr := 0x40010004#32, size := .word, val := 7 }
     let s : State := { rig with core := [(5, { st := 2, posted := [p] })] }
     let u : State := { rig with core := [(5, { st := 2, posted := [p], heldP := some (none, [.ret]) })] }
     (coreGet s 5).posted = [p] ∧ waitsReset s p.addr.toNat = false ∧
       (coreGet (busWrite (masterOfCore 5) p.addr.toNat p.size p.val (corePut 5 { coreGet s 5 with posted := [] } s)) 5).heldP = none ∧
       (coreGet (busWrite (masterOfCore 5) p.addr.toNat p.size p.val (corePut 5 { coreGet u 5 with posted := [] } u)) 5).heldP =
         some (none, [.ret])) ∧
    (let s : State := { rig with
       core := [(32, { st := 2, pc := 100 })], sup.sstat := 0x101, sup.ien := 2 ^ 37, sup.ipri := [(4, 0x300000)],
       sup.strobe := true }
     let u : State := { s with sup.ssp := 3 }
     (supBetween s = true ∧ supIe s = true ∧ bestLine s = some 37 ∧ coresWf s = true ∧ s.sup.ssp.toNat % 64 = 0 ∧
       guardDenies s false .write (s.sup.ssp - 64).toNat = false ∧
       guardDenies s false .write ((s.sup.ssp - 64).toNat + 32) = false ∧ inSupRam (s.sup.ssp - 64).toNat = true) ∧
     (supBetween u = true ∧ supIe u = true ∧ bestLine u = some 37 ∧ u.sup.ssp.toNat % 64 ≠ 0)) := by
  decide +kernel

theorem test_meets_OutputStateCommands :
    let at_ (x : OutCh) : State := { rig with grat.cycle := 300000, out.ch := [(3, x)] }
    let ok (s : State) : Bool := outsWf s
    (let s := at_ { st := 2, retry := 2 }
     ok s = true ∧ (outGet s 3).since + cy60ms s ≤ s.grat.cycle ∧ diagResult s 3 { z := 400 } true = 0 ∧
       diagResult s 3 { shortGnd := true, z := 400 } true = 2) ∧
    (let s := at_ { st := 6, retry := 2 }
     ok s = true ∧ (outGet s 3).since + cy100ms s ≤ s.grat.cycle ∧ 0 < (outGet s 3).retry ∧ (outGet (at_ { st := 6 }) 3).retry = 0) ∧
    (let s := at_ { st := 7 }
     ok s = true ∧ (outGet s 3).since + cy20ms s ≤ s.grat.cycle ∧ diagResult s 3 { z := 400 } false = 0 ∧
       diagResult s 3 { shortLoad := true } false = 4) ∧
    (let s := at_ { st := 3 }
     ok s = true ∧ (outGet s 3).since + softW s ≤ s.grat.cycle) ∧
    (let s := at_ { st := 8 }
     ok s = true ∧ (outGet s 3).since + softW s + cy50ms s ≤ s.grat.cycle) ∧
    (let s := at_ { st := 11 }
     ok s = true ∧ (outGet s 3).stopLen + softW s ≤ s.grat.cycle ∧ (outGet s 3).down = false) ∧
    (let s := at_ { st := 4 }
     ok s = true ∧ (outGet s 3).since + cy10s s ≤ s.grat.cycle) := by decide +kernel

theorem test_meets_OutputFaultCommands :
    let s : State := { rig with grat.cycle := 300000, out.ch := [(3, { st := 4 })] }
    let p : State := { rigPair with grat.cycle := 300000, out.ch := [(3, { st := 4 })] }
    let r := reg 0x401B0C00 0x30000000 s
    (lf s (outBase 3 + 4) 16 8 < 255 ∧ outActive s 3 = true ∧ (outGet s 3).latch = false) ∧
    (outActive p 3 = true ∧ p.pair.role = 1 ∧ pairEn p = true ∧ tget 0 p.out.tripLoc (tripCycle p) = 0) ∧
    ((outGet s 3).dcSince + 12000 ≤ s.grat.cycle ∧ (outGet s 3).dcPend = 0 ∧ fam44 s = false) ∧
    (lb r (outBase 3) 28 = true ∧ lb r (outBase 3) 29 = true ∧ (outGet r 3).rvcAt + famF r ≤ r.grat.cycle) := by
  decide +kernel

theorem test_meets_TdmPortCommands :
    let f : State := reg 0x40192000 1 { rig with ser.tdm := [(2, { running := true, lost := true, outb := [[1]], inb := [[2]] })] }
    let l : State := { rig with
      ser.tdm := [(2, { running := true, stopDue := some 0, maskDue := some 0, outb := [[1]] })],
      ser.rx := [(1, { running := true, audio := true })], ser.tx := [(1, { running := true, stopDue := some 0 })] }
    let g : State := reg 0x40192000 1 { rig with ser.tdm := [(2, { running := true })] }
    ((tdmGet f 2).running = true ∧ tdmFollower f 2 = true ∧ (tdmGet f 2).outb = [[1]] ∧ (tdmGet f 2).lost = true) ∧
    ((tdmGet l 2).running = true ∧ tdmFollower l 2 = false ∧ (tdmGet l 2).stopDue = some 0 ∧ (tdmGet l 2).maskDue = some 0 ∧
      (txGet l 1).stopDue = some 0 ∧ (rxGet l 1).running = true ∧ (rxGet l 1).audio = true) ∧
    ((tdmGet g 2).running = true ∧ tdmFollower g 2 = true ∧ (tdmGet g 2).outb = [] ∧ (tdmGet g 2).lost = false) := by
  decide +kernel

theorem test_meets_AesCommands :
    let at_ (x : AesRx) : State := { rig with ser.rx := [(1, x)] }
    let t : State := { rig with ser.tx := [(1, { running := true })] }
    ((rxGet rig 1).running = false) ∧
    (rxWf (at_ { running := true }) = true ∧ (rxGet (at_ { running := true }) 1).running = true ∧
      (rxGet (at_ { running := true }) 1).lock = false ∧ (rxGet (at_ { running := true }) 1).good < 7) ∧
    (rxWf (at_ { running := true, lock := true }) = true ∧ (rxGet (at_ { running := true, lock := true }) 1).lock = true) ∧
    (rxWf (at_ { running := true, good := 7 }) = true ∧ 7 ≤ (rxGet (at_ { running := true, good := 7 }) 1).good) ∧
    (txGet t 1).running = true := by decide +kernel

theorem test_meets_PortCommands :
    let up : State := { rig with swx.port := [(1, { up := true, paused := true, pauseEnd := 10000000, xoff := true, holdoff := some 7 })] }
    let w : State := reg 0x40090018 0x80000001 { rig with
      swx.port := [(1, { up := true, paused := true, pauseEnd := 10000000 })] }
    let q : State := { rig with
      swx.port := [(1, { up := true, q := [[], [{ bytes := List.replicate 60 0 }], []] })], mem := [(0x30710008, 255), (0x30710009, 255)] }
    let e : State := reg 0x40090014 0 <| reg 0x40090010 2 { rig with
      swx.port := [(1, { up := true, xoff := true }), (2, { q := [[], [], [{ bytes := List.replicate 60 0, src := some 1 }]] })] }
    let n := reg 0x40090000 0x80000001 rig
    (prtAlive n 1 = true ∧ (prtGet n 1).up = false ∧ (prtGet n 1).upDue = false) ∧
    ((prtGet up 1).up = true ∧ (prtGet up 1).paused = true ∧ (prtGet up 1).holdoff = some 7) ∧
    ((prtGet { rig with swx.port := [(1, { upDue := true })] } 1).upDue = true) ∧
    (pickClass q 1 = some (0, 1) ∧ pickClass rig 1 = none) ∧
    (lb e (prtBase 1 + 0x10) 1 = true ∧ lf e (prtBase 1 + 0x14) 0 16 * 1024 < rxOcc e 1) ∧
    ((prtGet w 1).holdoff = none ∧ wdArmed w 1 = true ∧
      ((List.range 1001).find? (fun i => decide (lf w (prtBase 1 + 0x18) 0 10 * 5000 ≤ stopSum (prtGet w 1) (w.time.lc + i * 5000)) &&
        decide (w.time.lc + i * 5000 ≤ (prtGet w 1).pauseEnd + 5000))).isSome = true) := by decide +kernel

theorem test_meets_ReceiveAndRingCommands :
    let up : State := { rig with swx.port := [(1, { up := true })] }
    let fl : State := { up with hub.arr := [(0x30600000, 0x82000005)] }
    let f67 : State := { up with hub.arr := [(0x30600000, 0x92000005)] }
    let own (len : Nat) : State :=
      mStoreW 0x30710004 (2 ^ 31 + len) (reg (ringRegs 1) 0x30710000 (reg (ringRegs 1 + 4) 0x80000010 (reg (ringRegs 1 + 8) 1 up)))
    let mac : List Byte := List.replicate 12 1 ++ [0x88, 0x08] ++ List.replicate 46 0
    let bad : List Byte := eorelFrame up 0 { kind := 7 } [] []
    let aud (n : Nat) : List Byte := eorelFrame up 0 { kind := 0, nch := 1, spc := 1, flow := 5 } [] (List.replicate n 0)
    let oth : List Byte := eorelFrame up 0 { kind := 1 } [] []
    let ptp : List Byte := List.replicate 12 1 ++ [0x88, 0xF7] ++ List.replicate 46 0
    let udp (n : Nat) : List Byte := List.replicate 12 1 ++ [8, 0, 0x45] ++ List.replicate 8 0 ++ [17] ++ List.replicate n 0
    let best : List Byte := List.replicate 60 1
    (prtGet up 1).up = true ∧ domOn up 2 = true ∧ lb up 0x40000118 6 = false ∧ (prtGet rig 1).up = false ∧
    (fType mac = 0x8808) ∧
    (fType bad = swxType up ∧ eorelOk bad (fOff bad) = false) ∧
    (fType (aud 4) = swxType up ∧ eorelOk (aud 4) (fOff (aud 4)) = true ∧ eKind (aud 4) (fOff (aud 4)) = 0 ∧
      flowMatch up (eFlow (aud 4) (fOff (aud 4))) 1 = none) ∧
    (2172 < (aud 2200).length ∧ eorelOk (aud 2200) (fOff (aud 2200)) = true) ∧
    (fType oth = swxType up ∧ eorelOk oth (fOff oth) = true ∧ eKind oth (fOff oth) ≠ 0) ∧
    (fType ptp ≠ swxType up ∧ (ptpOff ptp).isSome = true) ∧
    (ptpOff (udp 60) = none ∧ isUdp4 (udp 60) = true ∧ 2172 < (udp 2200).length) ∧
    (fType best ≠ swxType up ∧ ptpOff best = none ∧ isUdp4 best = false) ∧
    flowMatch fl 5 1 = some 0 ∧ flowMatch67 f67 0 0 1 = some 0 ∧
    (ringSize (own 64) (ringRegs 1) ≠ 0 ∧ (prtGet (own 64) 1).txHead ≠ lf (own 64) (ringRegs 1 + 8) 0 10 ∧
      (prtGet (own 64) 1).txDesc = none ∧ dmaOk (own 64) (ringAddr (own 64) (ringRegs 1) 0) 32 true = true ∧
      bit (wd (mWord (own 64) (ringAddr (own 64) (ringRegs 1) 0 + 4))) 31 = true ∧
      descFrames (own 0) (ringAddr (own 0) (ringRegs 1) 0) false = .error (1, 0)) ∧
    writes rig .host (adjBase 1 + 0x14) = true := by decide +kernel

theorem test_meets_TopologyCommands :
    let hello := eorelFrame rig 0 { kind := 1 } (helloRest rig 1 0) []
    let up : State := reg 0x400D0000 1 { rig with swx.port := [(1, { up := true })] }
    let on : State := { rigPair with
      grat.cycle := 10 ^ 11,
      gaz.db := [{ typ := 0, key := 5, valid := true }, { typ := 2, key := 7, gone := some 1 }], gaz.adj := [(1, { st := 2 })] }
    let big := reg 0x400D0024 1 on
    ((prtGet up 1).up = true ∧ lb up 0x400D0000 0 = true ∧ eorelOk hello (fOff hello) = true ∧ eKind hello (fOff hello) = 1 ∧
      fType hello = swxType up) ∧
    ((adjGet on 1).st ≠ 0 ∧ blockSafe on 13 = false ∧
      (adjGet on 1).heard + lf on 0x400D0000 16 8 * helloCy on ≤ on.grat.cycle) ∧
    (policyOn big = true ∧ dbSize big ≠ 0) ∧
    (dbFind on 0 5 = some { typ := 0, key := 5, valid := true } ∧
      polPar on 2 ≤ recAge on { typ := 0, key := 5, valid := true }) ∧
    (dbFind on 2 7 = some { typ := 2, key := 7, gone := some 1 } ∧ 1 + secCy on (polPar on 3) ≤ on.grat.cycle) := by
  decide +kernel

theorem test_meets_ReservationCommands :
    let hop : RsvHop := { tag := 9, flow := 5, arr := some 0, q := 1, held := true, idx := 1 }
    let src : RsvHop := { tag := 8, flow := 6, arr := none, q := 1, held := true }
    let f : SrcFlow := { flow := 5, tag := 8, oldTag := some 9, msg := some { flow := 5 }, degraded := true }
    let on : State := { rigPair with
      grat.cycle := 10 ^ 9, swx.port := [(0, { up := true })], gaz.rsv := [hop, src], gaz.srcs := [f],
      swx.flow := [(3, { last := some 1 })], hub.arr := [(0x306000C0, 0x80000005)] }
    let own := reg 0x400D0014 0x80000007 on
    let m : RsvMsg := { flow := 5, tag := 9, route := [], dstA := 7, l := 2 }
    (policyOn on = true ∧ (prtGet on 0).up = true) ∧
    (rsvFind on 9 = some hop ∧ rsvFind on 8 = some src) ∧
    (lb own 0x400D0014 31 = true ∧ lf own 0x400D0014 0 14 = m.dstA ∧ m.lat + windowsFor own (prtMode own 0) m.bytes ≤ (m.l - 1) * 64 ∧
      (freeEntry own).isSome = true) ∧
    (hop.since + msCy on (polPar on 4) ≤ on.grat.cycle) ∧
    (nbit (flowW on 3 0) 31 = true ∧ flowSrc on 3 = false ∧ (flowGet on 3).last = some 1 ∧
      msCy on (polPar on 5) < on.grat.cycle - 1) ∧
    (on.gaz.srcs.filter (fun f => f.flow == 5) = [f] ∧ f.moveAt + polPar on 6 ≤ on.grat.cycle) := by decide +kernel

theorem test_meets_LeaseCommands :
    let m : LeaseMsg := { cyc := 5, uid := 0, svb := false }
    let lee : State := { rigPair with pair.role := 2, pair.dl := some 1, pair.step := 2 }
    let form : State := { rigPair with pair.role := 3, pair.link := false, grat.cycle := 10 ^ 6 }
    let win : State := { rigPair with
      pair.acked := true, pair.dw := some 7, pair.own := true, pair.peer := true, pair.bothAt := some 3,
      pair.stuckAt := some 0, grat.cycle := 10 ^ 6 }
    (pairEn rigPair = true ∧ m.uid.toNat = peerUid rigPair ∧ (9 : BitVec 64).toNat ≠ peerUid rigPair) ∧
    (pairEn lee = true ∧ lee.flt.safe = false ∧ lee.pair.peer = false ∧ (claimFrom lee).isSome = true) ∧
    (pairEn form = true ∧ form.pair.peerRose = false ∧
      form.pair.formAt + (if pairSide form then leaseCy form + 3 * guardCy form + 1 else leaseCy form + guardCy form) ≤
        form.grat.cycle) ∧
    (leaseEnd win = some 7 ∧ pairEn win = true ∧ win.pair.overlapped = false ∧ win.pair.stuckErr = false ∧
      leaseCy win ≤ win.grat.cycle) := by decide +kernel

theorem test_meets_PairStreamCommands :
    let lee : State := { rigPair with
      pair.role := 2, pair.step := 3, pair.retryAt := some 0, gaz.adj := [(3, { st := 2 })] }
    let win : State := { rigPair with pair.rphase := 2 }
    let auto := reg 0x400F0020 0x80000004 lee
    (pairEn lee = true ∧ lee.pair.link = true ∧ lee.grat.cycle ≤ 0 + 2 ∧ streamRemote lee = true) ∧
    (0 + 2 < ({ lee with grat.cycle := 3 } : State).grat.cycle) ∧
    ((adjGet lee 3).st = 2 ∧ (adjGet lee 3).nuid = peerUid lee ∧ (0 : BitVec 16).toNat = lf lee pairB 8 16 ∧ pairSide lee = false) ∧
    (pairEn win = true ∧ win.pair.link = true ∧ win.pair.role = 1 ∧ win.pair.snapS ≤ win.grat.cycle ∧
      ∀ c < 4, (clGet win c).psnap = none) ∧
    (lb auto (pairB + 0x20) 2 = true ∧ pairEn auto = true ∧
      psTotal { lee with pair.rphase := 2 } = (0 : Word).toNat) := by decide +kernel

theorem test_meets_ServiceBusCommands :
    let on : State := reg 0x400E0000 0x80000200 rig
    let pair : State := reg 0x400E0004 1 (reg 0x400F0020 0x80000002 (reg 0x400E0000 0x80000200 rigPair))
    let plca : State := reg 0x400E000C 0x0201 (reg 0x400E0000 0x80000001 { rig with svb.plca := true, svb.burst := 1 })
    let f : SvbFrame := { bytes := List.replicate 60 0, priv := false, desc := true }
    let ring : State := reg 0x400E0048 1 (reg 0x400E0044 0x80000010 (reg 0x400E0040 0x100000 { on with
      mem := [(0x100000, 0), (0x100002, 16), (0x100004, 60), (0x100007, 128)] }))
    (on.svb.cur = none ∧ svbEn on = true ∧ svbAlarm on = true ∧ on.svb.win = false ∧ svbBackup on = false) ∧
    (svbEn pair = true ∧ svbAlarm pair = true ∧ svbBackup pair = true ∧ svbPriv pair = true ∧ pair.pair.role = 1) ∧
    (svbPick { on with svb.frame := some f, svb.winNext := 2 } = some f ∧ svbPlca on = false) ∧
    (svbPick { plca with svb.frame := some f } = some f ∧ svbPlca plca = true ∧ svbEn plca = true ∧ svbMode plca = 1 ∧
      lf plca (svbB + 0xC) 0 8 ≠ 0) ∧
    (let r := ringRegs 4
     let a := ringAddr ring r ring.svb.txHead
     ringSize ring r ≠ 0 ∧ ring.svb.txHead ≠ lf ring (r + 8) 0 10 ∧ dmaOk ring a 32 true = true ∧
       nbit (mWord ring (a + 4)) 31 = true ∧ nfld (mWord ring (a + 4)) 0 17 = 60 ∧ nfld (mWord ring (a + 4)) 28 3 = 0 ∧
       dmaOk ring (mWord ring a) 60 false = true) := by decide +kernel

theorem test_meets_HostRequestCommands :
    let low : State := { rig with host.low := true, host.phase := 0, host.enumIn := true }
    let f : HostFrame := { dev := 0x7F, addr := 0, len := 0, data := [], crc := BitVec.ofNat 16 0 }
    let g : HostFrame := { f with crc := BitVec.ofNat 16 (crc16 (frameBytes 4 f)) }
    let owned : State := reg 0x40040000 0x80000005 low
    hostTakes low = true ∧ hostDev low 0x7F = some true ∧ hostDev low 3 = none ∧ hostDev owned 5 = some false ∧
    crc16 (frameBytes 4 f) ≠ f.crc.toNat ∧ crc16 (frameBytes 4 g) = g.crc.toNat ∧ hostTakes rig = false ∧
    hostHeld rig = false := by decide +kernel

theorem test_meets_HostTransactionCommands :
    let low : State := { rig with host.low := true, host.phase := 1 }
    let sleeps : State := { rig with pwr.sleep := 1, pwr.wakeCfg := 1 }
    (rig.host.low = false ∧ low.host.deaf = false ∧ low.host.todo = [] ∧ hostHeld low = false) ∧
    ({ low with host.phase := 0 }.host.phase ≠ 3 ∧ { low with host.phase := 2 }.host.low = true) ∧
    (sleeps.host.low = false ∧ nbit sleeps.pwr.wakeCfg 0 = true ∧ nbit rig.pwr.wakeCfg 0 = false) ∧
    (writes rig .host 0x40040008 = true ∧ writes rig .sup 0x40040014 = true ∧
      writes rig .sup 0x40040018 = true ∧ writes rig .host 0x4004001C = true) := by decide +kernel

theorem test_meets_PowerDomainCommands :
    let q : State := { State.reset with pwr.queue := [2, 3], pwr.vsysBoot := 3300 }
    let tight : State := reg 0x401D0020 10 q
    let full : State := domPut 6 { st := 5, ramp := 250, goal := 3, next := some 1 } (reg 0x401D0020 250 q)
    let down : State := domPut 6 { st := 6, held := 3, goal := 0 } q
    (q.pwr.paused = false ∧ rampUsed q + domRamp q 2 ≤ rampBudget q) ∧
    (rampBudget tight < domRamp tight 2 ∧ rampUsed tight = 0) ∧
    (rampBudget full < rampUsed full + domRamp full 2 ∧ rampUsed full ≠ 0) ∧
    ((domGet full 6).st = 5 ∧ (domGet down 6).st = 6) ∧
    ((3000#16).toNat * 100 < 92 * q.pwr.vsysBoot ∧ 92 * q.pwr.vsysBoot ≤ (3036#16).toNat * 100 ∧
      ({ q with pwr.paused := true } : State).pwr.paused = true) := by decide +kernel

theorem test_meets_SleepAndThermalCommands :
    let lis : State := { rig with pwr.sleep := 1, pwr.wakeCfg := 15, pwr.alarm := 7, swx.port := [(0, { up := true })] }
    let frame : List Byte := [2, 0, 0, 0, 0, 1, 2, 0, 0, 0, 0, 2] ++ beBytes 2 (swxType lis) ++ List.replicate 46 0
    let own : State := reg 0x401D003C 0x80000200 (reg 0x401D0038 1 lis)
    (writes rig .sup 0x401D0030 = true ∧ outInUse rig = false) ∧
    ((0 : Fin 4).val = lf own 0x401D0034 4 2 ∧ (prtGet own 0).up = true ∧ nbit own.pwr.wakeCfg 3 = true ∧
      fType frame = swxType own ∧ wakeDa own (fDa frame) = true) ∧
    (nbit lis.pwr.wakeCfg 1 = true ∧ nbit lis.pwr.wakeCfg 2 = true ∧ lis.pwr.alarm ≠ 0 ∧ rig.pwr.sleep = 0) ∧
    ((1500#16).toInt = 1500 ∧ (1499#16).toInt < 1500) ∧
    (∃ s : State, 1400 ≤ s.pwr.temp ∧ s.pwr.nextStep < 3) ∧
    (∃ s : State, s.pwr.temp ≤ 1350 ∧ thBase s < s.pwr.nextStep) ∧
    (∃ s : State, 1350 < s.pwr.temp ∧ s.pwr.temp < 1400) ∧ (∃ s : State, s.pwr.hotSince = some 0) :=
  by
    refine ⟨by decide +kernel, by decide +kernel, by decide +kernel, by decide +kernel,
      ⟨{ rig with pwr.temp := 1400 }, by decide +kernel⟩,
      ⟨{ rig with pwr.temp := 1350, pwr.nextStep := 1 }, by decide +kernel⟩,
      ⟨{ rig with pwr.temp := 1351 }, by decide +kernel⟩, ⟨{ rig with pwr.hotSince := some 0 }, rfl⟩⟩

theorem test_meets_ResetCommands :
    let open_ : State := reg 0x40030008 1 (reg 0x40020000 1 rig)
    writes rig .host 0x40000008 = true ∧ debugOn open_ = true ∧ debugOn rig = false := by decide +kernel

theorem test_meets_BootCommands :
    let busy : State := { rig with boot.flash := some { opcode := 3, addr := 0, len := 1, buf := 0x100000, read := true } }
    let two : State := { rig with boot.phase := 2 }
    (State.reset.boot.phase = 0 ∧ rig.boot.phase ≠ 0) ∧
    (two.boot.phase = 2 ∧ (tget none two.hub.commits (grpOf two 29)).isNone = true ∧
      ∀ d < 15, lf two (domReg d) 0 2 = 3 → domOn two d = true) ∧
    (writes rig .sup 0x40030014 = true ∧ writes rig .sup 0x40200208 = true ∧ writes rig .sup 0x40030030 = true) ∧
    (lb rig 0x40200108 0 = false ∧ 3000 ≤ ({ rig with pwr.vsys := 3300 } : State).pwr.vsys ∧ ¬ 3000 ≤ rig.pwr.vsys) ∧
    (busy.boot.flash.isSome = true ∧ rig.boot.flash = none) := by decide +kernel

theorem test_meets_FaultCommands :
    let a : FaultRec := { code := 0x0501, cls := 1, inst := 3, arg := 0, cycle := 0, ns := 0 }
    let one : State := { rig with flt.slots := [(1, some a)], flt.queue := [{ a with inst := 4 }], flt.wdogOn := true }
    (writes rig .sup 0x40010030 = true ∧ writes rig .host 0x40010030 = true ∧ writes rig .sup 0x4001000C = true ∧
      writes rig .sup 0x40010044 = true ∧ writes rig .host 0x40200018 = true) ∧
    (curClass rig = none ∧ curClass one = some 1 ∧ one.flt.wdogOn = true) ∧
    (one.flt.slots.find? (fun e => (e.2.map (sameFault a)).getD false) = some (1, some a)) ∧
    (one.flt.slots.find? (fun e => (e.2.map (sameFault { a with inst := 4 })).getD false) = none ∧
      one.flt.queue.any (sameFault { a with inst := 4 }) = true ∧ one.flt.queue.any (sameFault { a with inst := 5 }) = false) ∧
    (∀ c, curClass one = some c → c < ({ a with cls := 2 } : FaultRec).cls) := by
  refine ⟨by decide +kernel, by decide +kernel, by decide +kernel, by decide +kernel, ?_⟩
  intro c h
  have : curClass _ = some 1 := (by decide +kernel : curClass { rig with flt.slots := [(1, some { code := 0x0501, cls := 1, inst := 3, arg := 0, cycle := 0, ns := 0 })], flt.queue := [{ code := 0x0501, cls := 1, inst := 4, arg := 0, cycle := 0, ns := 0 }], flt.wdogOn := true } = some 1)
  have := this.symm.trans h
  injection this with this
  subst this
  decide

theorem test_meets_FunctionResetAndSurveyCommands :
    let job : FrstJob := { fn := 64, defaults := true, start := 0 }
    let work : State := { rig with frst.jobs := [job], srv.busy := true, srv.copy := true }
    (writes rig .sup (0x40000100 + 4 * (2 : Fin 3)) = true ∧ writes rig .sup 0x401E0018 = true ∧
      writes rig .host 0x401E0070 = true ∧ writes rig .sup 0x401E0048 = true) ∧
    (fnOk 64 = true ∧ fnOk 75 = false ∧ lb rig (0x40000110 + 64 / 32 * 4) (64 % 32) = false ∧ domOn rig (fnDom 64) = true) ∧
    (work.frst.jobs.find? (fun j => j.fn == (64 : Fin 75).val) = some job ∧ work.srv.busy = true ∧ work.srv.copy = true) := by
  decide +kernel

end Sys2Proof.Tests
end

section
/-! Proofs. The form of register accesses (R34): which accesses are decode errors, and what a bus access that is one does. -/

namespace Sys2Proof.Machine

/-- A register access of another size or alignment is a decode error, populated or not (R34). -/
theorem badAccess_of_misformed {s : State} {a : Nat} {z : AccSize} (hr : isReg a = true)
    (hz : z ≠ .word ∨ a % 4 ≠ 0) : badAccess s a z = true := by
  have hform : (a % 4 != 0 || z != .word) = true := by
    rcases hz with hsize | halign
    · simp [hsize]
    · simp [halign]
  simp [badAccess, hr, hform]

/-- An aligned word access whose first and last byte decode is no decode error. -/
theorem badAccess_word_of_decodes {s : State} {a : Nat} (halign : a % 4 = 0) (hfirst : decodes s a = true)
    (hlast : decodes s (a + 3) = true) : badAccess s a .word = false := by
  have hend : a + sizeOf .word - 1 = a + 3 := rfl
  simp [badAccess, hend, hfirst, hlast, halign]

/-- A read that the firewall lets through and that is a decode error reads 0 and is recorded. -/
theorem busRead_bad {s : State} {m : Master} {a : Nat} {z : AccSize} (hi : issues s m = true)
    (hf : fwCheck s m a false = none) (hb : badAccess s a z = true) :
    busRead m a z s = (0, decodeErr (masterId m) a false (counted s)) := by
  unfold busRead
  rw [← counted]
  simp [hi, fwCheck_counted, hf, badAccess_counted, hb]

/-- A write that the firewall lets through and that is a decode error is only recorded. -/
theorem busWrite_bad {s : State} {m : Master} {a : Nat} {z : AccSize} (v : Nat) (hi : issues s m = true)
    (hf : fwCheck s m a true = none) (hb : badAccess s a z = true) :
    busWrite m a z v s = decodeErr (masterId m) a true (counted s) := by
  unfold busWrite
  rw [← counted]
  simp [hi, fwCheck_counted, hf, badAccess_counted, hb]

/-- Settles O11: the form alone makes the access a decode error, and the bus answers a decode error the same way
whatever its cause. -/
theorem registerAccessForm : Obligations.RegisterAccessForm := by
  unfold Obligations.RegisterAccessForm
  intro m a z v s hr
  refine ⟨fun hz hi => ?_, badAccess_word_of_decodes⟩
  have hb : badAccess s a z = true := badAccess_of_misformed hr hz
  exact ⟨fun hf => busRead_bad hi hf hb, fun hf => busWrite_bad v hi hf hb⟩

end Sys2Proof.Machine
end

section
/-! Proofs. Locks (R434): whose writes are locked, and what a locked write does. -/

namespace Sys2Proof.Machine

/-- The supervisor is never locked (R434). -/
theorem locked_sup (s : State) (a : Nat) : locked s .sup a = false := by
  simp [locked]

/-- Nothing is locked before the seal (R434). -/
theorem locked_of_not_sealed {s : State} (m : Master) (a : Nat) (hsealed : isSealed s = false) :
    locked s m a = false := by
  simp [locked, hsealed]

/-- A sealed node locks a register write by a master of LOCK_MASTERS, other than the supervisor, to a window whose lock
bit is set (R434). -/
theorem locked_of_lock_bits {s : State} {m : Master} {a : Nat} (hreg : isReg a = true) (hsealed : isSealed s = true)
    (hsup : m ≠ .sup) (hmaster : lb s 0x40020018 (masterId m) = true)
    (hwin : (if winOf a < 32 then lb s 0x40020010 (winOf a) else lb s 0x40020014 0) = true) :
    locked s m a = true := by
  simp [locked, hreg, hsealed, hsup, hmaster, hwin]

/-- A locked write that the firewall and the address map let through, and that R480 does not bar, is counted and
recorded, and does nothing else (R37, R434). -/
theorem busWrite_locked {s : State} {m : Master} {a : Nat} (v : Nat) (hreg : isReg a = true)
    (hissues : issues s m = true) (hfw : fwCheck s m a true = none) (hbad : badAccess s a .word = false)
    (hsrv : winOf a ≠ 30 ∨ srvMay s m true = true) (hlocked : locked s m a = true) :
    busWrite m a .word v s = srvUp 2 1 1 (violation (masterId m) a (counted s)) := by
  have hbar : (winOf a == 30 && !srvMay s m true) = false := by
    rcases hsrv with hwin | hmay
    · simp [hwin]
    · simp [hmay]
  unfold busWrite
  rw [← counted]
  simp [hissues, fwCheck_counted, hfw, badAccess_counted, hbad, pBusy_reg _ a hreg, hreg, srvMay_counted, hbar,
    locked_counted, hlocked]

/-- REGISTER_WRITE of a word is the bus write, with the faults it detected placed. -/
theorem exec_registerWrite_word (m : Master) {a : Nat} (v : Word) (s : State) (ha : a < 2 ^ 32) :
    exec (.registerWrite m (wd a) .word v) s = .next (placed s (busWrite m a .word v.toNat s)) := by
  have haddr : (wd a).toNat = a := by rw [wd, BitVec.toNat_ofNat, Nat.mod_eq_of_lt ha]
  calc exec (.registerWrite m (wd a) .word v) s
      = .next (placed s (busWrite m (wd a).toNat .word v.toNat s)) := rfl
    _ = .next (placed s (busWrite m a .word v.toNat s)) := by rw [haddr]

/-- Settles O12: under the lock bits the write is a locked one, and the bus only records it; the lock takes no part in a
read, and binds neither the supervisor nor anyone before the seal. -/
theorem lockedWritesIgnored : Obligations.LockedWritesIgnored := by
  unfold Obligations.LockedWritesIgnored
  intro m a v s hreg hissues hbad hsrv ha
  refine ⟨fun hsealed hsup hmaster hwin hfw => ?_, busRead_goes, locked_sup s a, locked_of_not_sealed m a⟩
  have hlocked : locked s m a = true := locked_of_lock_bits hreg hsealed hsup hmaster hwin
  rw [exec_registerWrite_word m v s ha, busWrite_locked v.toNat hreg hissues hfw hbad hsrv hlocked]

end Sys2Proof.Machine
end

section
/-! Proofs. The bus masters (R39) and their reset priorities (R468). -/

namespace Sys2Proof.Machine

/-- A register reads its reset value at reset, the cause of the reset apart. -/
theorem lvn_reset {a : Nat} (ha : a ≠ 0x4003001C) : lvn State.reset a = (resetOf a).toNat := by
  have hlive : State.reset.hub.live = [(0x4003001C, 1#32)] := rfl
  simp [lvn, lv, hlive, tabGet, ha]

/-- Every master has an ID below 13 (R39). -/
theorem masterId_lt (m : Master) : masterId m < 13 := by
  cases m <;> simp only [masterId] <;> omega

/-- The IDs below 13 are those of the supervisor, the four stream DMAs, the four clusters' cores, and the four single
masters after them (R39). -/
theorem exists_masterId_eq {i : Nat} (hi : i < 13) : ∃ m, masterId m = i := by
  have hranges : i = 0 ∨ (1 ≤ i ∧ i ≤ 4) ∨ (5 ≤ i ∧ i ≤ 8) ∨ i = 9 ∨ i = 10 ∨ i = 11 ∨ i = 12 := by omega
  obtain rfl | ⟨hlo, hhi⟩ | ⟨hlo, hhi⟩ | rfl | rfl | rfl | rfl := hranges
  · exact ⟨.sup, rfl⟩
  · exact ⟨.dma ⟨i - 1, by omega⟩, Nat.add_sub_of_le hlo⟩
  · exact ⟨.core ⟨i - 5, by omega⟩ 0, Nat.add_sub_of_le hlo⟩
  · exact ⟨.fabric, rfl⟩
  · exact ⟨.host, rfl⟩
  · exact ⟨.debug, rfl⟩
  · exact ⟨.srv, rfl⟩

/-- Settles O13: the priority words read what the table of the bus matrix resets them to, looked up for each kind of
master. -/
theorem busPriorityReset : Obligations.BusPriorityReset := by
  unfold Obligations.BusPriorityReset
  refine ⟨fun m => ?_, masterId_lt, fun _ => exists_masterId_eq⟩
  rw [lvn_reset (by have hid := masterId_lt m; omega)]
  cases m with
  | sup | fabric | host | debug | srv => decide +kernel
  | dma c => revert c; decide +kernel
  | core c j => revert c j; decide +kernel

end Sys2Proof.Machine
end

section
/-! Proofs. The entries of a table: what a read that answers something finds, and what the canonical form says of them. -/

namespace Sys2Proof.Machine

variable {α : Type} {d : Nat → α}

/-- What a key reads as, other than an unlisted one, stands in the table. -/
theorem mem_of_tabGet_ne {m : Tab α} {k : Nat} (h : tabGet d m k ≠ d k) : (k, tabGet d m k) ∈ m := by
  induction m with
  | nil => exact absurd rfl h
  | cons e t ih =>
    obtain ⟨a, v⟩ := e
    by_cases heq : k = a
    · simp [tabGet, heq]
    · by_cases hlt : k < a
      · simp [tabGet, heq, hlt] at h
      · simp only [tabGet, if_neg heq, if_neg hlt] at h ⊢
        exact List.mem_cons_of_mem _ (ih h)

/-- A listed key is not below the bound of the canonical form. -/
theorem le_of_mem_tabWfFrom [DecidableEq α] {m : Tab α} {lo : Nat} (hwf : tabWfFrom d lo m = true) {k : Nat} {v : α}
    (hmem : (k, v) ∈ m) : lo ≤ k := by
  induction m generalizing lo with
  | nil => cases hmem
  | cons e t ih =>
    simp only [tabWfFrom, Bool.and_eq_true, decide_eq_true_eq] at hwf
    obtain ⟨⟨hlo, -⟩, ht⟩ := hwf
    rcases List.mem_cons.mp hmem with rfl | hmem
    · exact hlo
    · have := ih ht hmem; omega

/-- A key of a table in canonical form reads as its entry. -/
theorem tabGet_of_mem [DecidableEq α] {m : Tab α} {lo : Nat} (hwf : tabWfFrom d lo m = true) {k : Nat} {v : α}
    (hmem : (k, v) ∈ m) : tabGet d m k = v := by
  induction m generalizing lo with
  | nil => cases hmem
  | cons e t ih =>
    simp only [tabWfFrom, Bool.and_eq_true, decide_eq_true_eq] at hwf
    obtain ⟨-, ht⟩ := hwf
    rcases List.mem_cons.mp hmem with rfl | hmem
    · simp [tabGet]
    · have hlt : e.1 + 1 ≤ k := le_of_mem_tabWfFrom ht hmem
      rw [tabGet, if_neg (by omega), if_neg (by omega), ih ht hmem]

/-- In a table in canonical form the entries are what the keys read as. -/
theorem tget_eq_some_iff {β : Type} [DecidableEq β] {m : Tab (Option β)} (hwf : tabWf (fun _ => none) m = true)
    {k : Nat} {b : β} : tget none m k = some b ↔ (k, some b) ∈ m := by
  constructor
  · intro hget
    have hmem := mem_of_tabGet_ne (d := fun _ => none) (m := m) (k := k) (by rw [← tget, hget]; simp)
    rwa [← tget, hget] at hmem
  · exact tabGet_of_mem hwf

/-- A value other than an unlisted one is read back, whatever the form of the table. -/
theorem tabGet_tabSet_self_of_ne [DecidableEq α] (m : Tab α) {k : Nat} {v : α} (hv : v ≠ d k) :
    tabGet d (tabSet d m k v) k = v := by
  induction m with
  | nil => simp [tabSet, hv, tabGet]
  | cons e t ih =>
    obtain ⟨a, w⟩ := e
    by_cases hlt : k < a
    · simp [tabSet, hlt, hv, tabGet]
    · by_cases heq : k = a
      · simp [tabSet, heq, heq ▸ hv, tabGet]
      · simpa [tabSet, hlt, heq, tabGet] using ih

end Sys2Proof.Machine
end

section
/-! Proofs. The slots of the fault manager, and the merging of repeated faults (R445). -/

namespace Sys2Proof.Machine

/-- Faults are merged when their CODE, CLASS and INST are equal (R445). -/
theorem sameFault_iff {r q : FaultRec} : sameFault r q = true ↔ q.code = r.code ∧ q.cls = r.cls ∧ q.inst = r.inst := by
  simp only [sameFault, Bool.and_eq_true, beq_iff_eq, and_assoc, eq_comm (a := r.code), eq_comm (a := r.cls),
    eq_comm (a := r.inst)]

/-- The contents of a slot are equal to a fault when they are a record that is. -/
theorem sameFault_getD_iff {r : FaultRec} {o : Option FaultRec} :
    (o.map (sameFault r)).getD false = true ↔ ∃ q, o = some q ∧ sameFault r q = true := by
  cases o <;> simp

@[simp] theorem setSlot_queue (c : Nat) (r : Option FaultRec) (s : State) : (setSlot c r s).flt.queue = s.flt.queue := rfl

/-- What a slot holds after a write of one. -/
theorem slotRec_setSlot {s : State} (hwf : tabWf (fun _ => none) s.flt.slots = true) (c : Nat) (r : Option FaultRec)
    (k : Nat) : slotRec (setSlot c r s) k = if k = c then r else slotRec s k := tget_tset hwf c r k

/-- A fault equal to the record of one slot is merged there (R445). -/
theorem placeFault_of_slot {r q : FaultRec} {s : State} {c : Nat} (hwf : tabWf (fun _ => none) s.flt.slots = true)
    (hq : slotRec s c = some q) (hsame : sameFault r q = true)
    (honly : ∀ k p, slotRec s k = some p → sameFault r p = true → k = c) :
    placeFault r s = srvUp 1 4 1 (setSlot c (some (merged q)) s) := by
  have hmem : (c, some q) ∈ s.flt.slots := (tget_eq_some_iff hwf).mp hq
  obtain ⟨e, hfind⟩ : ∃ e, s.flt.slots.find? (fun e => (e.2.map (sameFault r)).getD false) = some e := by
    rw [← Option.isSome_iff_exists, List.find?_isSome]
    exact ⟨_, hmem, hsame⟩
  obtain ⟨k, o⟩ := e
  have hequal : (o.map (sameFault r)).getD false = true := by simpa only using List.find?_some hfind
  obtain ⟨p, rfl, hp⟩ := sameFault_getD_iff.mp hequal
  have hkp : slotRec s k = some p := (tget_eq_some_iff hwf).mpr (List.mem_of_find?_eq_some hfind)
  obtain rfl : k = c := honly k p hkp hp
  obtain rfl : p = q := Option.some.inj (hkp.symm.trans hq)
  simp only [placeFault, hfind, Option.map_some]

/-- A fault equal to no slot's record but to a waiting one is merged into every waiting record equal to it (R445). -/
theorem placeFault_of_queue {r : FaultRec} {s : State} (hwf : tabWf (fun _ => none) s.flt.slots = true)
    (hslots : ∀ c q, slotRec s c = some q → ¬ sameFault r q = true) (hqueue : ∃ q ∈ s.flt.queue, sameFault r q = true) :
    placeFault r s =
      srvUp 1 4 1 { s with flt.queue := s.flt.queue.map (fun x => if sameFault r x then merged x else x) } := by
  have hfind : s.flt.slots.find? (fun e => (e.2.map (sameFault r)).getD false) = none := by
    rw [List.find?_eq_none]
    intro e hmem he
    obtain ⟨q, hq, hsame⟩ := sameFault_getD_iff.mp he
    exact hslots e.1 q ((tget_eq_some_iff hwf).mpr (hq ▸ hmem)) hsame
  simp only [placeFault, hfind, if_pos (List.any_eq_true.mpr hqueue)]

/-- Settles O8: the search of the slots finds the one slot that holds an equal record, and only where it finds none is
the queue searched. -/
theorem repeatedFaultMerges : Obligations.RepeatedFaultMerges := by
  unfold Obligations.RepeatedFaultMerges
  intro r s hwf
  simp only [← sameFault_iff]
  refine ⟨fun c q hq hsame honly => ?_, fun hslots hqueue => ?_⟩
  · rw [placeFault_of_slot hwf hq hsame honly, srvUp_flt]
    exact ⟨(slotRec_setSlot hwf c _ c).trans (if_pos rfl), fun k hk => (slotRec_setSlot hwf c _ k).trans (if_neg hk), rfl⟩
  · rw [placeFault_of_queue hwf hslots hqueue, srvUp_flt]
    refine ⟨rfl, List.length_map _, fun i q hi => ?_⟩
    constructor <;> intro hq <;> simp [hi, hq, merged]

end Sys2Proof.Machine
end

section
/-! Proofs. Event bits of the live registers (R35): a bit that an event sets reads 1, whatever form the table has. -/

namespace Sys2Proof.Machine

/-- A bit of a word is a bit of its number. -/
theorem nbit_eq_testBit (w i : Nat) : nbit w i = w.testBit i := by
  rw [nbit, Nat.testBit_eq_decide_div_mod_eq, Nat.shiftRight_eq_div_pow]
  rfl

/-- A bit of a word that is set in one of two is set in the bitwise or. -/
theorem bit_or_two_pow (w : Word) {i : Nat} (hi : i < 32) : bit (w ||| wd (2 ^ i)) i = true := by
  have hmask : (wd (2 ^ i)).toNat = 2 ^ i := by
    rw [wd, BitVec.toNat_ofNat, Nat.mod_eq_of_lt (Nat.pow_lt_pow_right (by omega) hi)]
  rw [bit, nbit_eq_testBit, BitVec.toNat_or, hmask, Nat.testBit_or, Nat.testBit_two_pow_self, Bool.or_true]

/-- A live word written to another value than its reset value reads back. -/
theorem lv_setLv_self_of_ne {s : State} {a : Nat} {v : Word} (hv : v ≠ resetOf a) : lv (setLv a v s) a = v :=
  tabGet_tabSet_self_of_ne s.hub.live hv

/-- An event bit that is clear at reset reads 1 once it is set. -/
theorem lb_evOr {s : State} {a i : Nat} (hi : i < 32) (hreset : bit (resetOf a) i = false) :
    lb (evOr a (2 ^ i) s) a i = true := by
  have hset : bit (lv s a ||| wd (2 ^ i)) i = true := bit_or_two_pow (lv s a) hi
  have hne : lv s a ||| wd (2 ^ i) ≠ resetOf a := fun heq => by simp [heq, hreset] at hset
  rw [lb, evOr, lv_setLv_self_of_ne hne, hset]

end Sys2Proof.Machine
end

section
/-! Proofs. FLT.ACK (R446): which record is current, and which becomes current when the current one leaves. -/

namespace Sys2Proof.Machine

/-- A search down a falling list finds nothing that passes above what it answers. -/
theorem find?_eq_false_above {l : List Nat} (hl : l.Pairwise (· > ·)) {p : Nat → Bool} {c k : Nat}
    (hfind : l.find? p = some c) (hk : k ∈ l) (hlt : c < k) : p k = false := by
  obtain ⟨-, before, after, rfl, hbefore⟩ := List.find?_eq_some_iff_append.mp hfind
  rw [List.pairwise_append, List.pairwise_cons] at hl
  obtain ⟨-, ⟨hafter, -⟩, -⟩ := hl
  rcases List.mem_append.mp hk with hk | hk
  · simpa using hbefore k hk
  · rcases List.mem_cons.mp hk with rfl | hk
    · omega
    · have := hafter k hk; omega

/-- A search down a falling list answers the greatest element that passes. -/
theorem find?_eq_some_iff_greatest {l : List Nat} (hl : l.Pairwise (· > ·)) {p : Nat → Bool} {c : Nat} :
    l.find? p = some c ↔ c ∈ l ∧ p c = true ∧ ∀ k ∈ l, c < k → p k = false := by
  refine ⟨fun h => ⟨List.mem_of_find?_eq_some h, List.find?_some h, fun k hk => find?_eq_false_above hl h hk⟩, ?_⟩
  rintro ⟨hmem, hpc, habove⟩
  obtain ⟨j, hj⟩ := Option.isSome_iff_exists.mp (List.find?_isSome.mpr ⟨c, hmem, hpc⟩)
  rcases Nat.lt_trichotomy j c with hlt | rfl | hgt
  · rw [find?_eq_false_above hl hj hmem hlt] at hpc; cases hpc
  · exact hj
  · have hpj := List.find?_some hj
    rw [habove j (List.mem_of_find?_eq_some hj) hgt] at hpj; cases hpj

/-- The classes from FATAL down. -/
theorem mem_classes {k : Nat} : k ∈ [3, 2, 1, 0] ↔ k < 4 := by
  simp only [List.mem_cons, List.not_mem_nil, or_false]; omega

/-- The current record is that of the highest occupied slot (R443). -/
theorem curClass_eq_some_iff {s : State} {c : Nat} :
    curClass s = some c ↔ c < 4 ∧ (slotRec s c).isSome = true ∧ ∀ k < 4, c < k → slotRec s k = none := by
  rw [curClass, find?_eq_some_iff_greatest (by decide)]
  simp only [mem_classes, Option.isSome_eq_false_iff, Option.isNone_iff_eq_none]

/-- An occupied slot has a current record of its class or a higher one. -/
theorem exists_curClass_ge {s : State} {k : Nat} (hk : k < 4) (hrec : (slotRec s k).isSome = true) :
    ∃ c, curClass s = some c ∧ k ≤ c := by
  obtain ⟨c, hc⟩ := Option.isSome_iff_exists.mp
    (List.find?_isSome.mpr ⟨k, mem_classes.mpr hk, hrec⟩ : (curClass s).isSome = true)
  obtain ⟨-, -, habove⟩ := curClass_eq_some_iff.mp hc
  refine ⟨c, hc, Nat.le_of_not_lt fun hlt => ?_⟩
  simp [habove k hk hlt] at hrec

/-- The class of the current record depends on the slots alone. -/
theorem curClass_congr {s t : State} (h : ∀ k, slotRec t k = slotRec s k) : curClass t = curClass s := by
  simp only [curClass, h]

@[simp] theorem slotRec_fltEvent (i : Nat) (s : State) (k : Nat) : slotRec (fltEvent i s) k = slotRec s k := rfl

@[simp] theorem curClass_fltEvent (i : Nat) (s : State) : curClass (fltEvent i s) = curClass s :=
  curClass_congr (slotRec_fltEvent i s)

/-- A bus access that is counted leaves the fault manager alone. -/
theorem counted_flt (s : State) : (counted s).flt = s.flt := srvUp_flt 31 0 1 s

@[simp] theorem slotRec_counted (s : State) (k : Nat) : slotRec (counted s) k = slotRec s k := by
  rw [slotRec, counted_flt, slotRec]

@[simp] theorem curClass_counted (s : State) : curClass (counted s) = curClass s := curClass_congr (slotRec_counted s)

/-- The invariant speaks of the fault manager alone. -/
theorem faultsWf_counted (s : State) : faultsWf (counted s) = faultsWf s := by
  simp only [faultsWf, counted_flt, curClass_counted]

/-- With the slot of class c freed, the current record is the highest of the others. -/
theorem curClass_setSlot_none {s : State} (hwf : tabWf (fun _ => none) s.flt.slots = true) (c : Nat) :
    curClass (setSlot c none s) = [3, 2, 1, 0].find? (fun k => k != c && (slotRec s k).isSome) := by
  have hslots : ∀ k, (slotRec (setSlot c none s) k).isSome = (k != c && (slotRec s k).isSome) := by
    intro k
    rw [slotRec_setSlot hwf]
    by_cases hk : k = c <;> simp [hk]
  simp only [curClass, hslots]

/-- The slots after a fault took its class's slot. -/
theorem slotRec_takeSlot {s : State} (hwf : tabWf (fun _ => none) s.flt.slots = true) (r : FaultRec) (k : Nat) :
    slotRec (takeSlot r s) k = if k = r.cls then some r else slotRec s k := slotRec_setSlot hwf r.cls (some r) k

/-- A fault that outranks every record in a slot is current in its own slot. -/
theorem curClass_takeSlot {s : State} {r : FaultRec} (hwf : tabWf (fun _ => none) s.flt.slots = true) (hr : r.cls < 4)
    (habove : ∀ k, curClass s = some k → k < r.cls) : curClass (takeSlot r s) = some r.cls := by
  refine curClass_eq_some_iff.mpr ⟨hr, by simp [slotRec_takeSlot hwf], fun k hk hlt => ?_⟩
  rw [slotRec_takeSlot hwf, if_neg (by omega), ← Option.not_isSome_iff_eq_none]
  intro hrec
  obtain ⟨j, hj, hle⟩ := exists_curClass_ge hk hrec
  have := habove j hj
  omega

/-- FLT.EVENT.NEW is set when a record becomes current. -/
theorem lb_fltEvent_new (s : State) : lb (fltEvent 0 s) 0x40010004 0 = true :=
  lb_evOr (by omega) (by decide +kernel)

/-- FLT_ACK that goes through is the acknowledgement, once the access is counted. -/
theorem exec_fltAck {m : Master} {s : State} (h : writes s m 0x4001000C = true) :
    exec (.fltAck m) s = .next (placed s (faultAck (counted s))) := by
  have hstrobe : regWrite m 0x4001000C 1 (counted s) = faultAck (counted s) :=
    regWrite_strobe m 0x4001000C 1 (counted s) ⟨by decide +kernel, by decide, by decide⟩
  calc exec (.fltAck m) s = .next (placed s (busWrite m 0x4001000C .word 1 s)) := rfl
    _ = .next (placed s (faultAck (counted s))) := by rw [busWrite_goes 1 h]; exact congrArg _ (congrArg _ hstrobe)

/-- With no current record there is nothing to acknowledge (R446). -/
theorem faultAck_of_none {s : State} (hcur : curClass s = none) : faultAck s = s := by
  simp only [faultAck, hcur]

/-- A queued record that outranks every suspended one takes its class's slot (R446). -/
theorem faultAck_of_queued {s : State} {c : Nat} {q : FaultRec} {rest : List FaultRec} (hcur : curClass s = some c)
    (hqueue : s.flt.queue = q :: rest) (habove : ∀ k, curClass (setSlot c none s) = some k → k < q.cls) :
    faultAck s = takeSlot q { setSlot c none s with flt.queue := rest } := by
  cases hleft : curClass (setSlot c none s) with
  | none => simp only [faultAck, hcur, hleft, setSlot_queue, hqueue]
  | some k =>
    have hk : ¬ q.cls ≤ k := Nat.not_le.mpr (habove k hleft)
    simp only [faultAck, hcur, hleft, setSlot_queue, hqueue, if_neg hk]

/-- A suspended record that no queued one outranks resumes (R446). -/
theorem faultAck_of_suspended {s : State} {c k : Nat} (hcur : curClass s = some c)
    (hleft : curClass (setSlot c none s) = some k) (hhead : ∀ q, s.flt.queue.head? = some q → q.cls ≤ k) :
    faultAck s = fltEvent 0 (setSlot c none s) := by
  cases hqueue : s.flt.queue with
  | nil => simp only [faultAck, hcur, hleft, setSlot_queue, hqueue]
  | cons q rest =>
    have hq : q.cls ≤ k := hhead q (by rw [hqueue, List.head?_cons])
    simp only [faultAck, hcur, hleft, setSlot_queue, hqueue, if_pos hq]

/-- With nothing suspended and nothing queued, no record is current afterwards (R446). -/
theorem faultAck_of_last {s : State} {c : Nat} (hcur : curClass s = some c)
    (hleft : curClass (setSlot c none s) = none) (hqueue : s.flt.queue = []) : faultAck s = setSlot c none s := by
  simp only [faultAck, hcur, hleft, setSlot_queue, hqueue]

/-- The slots of an ordered fault manager are in canonical form. -/
theorem tabWf_slots_of_faultsWf {s : State} (hwf : faultsWf s = true) : tabWf (fun _ => none) s.flt.slots = true := by
  simp only [faultsWf, Bool.and_eq_true, and_assoc] at hwf
  obtain ⟨hslots, -⟩ := hwf
  exact hslots

/-- In an ordered fault manager no waiting fault outranks the current record. -/
theorem cls_le_of_faultsWf {s : State} {c : Nat} {q : FaultRec} (hwf : faultsWf s = true) (hcur : curClass s = some c)
    (hq : q ∈ s.flt.queue) : q.cls ≤ c := by
  simp only [faultsWf, Bool.and_eq_true] at hwf
  obtain ⟨⟨-, hqueue⟩, -⟩ := hwf
  simpa [hcur] using List.all_eq_true.mp hqueue q hq

/-- Where the head of the queue outranks what is suspended, it is current after FLT.ACK, in its class's slot (R446). -/
theorem faultAck_queued {s : State} {c : Nat} {q : FaultRec} {rest : List FaultRec} (hwf : faultsWf s = true)
    (hcur : curClass s = some c) (hqueue : s.flt.queue = q :: rest)
    (habove : ∀ k, curClass (setSlot c none s) = some k → k < q.cls) :
    curClass (faultAck s) = some q.cls ∧ slotRec (faultAck s) q.cls = some q ∧ (faultAck s).flt.queue = rest ∧
      (q.cls ≠ c → slotRec (faultAck s) c = none) ∧ lb (faultAck s) 0x40010004 0 = true := by
  have hslots := tabWf_slots_of_faultsWf hwf
  have hfreed : tabWf (fun _ => none) (setSlot c none s).flt.slots = true := tabWf_tset hslots c none
  have hcls : q.cls < 4 := by
    have hle : q.cls ≤ c := cls_le_of_faultsWf hwf hcur (by simp [hqueue])
    have hc : c < 4 := (curClass_eq_some_iff.mp hcur).1
    omega
  rw [faultAck_of_queued hcur hqueue habove]
  refine ⟨curClass_takeSlot hfreed hcls habove, (slotRec_takeSlot hfreed q q.cls).trans (if_pos rfl), rfl, fun hne => ?_,
    lb_fltEvent_new _⟩
  calc slotRec (takeSlot q { setSlot c none s with flt.queue := rest }) c
      = slotRec (setSlot c none s) c := (slotRec_takeSlot hfreed q c).trans (if_neg hne.symm)
    _ = none := (slotRec_setSlot hslots c none c).trans (if_pos rfl)

/-- Where a suspended record is not outranked, it is current after FLT.ACK, and the queue stands (R446). -/
theorem faultAck_suspended {s : State} {c k : Nat} (hwf : faultsWf s = true) (hcur : curClass s = some c)
    (hleft : curClass (setSlot c none s) = some k) (hhead : ∀ q, s.flt.queue.head? = some q → q.cls ≤ k) :
    curClass (faultAck s) = some k ∧ slotRec (faultAck s) k = slotRec s k ∧ (faultAck s).flt.queue = s.flt.queue ∧
      slotRec (faultAck s) c = none ∧ lb (faultAck s) 0x40010004 0 = true := by
  have hslots := tabWf_slots_of_faultsWf hwf
  have hfreed : slotRec (setSlot c none s) c = none := (slotRec_setSlot hslots c none c).trans (if_pos rfl)
  have hne : k ≠ c := by
    rintro rfl
    obtain ⟨-, hrec, -⟩ := curClass_eq_some_iff.mp hleft
    simp [hfreed] at hrec
  rw [faultAck_of_suspended hcur hleft hhead, curClass_fltEvent]
  exact ⟨hleft, (slotRec_setSlot hslots c none k).trans (if_neg hne), rfl, hfreed, lb_fltEvent_new _⟩

/-- Settles O9: the current record of what is left is what the search past the current class finds; it and the head of
the queue tell the three ways apart in which an acknowledgement ends. -/
theorem acknowledgedFaultLeaves : Obligations.AcknowledgedFaultLeaves := by
  unfold Obligations.AcknowledgedFaultLeaves
  intro m s hwrites hwf
  refine ⟨faultAck (counted s), exec_fltAck hwrites, ?_⟩
  rw [← faultsWf_counted] at hwf
  simp only [← curClass_counted s, ← slotRec_counted s, ← counted_flt s]
  generalize counted s = t at hwf ⊢
  refine ⟨faultAck_of_none, fun c hcur => ?_⟩
  simp only [← curClass_setSlot_none (tabWf_slots_of_faultsWf hwf) c]
  refine ⟨fun q rest => faultAck_queued hwf hcur, fun k => faultAck_suspended hwf hcur, fun hleft hqueue => ?_⟩
  rw [faultAck_of_last hcur hleft hqueue]
  exact ⟨hleft, hqueue⟩

end Sys2Proof.Machine
end

section
/-! Proofs. The form of a step, and the end of every command: which faults are placed, and what placing them leaves. -/

namespace Sys2Proof.Machine

/-- Every command ends by placing the faults of an effect on the state it found. -/
theorem exec_eq_finish (c : Instr) (s : State) : ∃ u, exec c s = finish s u := by
  cases c <;> exact ⟨_, rfl⟩

/-- Settles O1: the step looks at the front of the queue only. -/
theorem frontCommandRuns : Obligations.FrontCommandRuns := by
  unfold Obligations.FrontCommandRuns
  exact fun _ _ _ => rfl

/-- Settles O2: the empty queue is the one case of a step that runs no command. -/
theorem idleStepCounts : Obligations.IdleStepCounts := by
  unfold Obligations.IdleStepCounts
  intro s hempty
  simp only [step, hempty]

/-- Settles O3: the end of every command puts the queue back. -/
theorem everyCommandAnswers : Obligations.EveryCommandAnswers := by
  unfold Obligations.EveryCommandAnswers
  intro c s
  obtain ⟨u, hu⟩ := exec_eq_finish c s
  exact ⟨placed s u, hu, rfl⟩

/-- Settles O4: with nothing detected the rounds of placement end at once, and no round touches a unit that `Keeps` lists. -/
theorem placementFrame : Obligations.PlacementFrame := by
  unfold Obligations.PlacementFrame
  intro s u
  refine ⟨fun hfresh => ?_, ?_⟩
  · simp only [placed, settle, settleRun_quiet 3 u hfresh]
  · have hkeeps := settleRun_keeps 3 u
    exact ⟨hkeeps.time, hkeeps.grat, hkeeps.cmp, hkeeps.mem, hkeeps.eccBad, hkeeps.rdata, hkeeps.mix, hkeeps.eqs,
      hkeeps.str, hkeeps.sil, hkeeps.core, hkeeps.cl, hkeeps.sup, hkeeps.pwr, hkeeps.out, hkeeps.ser, hkeeps.gaz,
      hkeeps.boot, hkeeps.host, hkeeps.frst, congrArg (· + 1) hkeeps.free, rfl⟩

/-- Settles O6: the reset state is one closed value. -/
theorem resetHoldsInvariants : Obligations.ResetHoldsInvariants := by
  unfold Obligations.ResetHoldsInvariants
  decide +kernel

end Sys2Proof.Machine
end

section
/-! Proofs. What the pair controller does when a FATAL fault makes the node safe (R454): it may detect more faults, and
leaves those in handling as they are. -/

namespace Sys2Proof.Machine

/-- The faults in handling and the safe state are the same in both states. -/
structure SameHandling (s t : State) : Prop where
  slots : t.flt.slots = s.flt.slots
  queue : t.flt.queue = s.flt.queue
  safe : t.flt.safe = s.flt.safe

theorem SameHandling.of_flt {s t : State} (h : t.flt = s.flt) : SameHandling s t := ⟨by rw [h], by rw [h], by rw [h]⟩

theorem SameHandling.trans {s t u : State} (h : SameHandling s t) (g : SameHandling t u) : SameHandling s u :=
  ⟨g.slots.trans h.slots, g.queue.trans h.queue, g.safe.trans h.safe⟩

theorem SameHandling.raise (code cls i arg : Nat) (s : State) : SameHandling s (raise code cls i arg s) := ⟨rfl, rfl, rfl⟩

theorem SameHandling.slotRec {s t : State} (h : SameHandling s t) (k : Nat) : slotRec t k = slotRec s k := by
  simp only [Machine.slotRec, h.slots]

theorem SameHandling.curClass {s t : State} (h : SameHandling s t) : curClass t = curClass s := curClass_congr h.slotRec

@[simp] theorem txOwn_flt (p c : Nat) (f : TxFrame) (s : State) : (txOwn p c f s).flt = s.flt := by
  unfold txOwn; dsimp only; (repeat' split) <;> rfl

@[simp] theorem stateSend_flt (sub cyc a b : Nat) (l : List Byte) (due : Nat) (s : State) :
    (stateSend sub cyc a b l due s).flt = s.flt := txOwn_flt ..

@[simp] theorem leaseSend_flt (op cyc : Nat) (s : State) : (leaseSend op cyc s).flt = s.flt := txOwn_flt ..

@[simp] theorem relinquishSend_flt (s : State) : (relinquishSend s).flt = s.flt := by
  unfold relinquishSend; dsimp only; split <;> simp

@[simp] theorem setRole_flt (r : Nat) (s : State) : (setRole r s).flt = s.flt := by
  unfold setRole; split <;> rfl

@[simp] theorem dropOwn_flt (s : State) : (dropOwn s).flt = s.flt := by
  unfold dropOwn; split <;> rfl

/-- Leaving the step state other than by an error of the leeward detects nothing. -/
@[simp] theorem outOfStep_false_flt (s : State) : (outOfStep false s).flt = s.flt := by
  simp [outOfStep, whenS, pairEvent]

theorem resyncFail_sameHandling (s : State) : SameHandling s (resyncFail s) := by
  unfold resyncFail
  split
  · exact .of_flt rfl
  · dsimp only
    split <;> exact ⟨by simp [pairRaise, Machine.raise, pairEvent], by simp [pairRaise, Machine.raise, pairEvent],
      by simp [pairRaise, Machine.raise, pairEvent]⟩

theorem toRole_sameHandling (r : Nat) (s : State) : SameHandling s (toRole r s) := by
  unfold toRole
  split
  · exact (resyncFail_sameHandling s).trans (.of_flt (setRole_flt ..))
  · exact .of_flt (setRole_flt ..)

theorem pairSafe_sameHandling (s : State) : SameHandling s (pairSafe s) := by
  unfold pairSafe
  split
  · exact .of_flt rfl
  · have hown : SameHandling s (if s.pair.own then relinquishSend (dropOwn s) else s) := .of_flt (by split <;> simp)
    dsimp only
    generalize (if s.pair.own then relinquishSend (dropOwn s) else s) = t at hown ⊢
    have hrole := hown.trans (toRole_sameHandling 2 t)
    split
    · exact hrole
    · exact hrole.trans (.of_flt (outOfStep_false_flt _))

/-- Once safe, the node does not enter its safe state again. -/
theorem enterSafe_of_safe {s : State} (h : s.flt.safe = true) : enterSafe s = s := if_pos h

theorem enterSafe_slots (s : State) : (enterSafe s).flt.slots = s.flt.slots := by
  unfold enterSafe
  split
  · rfl
  · exact (pairSafe_sameHandling _).slots

theorem enterSafe_queue (s : State) : (enterSafe s).flt.queue = s.flt.queue := by
  unfold enterSafe
  split
  · rfl
  · exact (pairSafe_sameHandling _).queue

@[simp] theorem enterSafe_safe (s : State) : (enterSafe s).flt.safe = true := by
  unfold enterSafe
  split
  · assumption
  · exact (pairSafe_sameHandling _).safe

end Sys2Proof.Machine
end

section
/-! Proofs. No detected fault waits after a step (R444, R447): placing a fault detects another only where it makes the
node safe, which happens once. -/

namespace Sys2Proof.Machine

/-- Nothing was detected on the way from `s` to `t`, or the node became safe. -/
def detectsOnlySafe (s t : State) : Prop :=
  (t.flt.fresh = s.flt.fresh ∧ t.flt.safe = s.flt.safe) ∨ (s.flt.safe = false ∧ t.flt.safe = true)

theorem detectsOnlySafe_trans {s t u : State} (h : detectsOnlySafe s t) (g : detectsOnlySafe t u) : detectsOnlySafe s u := by
  unfold detectsOnlySafe at *
  rcases h with ⟨hf, hs⟩ | ⟨hs, ht⟩
  · rwa [← hf, ← hs]
  · rcases g with ⟨-, hu⟩ | ⟨hn, -⟩
    · exact .inr ⟨hs, hu.trans ht⟩
    · rw [ht] at hn; cases hn

@[simp] theorem faultDrop_fresh (c : Nat) (s : State) : (faultDrop c s).flt.fresh = s.flt.fresh := by
  simp [faultDrop, fltEvent]

@[simp] theorem faultDrop_safe (c : Nat) (s : State) : (faultDrop c s).flt.safe = s.flt.safe := by
  simp [faultDrop, fltEvent]

theorem queueJoin_fresh (r : FaultRec) (s : State) :
    (queueJoin r s).flt.fresh = s.flt.fresh ∧ (queueJoin r s).flt.safe = s.flt.safe := by
  unfold queueJoin
  dsimp only
  (repeat' split) <;> simp

theorem placeFault_fresh (r : FaultRec) (s : State) :
    (placeFault r s).flt.fresh = s.flt.fresh ∧ (placeFault r s).flt.safe = s.flt.safe := by
  unfold placeFault
  split
  · simp [setSlot]
  · split
    · simp
    · split
      · exact ⟨rfl, rfl⟩
      · split
        · exact ⟨rfl, rfl⟩
        · exact queueJoin_fresh r s

theorem zephyrLog_fresh (r : FaultRec) (s : State) :
    (zephyrLog r s).flt.fresh = s.flt.fresh ∧ (zephyrLog r s).flt.safe = s.flt.safe := by
  unfold zephyrLog; split <;> simp

@[simp] theorem hostFault_flt (r : FaultRec) (s : State) : (hostFault r s).flt = s.flt := by
  unfold hostFault whenS; split <;> simp

theorem takeFault_detectsOnlySafe (r : FaultRec) (s : State) : detectsOnlySafe s (takeFault r s) := by
  obtain ⟨hpf, hps⟩ := placeFault_fresh r (hostFault r (zephyrLog r (srvUp 1 r.cls 1 s)))
  obtain ⟨hzf, hzs⟩ := zephyrLog_fresh r (srvUp 1 r.cls 1 s)
  rw [hostFault_flt, hzf, srvUp_flt] at hpf
  rw [hostFault_flt, hzs, srvUp_flt] at hps
  have hplaced : detectsOnlySafe s (placeFault r (hostFault r (zephyrLog r (srvUp 1 r.cls 1 s)))) := .inl ⟨hpf, hps⟩
  unfold takeFault
  dsimp only
  split
  · cases hsafe : s.flt.safe with
    | true => rwa [enterSafe_of_safe (hps.trans hsafe)]
    | false => exact .inr ⟨hsafe, enterSafe_safe _⟩
  · exact hplaced

theorem takeFaults_detectsOnlySafe (l : List FaultRec) (s : State) : detectsOnlySafe s (foldS l takeFault s) := by
  unfold foldS
  induction l generalizing s with
  | nil => exact .inl ⟨rfl, rfl⟩
  | cons r l ih => exact detectsOnlySafe_trans (takeFault_detectsOnlySafe r s) (ih _)

/-- One round of placement leaves nothing waiting, or has made the node safe. -/
theorem settleRound_fresh (l : List FaultRec) (s : State) :
    (foldS l takeFault { s with flt.fresh := [] }).flt.fresh = [] ∨
      (s.flt.safe = false ∧ (foldS l takeFault { s with flt.fresh := [] }).flt.safe = true) := by
  rcases takeFaults_detectsOnlySafe l { s with flt.fresh := [] } with ⟨hfresh, -⟩ | hsafe
  · exact .inl hfresh
  · exact .inr hsafe

/-- Two rounds of placement leave nothing waiting: the second finds the node safe. -/
theorem settleRun_fresh (n : Nat) (s : State) : (settleRun (n + 2) s).flt.fresh = [] := by
  have hdone : ∀ t : State, t.flt.fresh = [] → ∀ m, (settleRun m t).flt.fresh = [] := fun t ht m => by
    rw [settleRun_quiet m t ht, ht]
  by_cases hs : s.flt.fresh = []
  · exact hdone s hs _
  · rw [settleRun, if_neg (by simpa using hs)]
    generalize ht : foldS _ takeFault { s with flt.fresh := [] } = t
    have hround := settleRound_fresh (s.flt.fresh.foldl (fun l r => faultIns r l) []) s
    rw [ht] at hround
    rcases hround with hnone | ⟨-, hsafe⟩
    · exact hdone t hnone _
    · by_cases htf : t.flt.fresh = []
      · exact hdone t htf _
      · rw [settleRun, if_neg (by simpa using htf)]
        refine hdone _ ?_ _
        rcases settleRound_fresh (t.flt.fresh.foldl (fun l r => faultIns r l) []) t with hnone | ⟨hn, -⟩
        · exact hnone
        · rw [hsafe] at hn; cases hn

/-- Nothing detected waits where a command ends. -/
theorem quiet_placed (s u : State) : quiet (placed s u) = true := by
  have hfresh : (placed s u).flt.fresh = [] := settleRun_fresh 1 u
  rw [quiet, hfresh, List.isEmpty_nil]

/-- Settles O5: a command ends with its faults placed, in two rounds at most; the idle step detects nothing. -/
theorem everyCommandPlacesItsFaults : Obligations.EveryCommandPlacesItsFaults := by
  unfold Obligations.EveryCommandPlacesItsFaults
  intro s t hquiet hstep
  cases hqueue : s.pending with
  | nil =>
    rw [idleStepCounts s hqueue] at hstep
    cases hstep
    exact hquiet
  | cons c rest =>
    obtain ⟨u, hu⟩ := exec_eq_finish c { s with pending := rest }
    have hexec : step s = exec c { s with pending := rest } := by simp only [step, hqueue]
    rw [hexec, hu, finish_placed] at hstep
    cases hstep
    exact quiet_placed _ _

end Sys2Proof.Machine
end

section
/-! Proofs. The fault manager keeps its order (R443, R444, R446, R448, R454). -/

namespace Sys2Proof.Machine

/-- No entry of a canonical table holds what an unlisted key reads as. -/
theorem ne_default_of_mem_tabWfFrom {α : Type} [DecidableEq α] {d : Nat → α} {m : Tab α} {lo : Nat}
    (hwf : tabWfFrom d lo m = true) {k : Nat} {v : α} (hmem : (k, v) ∈ m) : v ≠ d k := by
  induction m generalizing lo with
  | nil => cases hmem
  | cons e t ih =>
    simp only [tabWfFrom, Bool.and_eq_true, decide_eq_true_eq] at hwf
    obtain ⟨⟨-, hne⟩, ht⟩ := hwf
    rcases List.mem_cons.mp hmem with rfl | hmem
    · exact hne
    · exact ih ht hmem

/-- The queue is in service order when no record stands after one of a lower class. -/
theorem queueSorted_iff {l : List FaultRec} : queueSorted l = true ↔ l.Pairwise (fun x y => y.cls ≤ x.cls) := by
  induction l with
  | nil => simp [queueSorted]
  | cons x t ih =>
    cases t with
    | nil => simp [queueSorted]
    | cons y t =>
      rw [queueSorted, Bool.and_eq_true, decide_eq_true_eq, ih]
      refine ⟨fun ⟨hle, htail⟩ => List.pairwise_cons.mpr ⟨fun z hz => ?_, htail⟩, fun h => ?_⟩
      · rcases List.mem_cons.mp hz with rfl | hz
        · exact hle
        · exact (List.rel_of_pairwise_cons htail hz).trans hle
      · exact ⟨List.rel_of_pairwise_cons h (by simp), h.of_cons⟩

/-- What `faultsWf` says, the FATAL clause apart, in terms of the slots' records. -/
structure HandlingWf (s : State) : Prop where
  slots : tabWf (fun _ => none) s.flt.slots = true
  own : ∀ c r, slotRec s c = some r → c < 4 ∧ r.cls = c
  short : s.flt.queue.length ≤ 16
  sorted : s.flt.queue.Pairwise (fun x y => y.cls ≤ x.cls)
  below : ∀ q ∈ s.flt.queue, ∃ c, curClass s = some c ∧ q.cls ≤ c

/-- Every listed entry of a canonical slot table is the record of its slot. -/
theorem slots_all_iff {s : State} (hwf : tabWf (fun _ => none) s.flt.slots = true) :
    s.flt.slots.all (fun e => decide (e.1 < 4) && e.2.any (fun r => r.cls == e.1)) = true ↔
      ∀ c r, slotRec s c = some r → c < 4 ∧ r.cls = c := by
  simp only [List.all_eq_true, Bool.and_eq_true, decide_eq_true_eq]
  constructor
  · intro h c r hrec
    obtain ⟨hc, hr⟩ := h _ ((tget_eq_some_iff hwf).mp hrec)
    exact ⟨hc, by simpa using hr⟩
  · rintro h ⟨c, o⟩ hmem
    cases o with
    | none => exact absurd rfl (ne_default_of_mem_tabWfFrom hwf hmem)
    | some r =>
      obtain ⟨hc, hr⟩ := h c r ((tget_eq_some_iff hwf).mpr hmem)
      exact ⟨hc, by simpa using hr⟩

theorem faultsWf_iff {s : State} :
    faultsWf s = true ↔ HandlingWf s ∧ (s.flt.safe = true ∨ curClass s ≠ some 3) := by
  simp only [faultsWf, Bool.and_eq_true, Bool.or_eq_true, decide_eq_true_eq, bne_iff_ne, queueSorted_iff]
  constructor
  · rintro ⟨⟨⟨⟨⟨hslots, hown⟩, hshort⟩, hsorted⟩, hbelow⟩, hfatal⟩
    refine ⟨⟨hslots, (slots_all_iff hslots).mp hown, hshort, hsorted, fun q hq => ?_⟩, hfatal⟩
    simpa [Option.any_eq_true] using List.all_eq_true.mp hbelow q hq
  · rintro ⟨⟨hslots, hown, hshort, hsorted, hbelow⟩, hfatal⟩
    refine ⟨⟨⟨⟨⟨hslots, (slots_all_iff hslots).mpr hown⟩, hshort⟩, hsorted⟩, List.all_eq_true.mpr fun q hq => ?_⟩, hfatal⟩
    simpa [Option.any_eq_true] using hbelow q hq

/-- The order speaks of the slots and the queue alone. -/
theorem HandlingWf.congr {s t : State} (h : HandlingWf s) (hslots : t.flt.slots = s.flt.slots)
    (hqueue : t.flt.queue = s.flt.queue) : HandlingWf t := by
  have hrec : ∀ k, slotRec t k = slotRec s k := fun k => by simp only [slotRec, hslots]
  refine ⟨hslots ▸ h.slots, fun c r => hrec c ▸ h.own c r, hqueue ▸ h.short, hqueue ▸ h.sorted, fun q hq => ?_⟩
  rw [curClass_congr hrec]
  exact h.below q (hqueue ▸ hq)

theorem mem_queueIns {r q : FaultRec} {l : List FaultRec} : q ∈ queueIns r l ↔ q = r ∨ q ∈ l := by
  induction l with
  | nil => simp [queueIns]
  | cons x t ih =>
    unfold queueIns
    split
    · simp
    · simp only [List.mem_cons, ih, or_left_comm]

theorem length_queueIns (r : FaultRec) (l : List FaultRec) : (queueIns r l).length = l.length + 1 := by
  induction l with
  | nil => rfl
  | cons x t ih => unfold queueIns; split <;> simp [ih]

/-- A record joins the queue in service order (R444). -/
theorem sorted_queueIns (r : FaultRec) {l : List FaultRec} (h : l.Pairwise (fun x y => y.cls ≤ x.cls)) :
    (queueIns r l).Pairwise (fun x y => y.cls ≤ x.cls) := by
  induction l with
  | nil => simp [queueIns]
  | cons x t ih =>
    obtain ⟨hx, ht⟩ := List.pairwise_cons.mp h
    unfold queueIns
    split
    · refine List.pairwise_cons.mpr ⟨fun y hy => ?_, h⟩
      rcases List.mem_cons.mp hy with rfl | hy
      · omega
      · have := hx y hy; omega
    · refine List.pairwise_cons.mpr ⟨fun y hy => ?_, ih ht⟩
      rcases mem_queueIns.mp hy with rfl | hy
      · omega
      · exact hx y hy

/-- What the search for the newest record below FATAL answers stands in the queue. -/
theorem mem_of_newestLow {l : List FaultRec} {x : FaultRec} (h : newestLow l = some x) : x ∈ l := by
  refine List.foldlRecOn (motive := fun a => ∀ y, a = some y → y ∈ l) _ _ (by simp) (fun a ha z hz y hy => ?_) x h
  have hzl : z ∈ l := List.mem_of_mem_filter hz
  cases a with
  | none => cases hy; exact hzl
  | some w =>
    dsimp only at hy
    split at hy
    · cases hy; exact hzl
    · exact ha y hy

@[simp] theorem faultDrop_slots (c : Nat) (s : State) : (faultDrop c s).flt.slots = s.flt.slots := by
  simp [faultDrop, fltEvent]

@[simp] theorem faultDrop_queue (c : Nat) (s : State) : (faultDrop c s).flt.queue = s.flt.queue := by
  simp [faultDrop, fltEvent]

@[simp] theorem queueJoin_slots (r : FaultRec) (s : State) : (queueJoin r s).flt.slots = s.flt.slots := by
  unfold queueJoin; dsimp only; (repeat' split) <;> simp

/-- The queue after a fault joined it: as it was, or with the fault in a queue of which nothing or one record was
dropped to make room (R444, R448). -/
theorem queueJoin_queue (r : FaultRec) (s : State) :
    (queueJoin r s).flt.queue = s.flt.queue ∨
      ∃ l : List FaultRec, l.Sublist s.flt.queue ∧ (s.flt.queue.length ≤ 16 → l.length < 16) ∧
        (queueJoin r s).flt.queue = queueIns { r with seq := s.flt.arrivals } l := by
  unfold queueJoin
  dsimp only
  split
  · exact .inr ⟨s.flt.queue, List.Sublist.refl _, fun _ => by assumption, rfl⟩
  · split
    · split
      · rename_i x hx
        refine .inr ⟨_, List.filter_sublist (p := fun y => y.seq != x.seq), fun hlen => ?_, by simp⟩
        have hlt : (s.flt.queue.filter (fun y => y.seq != x.seq)).length < s.flt.queue.length :=
          List.length_filter_lt_length_iff_exists.mpr ⟨x, mem_of_newestLow hx, by simp⟩
        omega
      · exact .inl (by simp)
    · exact .inl (by simp)

/-- A fault that does not outrank the current record keeps the order. -/
theorem queueJoin_wf {r : FaultRec} {s : State} {c : Nat} (h : HandlingWf s) (hcur : curClass s = some c)
    (hle : r.cls ≤ c) : HandlingWf (queueJoin r s) := by
  rcases queueJoin_queue r s with hq | ⟨l, hsub, hlen, hq⟩
  · exact h.congr (queueJoin_slots r s) hq
  · have hrec : ∀ k, slotRec (queueJoin r s) k = slotRec s k := fun k => by simp only [slotRec, queueJoin_slots]
    have hlt := hlen h.short
    refine ⟨(queueJoin_slots r s).symm ▸ h.slots, fun c r => hrec c ▸ h.own c r, ?_, ?_, fun q hmem => ?_⟩
    · rw [hq, length_queueIns]; omega
    · rw [hq]; exact sorted_queueIns _ (h.sorted.sublist hsub)
    · rw [curClass_congr hrec]
      rw [hq] at hmem
      rcases mem_queueIns.mp hmem with rfl | hmem
      · exact ⟨c, hcur, hle⟩
      · exact h.below q (hsub.subset hmem)

/-- A record takes its class's slot over the suspended ones; what waits does not outrank it. -/
theorem takeSlot_wf {r : FaultRec} {s : State} (hslots : tabWf (fun _ => none) s.flt.slots = true)
    (hown : ∀ c r, slotRec s c = some r → c < 4 ∧ r.cls = c) (hshort : s.flt.queue.length ≤ 16)
    (hsorted : s.flt.queue.Pairwise (fun x y => y.cls ≤ x.cls)) (hr : r.cls < 4)
    (habove : ∀ k, curClass s = some k → k < r.cls) (hbelow : ∀ q ∈ s.flt.queue, q.cls ≤ r.cls) :
    HandlingWf (takeSlot r s) := by
  refine ⟨tabWf_tset hslots _ _, fun c p hp => ?_, hshort, hsorted, fun q hq => ?_⟩
  · rw [slotRec_takeSlot hslots] at hp
    split at hp
    · cases hp; exact ⟨by omega, by omega⟩
    · exact hown c p hp
  · exact ⟨r.cls, curClass_takeSlot hslots hr habove, hbelow q hq⟩

/-- Merging into a slot changes no class. -/
theorem setSlot_merged_wf {s : State} {c : Nat} {q : FaultRec} (h : HandlingWf s) (hq : slotRec s c = some q) :
    HandlingWf (setSlot c (some (merged q)) s) ∧ curClass (setSlot c (some (merged q)) s) = curClass s := by
  have hrec := slotRec_setSlot h.slots c (some (merged q))
  have hsome : ∀ k, (slotRec (setSlot c (some (merged q)) s) k).isSome = (slotRec s k).isSome := fun k => by
    rw [hrec]; split
    · rename_i hk; rw [hk, hq]; rfl
    · rfl
  have hcur : curClass (setSlot c (some (merged q)) s) = curClass s := by simp only [curClass, hsome]
  refine ⟨⟨tabWf_tset h.slots _ _, fun k p hp => ?_, h.short, h.sorted, fun x hx => ?_⟩, hcur⟩
  · rw [hrec] at hp
    split at hp
    · cases hp
      rename_i hk
      exact hk ▸ h.own c q hq
    · exact h.own k p hp
  · rw [hcur]; exact h.below x hx

/-- Merging into the queue changes no class. -/
theorem queue_merged_wf (r : FaultRec) {s : State} (h : HandlingWf s) :
    HandlingWf { s with flt.queue := s.flt.queue.map (fun x => if sameFault r x then merged x else x) } := by
  have hcls : ∀ x : FaultRec, (if sameFault r x then merged x else x).cls = x.cls := fun x => by split <;> rfl
  refine ⟨h.slots, h.own, by simpa using h.short, ?_, fun q hq => ?_⟩
  · rw [List.pairwise_map]
    simpa only [hcls] using h.sorted
  · obtain ⟨x, hx, rfl⟩ := List.mem_map.mp hq
    rw [hcls]
    exact h.below x hx

/-- Placing a fault keeps the order, and makes no FATAL record current unless it is one. -/
theorem placeFault_wf {r : FaultRec} {s : State} (hr : r.cls < 4) (h : HandlingWf s) :
    HandlingWf (placeFault r s) ∧ (curClass (placeFault r s) = some 3 → curClass s = some 3 ∨ r.cls = 3) := by
  unfold placeFault
  split
  · rename_i e he
    obtain ⟨c, o⟩ := e
    obtain ⟨q, rfl, -⟩ := sameFault_getD_iff.mp (by simpa only using List.find?_some he)
    have hq : slotRec s c = some q := (tget_eq_some_iff h.slots).mpr (List.mem_of_find?_eq_some he)
    obtain ⟨hwf, hcur⟩ := setSlot_merged_wf h hq
    have hsame : SameHandling (setSlot c (some (merged q)) s) (srvUp 1 4 1 (setSlot c (some (merged q)) s)) :=
      .of_flt (by simp)
    refine ⟨hwf.congr hsame.slots hsame.queue, fun h3 => .inl ?_⟩
    rw [← hcur, ← hsame.curClass]
    exact h3
  · split
    · have hwf := queue_merged_wf r h
      have hsame : SameHandling _ (srvUp 1 4 1
          { s with flt.queue := s.flt.queue.map (fun x => if sameFault r x then merged x else x) }) := .of_flt (srvUp_flt 1 4 1 _)
      refine ⟨hwf.congr hsame.slots hsame.queue, fun h3 => .inl ?_⟩
      rw [hsame.curClass] at h3
      exact h3
    · cases hcur : curClass s with
      | none =>
        have habove : ∀ k, curClass s = some k → k < r.cls := fun k hk => by rw [hcur] at hk; cases hk
        refine ⟨takeSlot_wf h.slots h.own h.short h.sorted hr habove fun q hq => ?_, fun h3 => .inr ?_⟩
        · obtain ⟨c, hc, -⟩ := h.below q hq
          rw [hcur] at hc; cases hc
        · dsimp only at h3
          rw [curClass_takeSlot h.slots hr habove] at h3
          exact Option.some.inj h3
      | some c =>
        dsimp only
        split
        · rename_i hlt
          have habove : ∀ k, curClass s = some k → k < r.cls := fun k hk => by rw [hcur] at hk; cases hk; exact hlt
          refine ⟨takeSlot_wf h.slots h.own h.short h.sorted hr habove fun q hq => ?_, fun h3 => .inr ?_⟩
          · obtain ⟨k, hk, hle⟩ := h.below q hq
            have := habove k hk
            omega
          · rw [curClass_takeSlot h.slots hr habove] at h3
            exact Option.some.inj h3
        · rename_i hle
          refine ⟨queueJoin_wf h hcur (by omega), fun h3 => .inl ?_⟩
          rw [curClass_congr (s := s) fun k => by simp only [slotRec, queueJoin_slots], hcur] at h3
          exact h3

/-- The log of a fault and the host's attention leave what is in handling. -/
theorem logged_sameHandling (r : FaultRec) (s : State) :
    SameHandling s (hostFault r (zephyrLog r (srvUp 1 r.cls 1 s))) := by
  have hlog : SameHandling (srvUp 1 r.cls 1 s) (zephyrLog r (srvUp 1 r.cls 1 s)) := by
    unfold zephyrLog
    split
    · constructor <;> simp
    · exact .of_flt rfl
  exact ((SameHandling.of_flt (srvUp_flt 1 r.cls 1 s)).trans hlog).trans (.of_flt (hostFault_flt r _))

theorem placeFault_safe (r : FaultRec) (s : State) : (placeFault r s).flt.safe = s.flt.safe := (placeFault_fresh r s).2

theorem takeFault_wf {r : FaultRec} {s : State} (hr : r.cls < 4) (h : faultsWf s = true) :
    faultsWf (takeFault r s) = true := by
  obtain ⟨hwf, hfatal⟩ := faultsWf_iff.mp h
  have hlog := logged_sameHandling r s
  obtain ⟨hplaced, hthree⟩ := placeFault_wf hr (hwf.congr hlog.slots hlog.queue)
  unfold takeFault
  dsimp only
  split
  · exact faultsWf_iff.mpr ⟨hplaced.congr (enterSafe_slots _) (enterSafe_queue _), .inl (enterSafe_safe _)⟩
  · rename_i hcls
    refine faultsWf_iff.mpr ⟨hplaced, ?_⟩
    rw [placeFault_safe, hlog.safe]
    refine hfatal.imp_right fun hcur h3 => ?_
    rcases hthree h3 with hwas | hr3
    · exact hcur (hlog.curClass ▸ hwas)
    · exact hcls hr3

/-- Freeing the current slot keeps the slots in order. -/
theorem slotRec_freed {s : State} (h : HandlingWf s) (c : Nat) :
    ∀ k r, slotRec (setSlot c none s) k = some r → slotRec s k = some r ∧ k ≠ c := by
  intro k r hk
  rw [slotRec_setSlot h.slots] at hk
  split at hk
  · cases hk
  · exact ⟨hk, by assumption⟩

/-- What is current once the current record's slot is freed ranks below it. -/
theorem curClass_freed_lt {s : State} {c k : Nat} (h : HandlingWf s) (hcur : curClass s = some c)
    (hleft : curClass (setSlot c none s) = some k) : k < c := by
  obtain ⟨hk, hrec, -⟩ := curClass_eq_some_iff.mp hleft
  obtain ⟨r, hr⟩ := Option.isSome_iff_exists.mp hrec
  obtain ⟨hold, hne⟩ := slotRec_freed h c k r hr
  obtain ⟨d, hd, hle⟩ := exists_curClass_ge hk (Option.isSome_iff_exists.mpr ⟨r, hold⟩)
  rw [hcur] at hd
  cases hd
  omega

/-- FLT.ACK keeps the order (R446). -/
theorem faultAck_wf {s : State} (h : faultsWf s = true) : faultsWf (faultAck s) = true := by
  obtain ⟨hwf, hfatal⟩ := faultsWf_iff.mp h
  cases hcur : curClass s with
  | none => rwa [faultAck_of_none hcur]
  | some c =>
    have hfreed : tabWf (fun _ => none) (setSlot c none s).flt.slots = true := tabWf_tset hwf.slots c none
    have hown : ∀ k r, slotRec (setSlot c none s) k = some r → k < 4 ∧ r.cls = k := fun k r hk =>
      hwf.own k r (slotRec_freed hwf c k r hk).1
    have hnot3 : ∀ k, curClass (setSlot c none s) = some k → k ≠ 3 := fun k hk => by
      have := curClass_freed_lt hwf hcur hk
      have := (curClass_eq_some_iff.mp hcur).1
      omega
    by_cases hhead : ∃ q rest, s.flt.queue = q :: rest ∧ ∀ k, curClass (setSlot c none s) = some k → k < q.cls
    · obtain ⟨q, rest, hqueue, habove⟩ := hhead
      rw [faultAck_of_queued hcur hqueue habove]
      have hq : q.cls ≤ c := cls_le_of_faultsWf h hcur (by simp [hqueue])
      have hc : c < 4 := (curClass_eq_some_iff.mp hcur).1
      have hshort := hwf.short
      have hsorted := hwf.sorted
      rw [hqueue] at hshort hsorted
      refine faultsWf_iff.mpr ⟨takeSlot_wf hfreed hown (by simp at hshort ⊢; omega) hsorted.of_cons (by omega) habove
        (fun x hx => List.rel_of_pairwise_cons hsorted hx), ?_⟩
      rw [curClass_takeSlot (s := { setSlot c none s with flt.queue := rest }) hfreed (by omega) habove]
      refine hfatal.imp_right fun hne h3 => hne ?_
      have hq3 : q.cls = 3 := Option.some.inj h3
      rw [hcur, show c = 3 by omega]
    · cases hleft : curClass (setSlot c none s) with
      | none =>
        have hempty : s.flt.queue = [] := by
          cases hqueue : s.flt.queue with
          | nil => rfl
          | cons q rest => exact absurd ⟨q, rest, hqueue, fun k hk => by rw [hleft] at hk; cases hk⟩ hhead
        rw [faultAck_of_last hcur hleft hempty]
        exact faultsWf_iff.mpr ⟨⟨hfreed, hown, hwf.short, hwf.sorted, fun q hq => by
          have hq' : q ∈ s.flt.queue := hq
          rw [hempty] at hq'; cases hq'⟩, .inr (by rw [hleft]; simp)⟩
      | some k =>
        have hle : ∀ q, s.flt.queue.head? = some q → q.cls ≤ k := by
          intro q hq
          obtain ⟨rest, hqueue⟩ : ∃ rest, s.flt.queue = q :: rest := List.head?_eq_some_iff.mp hq
          refine Nat.le_of_not_lt fun hlt => hhead ⟨q, rest, hqueue, fun j hj => ?_⟩
          rw [hleft] at hj; cases hj
          exact hlt
        rw [faultAck_of_suspended hcur hleft hle]
        have hbelow : ∀ q ∈ s.flt.queue, q.cls ≤ k := by
          cases hqueue : s.flt.queue with
          | nil => simp
          | cons x rest =>
            have hsorted := hwf.sorted
            rw [hqueue] at hsorted hle
            intro q hq
            rcases List.mem_cons.mp hq with rfl | hq
            · exact hle q rfl
            · exact (List.rel_of_pairwise_cons hsorted hq).trans (hle x rfl)
        refine faultsWf_iff.mpr ⟨⟨hfreed, fun j r hj => hown j r hj, hwf.short, hwf.sorted, fun q hq => ?_⟩, .inr ?_⟩
        · rw [curClass_fltEvent]; exact ⟨k, hleft, hbelow q hq⟩
        · rw [curClass_fltEvent, hleft]
          exact fun h3 => hnot3 k hleft (Option.some.inj h3)

/-- Settles O7: the order, told apart from the FATAL clause, is kept by each way a fault is placed and by each way an
acknowledgement ends. -/
theorem faultManagerKept : Obligations.FaultManagerKept := by
  unfold Obligations.FaultManagerKept
  exact ⟨fun r s hr h => takeFault_wf hr h, fun s h => faultAck_wf h⟩

end Sys2Proof.Machine
end

section
/-! Proofs. Memory: a stored byte list and a stored word read back, and every other byte stands (R30, R172). -/

namespace Sys2Proof.Machine

/-- Bytes outside a stored range read as before. -/
theorem mByte_mStores_outside {s : State} (h : Memory.wf s.mem = true) (a : Nat) (l : List Byte) {x : Nat}
    (hx : x < a ∨ a + l.length ≤ x) : mByte (mStores a l s) x = mByte s x := by
  induction l generalizing a s with
  | nil => rfl
  | cons b t ih =>
    rw [List.length_cons] at hx
    rw [mStores, ih (mStore_wf h a b) (a + 1) (by omega), mByte_mStore h, if_neg (by omega)]

/-- A stored byte reads back. -/
theorem mByte_mStores_inside {s : State} (h : Memory.wf s.mem = true) (a : Nat) {l : List Byte} {i : Nat} {b : Byte}
    (hb : l[i]? = some b) : mByte (mStores a l s) (a + i) = b := by
  induction l generalizing a s i with
  | nil => simp at hb
  | cons c t ih =>
    cases i with
    | zero =>
      simp only [List.getElem?_cons_zero, Option.some.injEq] at hb
      rw [Nat.add_zero, mStores, mByte_mStores_outside (mStore_wf h a c) (a + 1) t (by omega), mByte_mStore h, if_pos rfl, hb]
    | succ i =>
      rw [List.getElem?_cons_succ] at hb
      rw [mStores, show a + (i + 1) = a + 1 + i by omega]
      exact ih (mStore_wf h a c) (a + 1) hb

theorem length_leBytes (n v : Nat) : (leBytes n v).length = n := by
  induction n generalizing v with
  | zero => rfl
  | succ n ih => simp [leBytes, ih]

/-- The bytes of a number, least significant first. -/
theorem getElem?_leBytes {n i : Nat} (hi : i < n) (v : Nat) :
    (leBytes n v)[i]? = some (BitVec.ofNat 8 (v / 2 ^ (8 * i))) := by
  induction n generalizing v i with
  | zero => omega
  | succ n ih =>
    cases i with
    | zero => simp [leBytes]
    | succ i =>
      have hdiv : v / 256 / 2 ^ (8 * i) = v / 2 ^ (8 * (i + 1)) := by
        rw [Nat.div_div_eq_div_mul, show 256 * 2 ^ (8 * i) = 2 ^ (8 * (i + 1)) by rw [Nat.mul_add, Nat.pow_add]; omega]
      rw [leBytes, List.getElem?_cons_succ, ih (by omega), hdiv]

/-- A list of bytes read from memory is the list stored where each byte is. -/
theorem mBytes_eq {s : State} {a : Nat} {l : List Byte} (h : ∀ i b, l[i]? = some b → mByte s (a + i) = b) :
    mBytes s a l.length = l := by
  induction l generalizing a with
  | nil => rfl
  | cons b t ih =>
    have hhead : mByte s a = b := h 0 b rfl
    have htail : mBytes s (a + 1) t.length = t := ih fun i c hc => by
      rw [show a + 1 + i = a + (i + 1) by omega]; exact h (i + 1) c hc
    rw [List.length_cons, mBytes, hhead, htail]

theorem leNat_leBytes (n v : Nat) : leNat (leBytes n v) = v % 2 ^ (8 * n) := by
  induction n generalizing v with
  | zero => simp [leBytes, leNat, Nat.mod_one]
  | succ n ih =>
    rw [leBytes, leNat, ih, BitVec.toNat_ofNat, show 2 ^ (8 * (n + 1)) = 256 * 2 ^ (8 * n) by rw [Nat.mul_add, Nat.pow_add]; omega]
    exact (Nat.mod_mul).symm

/-- A stored word reads back. -/
theorem mWord_mStoreW {s : State} (h : Memory.wf s.mem = true) (a v : Nat) : mWord (mStoreW a v s) a = v % 2 ^ 32 := by
  have hbytes : mBytes (mStoreW a v s) a (leBytes 4 v).length = leBytes 4 v :=
    mBytes_eq fun i b hb => mByte_mStores_inside h a hb
  rw [length_leBytes] at hbytes
  rw [mWord, hbytes, leNat_leBytes]

/-- Settles O10: a word is stored as its bytes, so that the laws of byte lists carry over. -/
theorem memoryOperations : Obligations.MemoryOperations := by
  unfold Obligations.MemoryOperations
  intro s hwf
  refine ⟨fun a l => ⟨mStores_wf hwf a l, fun i b hb => mByte_mStores_inside hwf a hb,
      fun x hx => mByte_mStores_outside hwf a l hx⟩, fun a v => ⟨mStoreW_wf hwf a v, mWord_mStoreW hwf a v, fun i hi => ?_,
      fun x hx => ?_⟩⟩
  · exact mByte_mStores_inside hwf a (getElem?_leBytes hi v)
  · exact mByte_mStores_outside hwf a _ (by rwa [length_leBytes])

end Sys2Proof.Machine
end

section
/-! Proofs. One operation of a packet among others: what the A slot gives, what the M slot accumulates (R178 to R191). -/

namespace Sys2Proof.Machine

/-- An operation of the A, the M or the G slot has no effective address. -/
theorem opEa_eq_none {o : SlotOp} (h : slotOfOp o = .a ∨ slotOfOp o = .m ∨ slotOfOp o = .g) : opEa o = none := by
  cases o with
  | ld w slot d ea => cases slot <;> simp [slotOfOp] at h
  | st w slot v ea => cases slot <;> simp [slotOfOp] at h
  | _ => rfl

/-- IRET stands in the C slot. -/
theorem ne_iret_of_slot_a {o : SlotOp} (h : slotOfOp o = .a) : o ≠ .iret := by
  rintro rfl
  cases h

/-- With no effective address an operation neither loads nor post-modifies. -/
theorem slotsDone_cons {o : SlotOp} (h : opEa o = none) (s : State) (k t : Nat) (x : NCore) (l : List SlotOp) (c : NCore) :
    slotsDone s k t x (o :: l) c = slotsDone s k t x l (opFx s t x o c) := by
  have hload : loadFx s k t x o (opFx s t x o c) = opFx s t x o c := by
    unfold loadFx; split
    · simp [opEa] at h
    · rfl
  have hpost : postFx x o (opFx s t x o c) = opFx s t x o c := by
    unfold postFx; rw [h]
  rw [slotsDone, List.foldl_cons, hload, hpost]
  rfl

/-- What one operation put in flight for its own register stays there, whatever the packet's other slots do. -/
theorem lands_slotsDone {s : State} {k : Nat} {g : Option (Bool × Fin 4)} {o : SlotOp} {l : List SlotOp}
    (h : packetGoes s k g (o :: l) = true) {t land d : Nat} {v : Word} {x c : NCore} (hdst : d ∈ opVDst o) (hd : d < 32)
    (hlands : lands x c land d v) : lands x (slotsDone s k t x l c) land d v := by
  obtain ⟨-, hothers⟩ := packet_others h
  obtain ⟨hmem, hfilter⟩ := slotsDone_flown s k t x (l.flatMap opVDst) l c
    (fun p hp r hr => List.mem_flatMap.mpr ⟨p, hp, hr⟩)
  refine lands_keep hlands hmem (hfilter d hd fun hin => ?_)
  obtain ⟨p, hp, hr⟩ := List.mem_flatMap.mp hin
  exact hothers p hp d hdst hr

/-- `lands` looks at the results in flight only. -/
theorem lands_congr {old c c' : NCore} {t r : Nat} {v : Word} (h : c'.flight = c.flight) (hl : lands old c t r v) :
    lands old c' t r v := by
  unfold lands at *; rw [h]; exact hl

section
variable {i : Instr} {is : Issue} {o : SlotOp} {s : State}

/-- The core that a packet leaves, told by what its slots do to the registers it saw. -/
theorem packetAmong_of_slots {P : Nat → NCore → NCore → Prop} (hexec : exec i s = finish s (issueOp is o s))
    (hP : packetGoes s is.core is.guard (o :: is.others) = true → ∀ c,
      let t := issueClock s is.core (o :: is.others)
      let x := issueView s is.core (o :: is.others)
      let d := slotsDone s is.core t x (o :: is.others) x
      sameSlots d c → ((∀ p ∈ o :: is.others, p ≠ .iret) → c.flags = d.flags) → P t x c) :
    packetAmong i is o s P := by
  intro hgoes hwf
  obtain ⟨hslots, hflags⟩ := packet_after hgoes hwf
  exact ⟨_, hexec, hP hgoes _ hslots hflags⟩

/-- A packet of one operation of the A, the M or the G slot: what the operation does, and the sequencer. -/
theorem packetAlone_of_opFx {r : Nat → NCore → NCore} (hexec : exec i s = finish s (issueOp is o s))
    (hslot : slotOfOp o = .a ∨ slotOfOp o = .m ∨ slotOfOp o = .g) (hwrite : ∀ n a, o ≠ .movs (.write n a))
    (hfx : ∀ t x, opFx s t x o x = r t x) : packetAlone i is o s r := by
  intro hnone hgoes
  obtain ⟨srv, hrun⟩ := packet_single hgoes (opEa_eq_none hslot) hslot hwrite
  refine ⟨srv, ?_⟩
  rw [hexec, issueOp, hnone, hrun, hfx]
  rfl

/-- An A-slot operation that gives its register a value one clock later, and FLAGS. -/
theorem packetGives_of_opFx {d : VReg} {val flags : Nat → NCore → Word} (hexec : exec i s = finish s (issueOp is o s))
    (hslot : slotOfOp o = .a) (hwrite : ∀ n a, o ≠ .movs (.write n a)) (hdst : d.val ∈ opVDst o)
    (hfx : ∀ t x, opFx s t x o x = { fly (t + 1) d (val t x) x with flags := flags t x }) :
    packetGives i is o s d val flags := by
  refine ⟨packetAmong_of_slots hexec fun hgoes c => ?_, packetAlone_of_opFx hexec (.inl hslot) hwrite hfx⟩
  obtain ⟨hothers, -⟩ := packet_others hgoes
  dsimp only
  rw [slotsDone_cons (opEa_eq_none (.inl hslot)), hfx]
  intro hsame hflags
  obtain ⟨-, hflight, -⟩ := hsame
  refine ⟨lands_congr hflight (lands_slotsDone hgoes hdst d.isLt (lands_congr rfl (lands_fly rfl))), fun hiret => ?_⟩
  rw [hflags (List.forall_mem_cons.mpr ⟨ne_iret_of_slot_a hslot, hiret⟩),
    slotsDone_flags _ _ _ _ _ _ fun p hp => by rw [← hslot]; exact hothers p hp]

/-- An A-slot operation that only writes FLAGS. -/
theorem packetFlags_of_opFx {flags : NCore → Word} (hexec : exec i s = finish s (issueOp is o s))
    (hslot : slotOfOp o = .a) (hwrite : ∀ n a, o ≠ .movs (.write n a))
    (hfx : ∀ t x, opFx s t x o x = { x with flags := flags x }) : packetFlags i is o s flags := by
  refine ⟨packetAmong_of_slots hexec fun hgoes c => ?_, packetAlone_of_opFx hexec (.inl hslot) hwrite hfx⟩
  obtain ⟨hothers, -⟩ := packet_others hgoes
  dsimp only
  rw [slotsDone_cons (opEa_eq_none (.inl hslot)), hfx]
  intro _ hflags hiret
  rw [hflags (List.forall_mem_cons.mpr ⟨ne_iret_of_slot_a hslot, hiret⟩),
    slotsDone_flags _ _ _ _ _ _ fun p hp => by rw [← hslot]; exact hothers p hp]

/-- The accumulators after sums for a list of them, one after another. -/
def accAfter (l : List (Nat × Int)) (m : Tab Int) : Tab Int := l.foldl (fun m e => tset 0 m e.1 (wrap72 e.2)) m

/-- The clocks from which the same accumulators are seen. -/
def accVisAfter (t : Nat) (l : List (Nat × Int)) (m : Tab Nat) : Tab Nat := l.foldl (fun m e => tset 0 m e.1 (t + 3)) m

/-- An M-slot operation that writes accumulators. -/
theorem packetAccs_of_opFx {acc : NCore → List (Nat × Int)} (hexec : exec i s = finish s (issueOp is o s))
    (hslot : slotOfOp o = .m)
    (hfx : ∀ t x, opFx s t x o x = { x with acc := accAfter (acc x) x.acc, accVis := accVisAfter t (acc x) x.accVis }) :
    packetAccs i is o s acc := by
  have hwrite : ∀ n a, o ≠ .movs (.write n a) := fun n a h => by rw [h] at hslot; cases hslot
  refine ⟨packetAmong_of_slots hexec fun hgoes c => ?_, packetAlone_of_opFx hexec (.inr (.inl hslot)) hwrite hfx⟩
  obtain ⟨hothers, -⟩ := packet_others hgoes
  dsimp only
  rw [slotsDone_cons (opEa_eq_none (.inr (.inl hslot))), hfx]
  rintro ⟨-, -, hacc, hvis, -⟩ -
  obtain ⟨hkeepAcc, hkeepVis⟩ := slotsDone_acc s is.core (issueClock s is.core (o :: is.others))
    (issueView s is.core (o :: is.others)) is.others _ fun p hp => by rw [← hslot]; exact hothers p hp
  exact ⟨hacc.trans hkeepAcc, hvis.trans hkeepVis⟩

end

/-- A two-source operation gives what the arithmetic of its kind gives. -/
theorem packetGives_alu2 {i : Instr} {is : Issue} {s : State} {op : Alu2} {d a b : VReg} {val flags : NCore → Word}
    (hexec : exec i s = finish s (issueOp is (.alu2 op d a b) s))
    (hfx : ∀ x, alu2Fx op (vGet x a) (vGet x b) x.flags = (val x, flags x)) :
    packetGives i is (.alu2 op d a b) s d (fun _ => val) (fun _ => flags) :=
  packetGives_of_opFx hexec rfl (fun _ _ => by simp) (by simp [opVDst]) fun t x => by rw [opFx, hfx]; rfl

/-- A one-source operation gives what the arithmetic of its kind gives. -/
theorem packetGives_alu1 {i : Instr} {is : Issue} {s : State} {op : Alu1} {d a : VReg} {val flags : NCore → Word}
    (hexec : exec i s = finish s (issueOp is (.alu1 op d a) s))
    (hfx : ∀ x, alu1Fx op (vGet x a) x.flags = (val x, flags x)) :
    packetGives i is (.alu1 op d a) s d (fun _ => val) (fun _ => flags) :=
  packetGives_of_opFx hexec rfl (fun _ _ => by simp) (by simp [opVDst]) fun t x => by rw [opFx, hfx]; rfl

/-- Settles O28: each operation is one case of the arithmetic of two sources. -/
theorem aluTwoSourceCommands : Obligations.AluTwoSourceCommands := by
  unfold Obligations.AluTwoSourceCommands
  refine ⟨?add, ?sub, ?adds, ?subs, ?and, ?or, ?xor, ?min, ?max⟩ <;>
    exact fun _ _ _ _ _ => packetGives_alu2 rfl fun _ => rfl

/-- ABS of a word is its negation where the sign bit is set (R191). -/
theorem alu1Fx_abs (a f : Word) : alu1Fx .abs a f =
    (if bit a 31 then 0 - a else a,
      if bit a 31 then flagsCV (flagsZN f (0 - a)) (decide (a.toNat ≤ 0)) (overI32 (0 - a.toInt))
      else flagsCV (flagsZN f a) false false) := by
  unfold alu1Fx
  dsimp only
  split <;> rfl

/-- Settles O29: the one-source operations are cases of their arithmetic; the shifts and moves give their own value, and
those that leave FLAGS put back what they found. -/
theorem aluOneSourceAndMoveCommands : Obligations.AluOneSourceAndMoveCommands := by
  unfold Obligations.AluOneSourceAndMoveCommands
  refine ⟨?neg, ?abs, ?not, ?clz, ?mov, ?shl, ?shr, ?shra, ?movi, ?movh, ?sel, ?mrd⟩
  case abs => exact fun _ _ _ _ => packetGives_alu1 rfl fun _ => alu1Fx_abs ..
  case neg | not | clz | mov => exact fun _ _ _ _ => packetGives_alu1 rfl fun _ => rfl
  case shl | shr | shra =>
    exact fun _ _ _ _ _ => packetGives_of_opFx rfl rfl (fun _ _ => by simp) (by simp [opVDst]) fun _ _ => rfl
  case movi | movh | mrd =>
    exact fun _ _ _ _ => packetGives_of_opFx rfl rfl (fun _ _ => by simp) (by simp [opVDst]) fun _ _ => rfl
  case sel =>
    exact fun _ _ _ _ _ _ => packetGives_of_opFx rfl rfl (fun _ _ => by simp) (by simp [opVDst]) fun _ _ => rfl

/-- A complex operation adds its signed product to what it starts from: the accumulators, or 0 for CMUL (R190). -/
theorem opFx_cx (op : CxOp) (p : Reg8) (a b : VReg) (mode : MulMode) (cj : Bool) (s : State) (t : Nat) (x : NCore) :
    opFx s t x (.cx op p a b mode cj) x =
      let q := cxProd mode cj (vGet x a) (vGet x (a.val + 1)) (vGet x b) (vGet x (b.val + 1))
      let sign : Int := if op = .cmsub then -1 else 1
      let l := [(p.val, (if op = .cmul then 0 else accGet x p) + sign * q.1),
        (p.val + 1, (if op = .cmul then 0 else accGet x (p.val + 1)) + sign * q.2)]
      { x with acc := accAfter l x.acc, accVis := accVisAfter t l x.accVis } := rfl

/-- Settles O30: each operation writes FLAGS or the accumulators of its own list; a complex one subtracts by adding the
negated product. -/
theorem flagAndAccumulatorCommands : Obligations.FlagAndAccumulatorCommands := by
  unfold Obligations.FlagAndAccumulatorCommands
  refine ⟨?cmp, ?mwr, ?mac, ?msub, ?mul, ?mac2, ?cx, ?aclr⟩
  case cmp => exact fun _ _ _ _ _ _ => packetFlags_of_opFx rfl rfl (fun _ _ => by simp) fun _ _ => rfl
  case mwr => exact fun _ _ _ => packetFlags_of_opFx rfl rfl (fun _ _ => by simp) fun _ _ => rfl
  case mac | msub | mul | mac2 => exact fun _ _ _ _ _ _ => packetAccs_of_opFx rfl rfl fun _ _ => rfl
  case cx =>
    intro is p a b mode cj s im re' im'
    refine ⟨packetAccs_of_opFx rfl rfl fun t x => ?_, packetAccs_of_opFx rfl rfl fun t x => ?_,
      packetAccs_of_opFx rfl rfl fun t x => ?_⟩
    all_goals simp [opFx_cx, cxProd, Int.sub_eq_add_neg, im, re', im']
  case aclr =>
    intro is pair n s
    refine packetAccs_of_opFx rfl rfl fun t x => ?_
    cases pair <;> rfl

end Sys2Proof.Machine
end

section
/-! Proofs. Loads and stores of a packet (R172, R183, R188, R193). -/

namespace Sys2Proof.Machine

/-- In a packet that goes, every operation stands in a slot that takes it, and its pairs start even (R181). -/
theorem packet_wellSlotted {s : State} {k : Nat} {g : Option (Bool × Fin 4)} {ops : List SlotOp}
    (h : packetGoes s k g ops = true) {p : SlotOp} (hp : p ∈ ops) : opBadSlot k p = false ∧ opPairsOk p = true := by
  have hlegal := packet_legal h
  simp only [packetIllegal, Bool.or_eq_false_iff, Bool.not_eq_false'] at hlegal
  obtain ⟨⟨⟨⟨⟨⟨⟨hslot, -⟩, -⟩, -⟩, -⟩, -⟩, -⟩, hpairs⟩ := hlegal
  exact ⟨by simpa using List.any_eq_false.mp hslot p hp, List.all_eq_true.mp hpairs p hp⟩

/-- The post-modification of an operation touches the address registers only. -/
theorem postFx_eq (x : NCore) (o : SlotOp) (c : NCore) : postFx x o c = { c with a := postMods x [o] c.a } := by
  unfold postFx postMods
  cases h : opEa o with
  | none => simp [h]
  | some ea =>
    simp only [List.foldl_cons, List.foldl_nil, h, Option.any_some, Option.elim_some]
    split <;> rfl

/-- An operation that is no store leaves memory. -/
theorem storeFx_of_ne_st {p : SlotOp} (h : ∀ w sl v ea, p ≠ .st w sl v ea) (k : Nat) (x : NCore) (s : State) :
    storeFx k x p s = s := by
  unfold storeFx
  split
  · exact absurd rfl (h _ _ _ _)
  · rfl

/-- A packet's slots other than Z store nothing (R185). -/
theorem stores_of_no_z {s : State} {k : Nat} {g : Option (Bool × Fin 4)} {ops l : List SlotOp}
    (h : packetGoes s k g ops = true) (hl : ∀ p ∈ l, p ∈ ops ∧ slotOfOp p ≠ .z) (x : NCore) (u : State) :
    foldS l (storeFx k x) u = u := by
  unfold foldS
  induction l with
  | nil => rfl
  | cons p l ih =>
    obtain ⟨hmem, hz⟩ := hl p (by simp)
    have hst : ∀ w sl v ea, p ≠ .st w sl v ea := by
      rintro w sl v ea rfl
      have hbad := (packet_wellSlotted h hmem).1
      simp only [opBadSlot, bne_eq_false_iff_eq] at hbad
      subst hbad
      exact hz rfl
    rw [List.foldl_cons, storeFx_of_ne_st hst]
    exact ih fun q hq => hl q (by simp [hq])

/-- The rest of a packet's address registers are left to its post-modifications, the G slot apart. -/
theorem packet_addresses {s : State} {k : Nat} {g : Option (Bool × Fin 4)} {o : SlotOp} {l : List SlotOp}
    (h : packetGoes s k g (o :: l) = true) (hw : coresWf s = true) (ho : slotOfOp o ≠ .g) (hl : ∀ p ∈ l, slotOfOp p ≠ .g) :
    (coreGet (issuePacket k g (o :: l) s) k).a = postMods (issueView s k (o :: l)) (o :: l) (issueView s k (o :: l)).a := by
  obtain ⟨⟨-, -, -, -, ha, -⟩, -⟩ := packet_after h hw
  exact ha.trans (slotsDone_post _ _ _ _ _ _ (List.forall_mem_cons.mpr ⟨ho, hl⟩)).1

/-- A memory operation stands in a memory slot. -/
theorem slotOfOp_ld (w : Bool) (slot : MemSlot) (d : VReg) (ea : Ea) : slotOfOp (.ld w slot d ea) ≠ .g := by
  cases slot <;> simp [slotOfOp]

theorem slotOfOp_st (w : Bool) (slot : MemSlot) (v : VReg) (ea : Ea) : slotOfOp (.st w slot v ea) ≠ .g := by
  cases slot <;> simp [slotOfOp]

/-- What a local load reads into its registers (R193). -/
theorem loadFx_local {s : State} {k : Nat} {x : NCore} {ea : Ea} (hl : isLocal k (eaAddr x ea).toNat = true) (t : Nat)
    (w : Bool) (slot : MemSlot) (d : VReg) (c : NCore) : loadFx s k t x (.ld w slot d ea) c =
      let m := localAddr k (eaAddr x ea).toNat
      let c1 := fly (t + 2) d (wd (mWord s m)) c
      if w then c1 else fly (t + 2) (d.val + 1) (wd (mWord s (m + 4))) c1 := by
  simp [loadFx, hl]

/-- Two results for different registers: each lands (R188). -/
theorem lands_fly_fly {x c : NCore} (h : c.flight = x.flight) {t d e : Nat} (hde : d ≠ e) (v w : Word) :
    lands x (fly t e w (fly t d v c)) t d v ∧ lands x (fly t e w (fly t d v c)) t e w := by
  have hother : ∀ (r r' : Nat) (u : Word) (b : NCore), r' ≠ r →
      (fly t r' u b).flight.filter (fun f => f.reg == r) = b.flight.filter (fun f => f.reg == r) := fun r r' u b hne =>
    flightAdd_filter_other _ _ _ (by simpa using hne)
  refine ⟨?_, lands_fly (by rw [hother _ _ _ _ hde, h])⟩
  exact lands_keep (lands_fly (by rw [h])) (fun f hf => (mem_flightAdd _ _ _).mpr (.inr hf)) (hother _ _ _ _ hde.symm)

/-- The results of a local load of a packet land two clocks later, low word first (R188, R193). -/
theorem packet_loads {s : State} {k : Nat} {g : Option (Bool × Fin 4)} {w : Bool} {slot : MemSlot} {d : VReg} {ea : Ea}
    {l : List SlotOp} (h : packetGoes s k g (.ld w slot d ea :: l) = true) (hw : coresWf s = true) :
    let t := issueClock s k (.ld w slot d ea :: l)
    let x := issueView s k (.ld w slot d ea :: l)
    let m := localAddr k (eaAddr x ea).toNat
    let c := coreGet (issuePacket k g (.ld w slot d ea :: l) s) k
    isLocal k (eaAddr x ea).toNat = true →
      lands x c (t + 2) d (wd (mWord s m)) ∧ (w = false → lands x c (t + 2) (d.val + 1) (wd (mWord s (m + 4)))) := by
  intro t x m c hlocal
  obtain ⟨⟨-, hflight, -⟩, -⟩ := packet_after h hw
  have hslots : slotsDone s k t x (.ld w slot d ea :: l) x =
      slotsDone s k t x l (postFx x (.ld w slot d ea) (loadFx s k t x (.ld w slot d ea) x)) := rfl
  rw [show issueClock s k (.ld w slot d ea :: l) = t from rfl, show issueView s k (.ld w slot d ea :: l) = x from rfl, hslots,
    postFx_eq, loadFx_local hlocal] at hflight
  cases w with
  | true =>
    refine ⟨lands_congr hflight (lands_slotsDone h (by simp [opVDst]) d.isLt (lands_congr rfl (lands_fly rfl))), ?_⟩
    rintro ⟨⟩
  | false =>
    have hpair : d.val % 2 = 0 := by simpa [opPairsOk] using (packet_wellSlotted h List.mem_cons_self).2
    have hd := d.isLt
    obtain ⟨hlow, hhigh⟩ := lands_fly_fly (x := x) (c := x) rfl (t := t + 2) (d := d.val) (e := d.val + 1) (by omega)
      (wd (mWord s m)) (wd (mWord s (m + 4)))
    exact ⟨lands_congr hflight (lands_slotsDone h (by simp [opVDst]) hd (lands_congr rfl hlow)),
      fun _ => lands_congr hflight (lands_slotsDone h (by simp [opVDst]) (by omega) (lands_congr rfl hhigh))⟩

/-- LD as a command. -/
theorem exec_ld (w : Bool) (is : Issue) (slot : MemSlot) (d : VReg) (ea : Ea) (s : State) :
    exec (if w then .ldW is slot d ea else .ldD is slot d ea) s = finish s (issueOp is (.ld w slot d ea) s) := by
  cases w <;> rfl

/-- ST as a command. -/
theorem exec_st (w : Bool) (is : Issue) (slot : MemSlot) (v : VReg) (ea : Ea) (s : State) :
    exec (if w then .stW is slot v ea else .stD is slot v ea) s = finish s (issueOp is (.st w slot v ea) s) := by
  cases w <;> rfl

/-- A load elsewhere is the packet's bus load. -/
theorem busOp_ld {k : Nat} {x : NCore} {ea : Ea} (hl : isLocal k (eaAddr x ea).toNat = false) (w : Bool) (slot : MemSlot)
    (d : VReg) (l : List SlotOp) :
    busOp k x (.ld w slot d ea :: l) = some (.inr { addr := eaAddr x ea, d := d.val, dbl := !w }) := by
  simp [busOp, hl]

/-- A store elsewhere is the packet's posted write. -/
theorem busOp_st {k : Nat} {x : NCore} {ea : Ea} (hl : isLocal k (eaAddr x ea).toNat = false) (w : Bool) (slot : MemSlot)
    (v : VReg) (l : List SlotOp) :
    busOp k x (.st w slot v ea :: l) = some (.inl { addr := eaAddr x ea, size := accSizeOf w, val := storeVal x w v }) := by
  simp [busOp, hl]

/-- A store of a packet is its only one: the Z slot takes one operation (R179, R185). -/
theorem packet_stores {s : State} {k : Nat} {g : Option (Bool × Fin 4)} {w : Bool} {slot : MemSlot} {v : VReg} {ea : Ea}
    {l : List SlotOp} (h : packetGoes s k g (.st w slot v ea :: l) = true) (x : NCore) :
    foldS (.st w slot v ea :: l) (storeFx k x) s = storeFx k x (.st w slot v ea) s := by
  obtain ⟨hothers, -⟩ := packet_others h
  have hslot : slotOfOp (.st w slot v ea) = .z := by
    have hbad := (packet_wellSlotted h List.mem_cons_self).1
    simp only [opBadSlot, bne_eq_false_iff_eq] at hbad
    subst hbad
    rfl
  exact stores_of_no_z h (fun p hp => ⟨List.mem_cons_of_mem _ hp, hslot ▸ hothers p hp⟩) x _

/-- Settles O32: where the address leads decides between the local access and the bus; the rest of the packet leaves the
operation's own register, the memory and the address registers to it. -/
theorem loadAndStoreCommands : Obligations.LoadAndStoreCommands := by
  unfold Obligations.LoadAndStoreCommands
  refine ⟨?load, ?store⟩
  case load =>
    intro w is slot d ea s i o k a regs
    refine ⟨fun hgoes hwf => ⟨_, exec_ld w is slot d ea s, packet_loads hgoes hwf, fun hl => ?_,
      packet_addresses hgoes hwf (slotOfOp_ld w slot d ea), fun hz => ?_⟩, fun hnone hgoes => ?_⟩
    · obtain ⟨-, hload, -⟩ := packet_bus hgoes hwf
      exact hload.trans (by rw [busOp_ld hl]; rfl)
    · obtain ⟨hmem, -, -⟩ := packet_bus hgoes hwf
      refine hmem.trans ?_
      show (foldS is.others (storeFx k _) s).mem = s.mem
      rw [stores_of_no_z hgoes fun p hp => ⟨List.mem_cons_of_mem _ hp, hz p hp⟩]
    · intro t x
      rw [exec_ld, issueOp, hnone]
      cases hl : isLocal k (a x) with
      | true =>
        obtain ⟨srv, hrun⟩ := packet_single_load hgoes hl
        refine ⟨srv, ?_⟩
        rw [hrun]
        dsimp only
        rw [postFx_eq, loadFx_local hl, if_pos rfl, finish_placed]
        cases w <;> rfl
      | false =>
        obtain ⟨srv, hrun⟩ := packet_single_bus hgoes (busOp_ld hl w slot d [])
        refine ⟨srv, ?_⟩
        rw [hrun]
        dsimp only
        rw [postFx_eq, if_neg Bool.false_ne_true, finish_placed]
        rfl
  case store =>
    intro w is slot v ea s i o k a n val post
    refine ⟨fun hgoes hwf => ⟨_, exec_st w is slot v ea s, fun hl => ?_, fun hl => ?_,
      packet_addresses hgoes hwf (slotOfOp_st w slot v ea)⟩, fun hnone hgoes => ?_⟩
    · obtain ⟨hmem, -, -⟩ := packet_bus hgoes hwf
      rw [packet_stores hgoes] at hmem
      refine hmem.trans ?_
      rw [storeFx, if_pos hl]
      cases w <;> rfl
    · obtain ⟨hmem, -, hposted⟩ := packet_bus hgoes hwf
      rw [packet_stores hgoes, storeFx, if_neg (by simpa using hl)] at hmem
      refine ⟨hmem, hposted.trans ?_⟩
      rw [busOp_st hl]
      rfl
    · intro t x
      rw [exec_st, issueOp, hnone]
      cases hl : isLocal k (a x) with
      | true =>
        obtain ⟨srv, hrun⟩ := packet_single_store hgoes hl
        refine ⟨srv, ?_⟩
        rw [hrun]
        dsimp only
        rw [postFx_eq, storeFx, if_pos hl, if_pos rfl, finish_placed]
        cases w <;> rfl
      | false =>
        obtain ⟨srv, hrun⟩ := packet_single_bus hgoes (busOp_st hl w slot v [])
        refine ⟨srv, ?_⟩
        rw [hrun]
        dsimp only
        rw [postFx_eq, if_neg Bool.false_ne_true, finish_placed]
        rfl

end Sys2Proof.Machine
end

section
/-! Proofs. The C slot: where a packet leads (R180, R189, R194 to R197). -/

namespace Sys2Proof.Machine

/-- Two cores agree in what the sequencer looks at. -/
structure SameSeq (c e : NCore) : Prop where
  pc : c.pc = e.pc
  levels : c.levels = e.levels
  rstk : c.rstk = e.rstk
  rdep : c.rdep = e.rdep
  cache : c.cache = e.cache

/-- Two packets lead to the same place, with the same added clocks. -/
structure SameNext (n m : Next) : Prop where
  core : SameSeq n.core m.core
  add : n.add = m.add

theorem seqNext_sameSeq (k : Nat) {c e : NCore} (h : SameSeq c e) : SameNext (seqNext k c) (seqNext k e) := by
  cases c; cases e
  obtain ⟨rfl, rfl, rfl, rfl, rfl⟩ := h
  unfold seqNext
  dsimp only
  (repeat' split) <;> exact ⟨⟨rfl, rfl, rfl, rfl, rfl⟩, rfl⟩

theorem repNext_sameSeq (k : Nat) (x : NCore) (n : RepCount) (stop : Nat) {c e : NCore} (h : SameSeq c e) :
    SameNext (repNext k x n stop c) (repNext k x n stop e) := by
  cases c; cases e
  obtain ⟨rfl, rfl, rfl, rfl, rfl⟩ := h
  unfold repNext
  dsimp only
  split <;> exact ⟨⟨rfl, rfl, rfl, rfl, rfl⟩, rfl⟩

theorem breakNext_sameSeq (k : Nat) {c e : NCore} (h : SameSeq c e) : SameNext (breakNext k c) (breakNext k e) := by
  have hseq := seqNext_sameSeq k h
  cases c; cases e
  obtain ⟨rfl, rfl, rfl, rfl, rfl⟩ := h
  unfold breakNext
  dsimp only
  split
  · exact ⟨⟨rfl, rfl, rfl, rfl, rfl⟩, rfl⟩
  · exact hseq

/-- Where a packet leads depends on what the sequencer looks at only. -/
theorem ctlNext_sameSeq (k : Nat) (x : NCore) (ops : List SlotOp) {c e : NCore} (h : SameSeq c e) :
    SameNext (ctlNext k x ops c) (ctlNext k x ops e) := by
  have hseq := seqNext_sameSeq k h
  have hrep := fun n stop => repNext_sameSeq k x n stop h
  have hbrk := breakNext_sameSeq k h
  cases c; cases e
  obtain ⟨rfl, rfl, rfl, rfl, rfl⟩ := h
  unfold ctlNext
  dsimp only
  cases ops.find? (fun o => slotOfOp o == .c) with
  | none => exact hseq
  | some o =>
    cases o with
    | jmp | call | ret => exact ⟨⟨rfl, rfl, rfl, rfl, rfl⟩, rfl⟩
    | rep n stop => exact hrep n _
    | brk => exact hbrk
    | _ => exact hseq

/-- The slots of a packet and its bus side leave what the sequencer looks at. -/
theorem slotsDone_sameSeq (s : State) (k t : Nat) (x : NCore) (l : List SlotOp) (b : Option (Posted ⊕ BusLoad)) :
    SameSeq (busOut (slotsDone s k t x l x) b) x := by
  have hrest := slotsDone_rest s k t x l x
  unfold sameRest at hrest
  rw [hrest]
  unfold busOut
  split <;> exact ⟨rfl, rfl, rfl, rfl, rfl⟩

/-- The core after a packet with the control operation `o`, its own registers done. -/
def controlDone (k : Nat) (o : SlotOp) (t : Nat) (x : NCore) : NCore :=
  let n := ctlNext k x [o] x
  { n.core with cyc := t + 1 + n.add, gap := if n.add = 0 then [] else [(n.why, n.add)] }

/-- The control operation of a packet is its one operation of the C slot. -/
theorem ctlNext_cons {o : SlotOp} (h : slotOfOp o = .c) (k : Nat) (x : NCore) (l : List SlotOp) (c : NCore) :
    ctlNext k x (o :: l) c = ctlNext k x [o] c := by
  have hfind : ∀ l : List SlotOp, (o :: l).find? (fun o => slotOfOp o == .c) = some o := fun l =>
    List.find?_cons_of_pos (by simp [h])
  unfold ctlNext
  rw [hfind l, hfind []]

/-- The operation neither waits nor returns from an exception. -/
def noWait (o : SlotOp) : Prop := o ≠ .waitCycle ∧ o ≠ .sync ∧ o ≠ .wfi ∧ o ≠ .iret

theorem noWait_of_slot {o : SlotOp} (h : slotOfOp o ≠ .c) : noWait o := by
  refine ⟨?_, ?_, ?_, ?_⟩ <;> (rintro rfl; exact h rfl)

/-- An operation of the C slot that leads its packet where `r` says leads it there among any others. -/
theorem packetLeads_of_controlDone {i : Instr} {is : Issue} {o : SlotOp} {s : State} {r : Nat → NCore → NCore}
    (hexec : exec i s = finish s (issueOp is o s)) (hslot : slotOfOp o = .c) (hwait : noWait o)
    (hlone : ∀ x u, waitFx is.core x [o] u = u) (hr : ∀ t x, controlDone is.core o t x = r t x) :
    packetLeads i is o s r := by
  constructor
  · intro hgoes hwf
    obtain ⟨hothers, -⟩ := packet_others hgoes
    refine ⟨_, hexec, ?_⟩
    rw [issueOp, packet_ctl hgoes hwf (List.forall_mem_cons.mpr
      ⟨hwait, fun p hp => noWait_of_slot (hslot ▸ hothers p hp)⟩)]
    dsimp only
    rw [packetNext, ctlNext_cons hslot]
    obtain ⟨⟨hpc, hlevels, hrstk, hrdep, hcache⟩, hadd⟩ := ctlNext_sameSeq is.core (issueView s is.core (o :: is.others)) [o]
      (slotsDone_sameSeq s is.core (issueClock s is.core (o :: is.others)) (issueView s is.core (o :: is.others))
        (o :: is.others) (busOp is.core (issueView s is.core (o :: is.others)) (o :: is.others)))
    rw [← hr]
    exact ⟨hpc, congrArg (issueClock s is.core (o :: is.others) + 1 + ·) hadd, hlevels, hrstk, hrdep, hcache⟩
  · intro hnone hgoes
    obtain ⟨srv, hrun⟩ := packet_single_ctl hgoes hslot
    refine ⟨srv, ?_⟩
    rw [hexec, issueOp, hnone, hrun]
    dsimp only
    rw [hlone, ← hr]
    rfl

/-- A REP leads into its body, or past it (R194, R195). -/
theorem controlDone_rep (k : Nat) (n : RepCount) (j : BitVec 16) (t : Nat) (x : NCore) :
    controlDone k (.rep n j) t x =
      let start := pcWrap k (x.pc + 1)
      let stop := pcWrap k j.toNat
      let small := decide (stop + 1 - start ≤ 64)
      if repCount x n = 0 then controlEnd t 3 { x with pc := pcWrap k (stop + 1) }
      else controlEnd t 0 { x with
        pc := start, cache := if small then some start else x.cache,
        levels := { start := start, stop := stop, lc := repCount x n, dep := x.rdep,
                    hit := small && x.cache == some start } :: x.levels } := by
  have hnext : ctlNext k x [.rep n j] x = repNext k x n (pcWrap k j.toNat) x := rfl
  rw [controlDone, hnext, repNext]
  by_cases h : repCount x n = 0 <;> simp [h, controlEnd]

/-- BREAK leaves the innermost body, or with none open goes on (R196). -/
theorem controlDone_brk (k t : Nat) (x : NCore) :
    controlDone k .brk t x =
      if x.levels = [] then packetEnd k t x
      else controlEnd t 3 { x with
        levels := x.levels.drop 1, pc := pcWrap k ((x.levels.map RepLevel.stop).headD 0 + 1) } := by
  have hnext : ctlNext k x [.brk] x = breakNext k x := rfl
  rw [controlDone, hnext, breakNext]
  cases h : x.levels with
  | nil => rfl
  | cons l rest => simp [controlEnd]

/-- A packet that ends no body goes on to the next one. -/
theorem packetEnd_plain {k t : Nat} {x : NCore}
    (h : x.levels = [] ∨ ∃ l r, x.levels = l :: r ∧ ¬ (l.stop = x.pc ∧ l.dep = x.rdep)) :
    packetEnd k t x = { x with pc := pcWrap k (x.pc + 1), cyc := t + 1, gap := [] } := by
  unfold packetEnd seqNext
  rcases h with h | ⟨l, r, h, hend⟩
  · simp [h]
  · simp [h, hend]

/-- The last iteration of a body ends (R194). -/
theorem packetEnd_last {k t : Nat} {x : NCore} {l : RepLevel} {r : List RepLevel} (h : x.levels = l :: r)
    (hstop : l.stop = x.pc) (hdep : l.dep = x.rdep) (hlc : l.lc ≤ 1) :
    packetEnd k t x = { x with
      levels := { l with lc := 0, first := false } :: r, pc := pcWrap k (x.pc + 1), cyc := t + 1, gap := [] } := by
  unfold packetEnd seqNext
  simp [h, hstop, hdep, hlc]

/-- Another iteration of a body begins (R194, R197). -/
theorem packetEnd_again {k t : Nat} {x : NCore} {l : RepLevel} {r : List RepLevel} (h : x.levels = l :: r)
    (hstop : l.stop = x.pc) (hdep : l.dep = x.rdep) (hlc : 1 < l.lc) :
    packetEnd k t x = { x with
      levels := { l with lc := l.lc - 1, first := false } :: r, pc := l.start, cyc := t + 1 + returnCost l,
      gap := if returnCost l = 0 then [] else [(10, returnCost l)] } := by
  have hmore : ¬ l.lc ≤ 1 := by omega
  unfold packetEnd seqNext
  simp [h, hstop, hdep, hmore]

/-- A squashed packet only goes on (R180). -/
theorem issuePacket_squashed {s : State} {k : Nat} {g : Option (Bool × Fin 4)} {ops : List SlotOp}
    (htakes : coreTakes s k = true) (hguard : guardOn (issueCore s k) g = false) :
    let x0 := issueCore s k
    let t := x0.cyc + bankStalls (packetBanks k (landTo x0.cyc x0) [])
    (k < 32 → t < (clGet s (k / 8)).budget) → lowestExc (packetExc s k (landTo t x0) false ops) = none →
    ∃ srv, issuePacket k g ops s = { s with core := tset {} s.core k (packetEnd k t (landTo t x0)), srv := srv } := by
  intro x0 t hbudget hexc
  have hin : (decide (k < 32) && decide ((clGet s (k / 8)).budget ≤ t)) = false := by
    rw [Bool.and_eq_false_iff, decide_eq_false_iff_not, decide_eq_false_iff_not, ← imp_iff_not_or]
    intro hk
    have := hbudget hk
    omega
  have hguard' : guardOn { coreGet s k with levels := levelsOpen (coreGet s k).levels, wfi := false } g = false := hguard
  unfold issuePacket
  rw [if_neg (by simp [htakes])]
  simp only [hguard', Bool.false_eq_true, if_false, Bool.false_and]
  simp only [x0, t, issueCore] at hin hexc
  rw [hin]
  simp only [Bool.false_eq_true, if_false, hexc, packetRun]
  rw [issueAccount_srv]
  exact ⟨_, rfl⟩

/-- Settles O33: an operation of the C slot leads its packet by what the sequencer looks at, which no other slot
changes; a squashed packet runs none of its slots. -/
theorem controlCommands : Obligations.ControlCommands := by
  unfold Obligations.ControlCommands
  refine ⟨?nop, ?jmp, ?call, ?ret, ?rep, ?brk, ?plain, ?last, ?again, ?squashed⟩
  case nop =>
    exact fun _ _ => packetLeads_of_controlDone rfl rfl (by simp [noWait]) (fun _ _ => rfl) fun _ _ => rfl
  case jmp | call =>
    exact fun _ _ _ => packetLeads_of_controlDone rfl rfl (by simp [noWait]) (fun _ _ => rfl) fun _ _ => rfl
  case ret =>
    exact fun _ _ => packetLeads_of_controlDone rfl rfl (by simp [noWait]) (fun _ _ => rfl) fun _ _ => rfl
  case rep =>
    exact fun _ _ _ _ => packetLeads_of_controlDone rfl rfl (by simp [noWait]) (fun _ _ => rfl) fun _ _ =>
      controlDone_rep ..
  case brk =>
    exact fun _ _ => packetLeads_of_controlDone rfl rfl (by simp [noWait]) (fun _ _ => rfl) fun _ _ => controlDone_brk ..
  case plain => exact fun _ _ _ => packetEnd_plain
  case last => exact fun _ _ _ _ _ => packetEnd_last
  case again => exact fun _ _ _ _ _ => packetEnd_again
  case squashed =>
    intro i is o s hexec k x0 t htakes hguard hbudget hexc
    obtain ⟨srv, hrun⟩ := issuePacket_squashed htakes hguard hbudget hexc
    refine ⟨srv, ?_⟩
    rw [hexec, issueOp, hrun]
    rfl

end Sys2Proof.Machine
end

section
/-! Proofs. Waits, modes and system registers (R199, R206, R207, R209, R221). -/

namespace Sys2Proof.Machine

/-- The state with another Survey. -/
def withSrv (srv : SrvSt) (s : State) : State := { s with srv := srv }

/-- No operation of the list writes a system register. -/
def noSysWrite (l : List SlotOp) : Prop := ∀ p ∈ l, ∀ n a, p ≠ .movs (.write n a)

/-- A C-slot operation that diverts nothing ends its packet as NOP does. -/
theorem ctlNext_wait {o : SlotOp} (h : o = .waitCycle ∨ o = .sync ∨ o = .wfi ∨ o = .user ∨ o = .iret) (k : Nat)
    (x c : NCore) : ctlNext k x [o] c = seqNext k c := by
  rcases h with rfl | rfl | rfl | rfl | rfl <;> rfl

/-- Where a packet with a waiting operation stands when the operation's own part comes: its slots and its sequencing
done, its core at the next packet. -/
theorem packet_wait {s : State} {k : Nat} {g : Option (Bool × Fin 4)} {o : SlotOp} {l : List SlotOp}
    (ho : o = .waitCycle ∨ o = .sync ∨ o = .wfi ∨ o = .user ∨ o = .iret)
    (h : packetGoes s k g (o :: l) = true) (hwf : coresWf s = true) (hl : noSysWrite l) :
    let t := issueClock s k (o :: l)
    let x := issueView s k (o :: l)
    ∃ (c : NCore) (srv : SrvSt), samePlace c (packetEnd k t x) ∧
      issuePacket k g (o :: l) s =
        waitFx k x [o] (withSrv srv (corePut k c (foldS (o :: l) (storeFx k x) s))) ∧
      coresWf (foldS (o :: l) (storeFx k x) s) = true := by
  intro t x
  have hslot : slotOfOp o = .c := by rcases ho with rfl | rfl | rfl | rfl | rfl <;> rfl
  obtain ⟨srv, hrun⟩ := packet_c h hslot hl
  refine ⟨_, srv, ?_, hrun, by rw [coresWf_of (stores_core ..)]; exact hwf⟩
  dsimp only
  rw [packetNext, ctlNext_cons hslot, ctlNext_wait ho]
  obtain ⟨⟨hpc, hlevels, hrstk, hrdep, hcache⟩, hadd⟩ := seqNext_sameSeq k
    (slotsDone_sameSeq s k t x (o :: l) (busOp k x (o :: l)))
  exact ⟨hpc, congrArg (t + 1 + ·) hadd, hlevels, hrstk, hrdep, hcache⟩

/-- The same packet with no other slot. -/
theorem packet_wait_alone {s : State} {k : Nat} {g : Option (Bool × Fin 4)} {o : SlotOp}
    (ho : o = .waitCycle ∨ o = .sync ∨ o = .wfi ∨ o = .user ∨ o = .iret) (h : packetGoes s k g [o] = true) :
    ∃ srv, issuePacket k g [o] s =
      waitFx k (issueView s k [o]) [o] (withSrv srv (corePut k (packetEnd k (issueClock s k [o]) (issueView s k [o])) s)) := by
  have hslot : slotOfOp o = .c := by rcases ho with rfl | rfl | rfl | rfl | rfl <;> rfl
  obtain ⟨srv, hrun⟩ := packet_single_ctl h hslot
  refine ⟨srv, hrun.trans ?_⟩
  dsimp only
  rw [ctlNext_wait ho]
  rfl

/-- A core just put is read back, whatever the Survey. -/
theorem coreGet_corePut_srv {s : State} (h : coresWf s = true) (k : Nat) (c : NCore) (srv : SrvSt) :
    coreGet (withSrv srv (corePut k c s)) k = c := (corePut_get h k c k).trans (if_pos rfl)

/-- The last put of a core counts, whatever the Survey. -/
theorem corePut_corePut_srv {s : State} (h : coresWf s = true) (k : Nat) (c d : NCore) (srv : SrvSt) :
    corePut k d (withSrv srv (corePut k c s)) = (withSrv srv (corePut k d s)) := by
  have hcore := congrArg State.core (corePut_corePut h k c d)
  unfold withSrv corePut at *
  dsimp only at *
  rw [hcore]

/-- The part of a waiting operation that comes after the rest of its packet does `f` to its core (R199, R221). -/
def waitsBy (s : State) (k : Nat) (o : SlotOp) (f : NCore → NCore) : Prop :=
  ∀ (x c : NCore) (u : State) (srv : SrvSt), coresWf u = true → u.hub = s.hub →
    waitFx k x [o] (withSrv srv (corePut k c u)) = (withSrv srv (corePut k (f c) u))

theorem waitsBy_of_put {s : State} {k : Nat} {o : SlotOp} {f : NCore → NCore}
    (hf : ∀ (x : NCore) (u : State), u.hub = s.hub → waitFx k x [o] u = corePut k (f (coreGet u k)) u) : waitsBy s k o f := by
  intro x c u srv hwf hhub
  rw [hf x (withSrv srv (corePut k c u)) hhub, coreGet_corePut_srv hwf, corePut_corePut_srv hwf]

theorem storeFx_hub (k : Nat) (x : NCore) (o : SlotOp) (s : State) : (storeFx k x o s).hub = s.hub := by
  unfold storeFx
  split
  · dsimp only
    split
    · exact mStores_hub ..
    · rfl
  · rfl

theorem storeFx_sup (k : Nat) (x : NCore) (o : SlotOp) (s : State) : (storeFx k x o s).sup = s.sup := by
  unfold storeFx
  split
  · dsimp only
    split
    · exact mStores_sup ..
    · rfl
  · rfl

theorem stores_hub_sup (k : Nat) (x : NCore) (l : List SlotOp) (s : State) :
    (foldS l (storeFx k x) s).hub = s.hub ∧ (foldS l (storeFx k x) s).sup = s.sup := by
  unfold foldS
  induction l generalizing s with
  | nil => exact ⟨rfl, rfl⟩
  | cons o l ih =>
    obtain ⟨hhub, hsup⟩ := ih (storeFx k x o s)
    exact ⟨hhub.trans (storeFx_hub ..), hsup.trans (storeFx_sup ..)⟩

section
variable {i : Instr} {is : Issue} {o : SlotOp} {s : State} {f : NCore → NCore}

/-- A waiting operation among others: its core stands at the next packet, with what the operation did. -/
theorem packetAmong_wait {P : NCore → Prop} (hexec : exec i s = finish s (issueOp is o s))
    (ho : o = .waitCycle ∨ o = .sync ∨ o = .wfi ∨ o = .user ∨ o = .iret) (hl : noSysWrite is.others)
    (hf : waitsBy s is.core o f) (hplace : ∀ c e, samePlace c e → samePlace (f c) e ∧ P (f c)) :
    packetAmong i is o s (fun t x c => samePlace c (packetEnd is.core t x) ∧ P c) := by
  intro hgoes hwf
  obtain ⟨c, srv, hat, hrun, hstored⟩ := packet_wait ho hgoes hwf hl
  refine ⟨_, hexec, ?_⟩
  rw [issueOp, hrun, hf _ _ _ _ hstored (stores_hub_sup ..).1, coreGet_corePut_srv hstored]
  exact hplace _ _ hat

/-- A waiting operation alone changes its core and the Survey. -/
theorem alone_wait (hexec : exec i s = finish s (issueOp is o s))
    (ho : o = .waitCycle ∨ o = .sync ∨ o = .wfi ∨ o = .user ∨ o = .iret) (hf : waitsBy s is.core o f)
    (hnone : is.others = []) (hwf : coresWf s = true) (hgoes : packetGoes s is.core is.guard [o] = true) :
    ∃ srv, exec i s = .next (placed s { s with
      core := tset {} s.core is.core (f (packetEnd is.core (issueClock s is.core [o]) (issueView s is.core [o]))),
      srv := srv }) := by
  obtain ⟨srv, hrun⟩ := packet_wait_alone ho hgoes
  refine ⟨srv, ?_⟩
  rw [hexec, issueOp, hnone, hrun, hf _ _ _ _ hwf rfl]
  rfl

end

/-- WAIT_CYCLE: a cluster core drains, the supervisor waits for the cycle (R199). -/
theorem waitsBy_waitCycle (s : State) (k : Fin 33) :
    waitsBy s k .waitCycle (fun c => if k = 32 then { c with st := 1 } else { c with drain := true }) := by
  refine waitsBy_of_put fun x u _ => ?_
  have hval : k.val = 32 ↔ k = 32 := (Fin.ext_iff (b := (32 : Fin 33))).symm
  show (if k.val = 32 then corePut k { coreGet u k with st := 1 } u else corePut k { coreGet u k with drain := true } u) = _
  by_cases hk : k = 32
  · rw [if_pos (hval.mpr hk), if_pos hk]
  · rw [if_neg (mt hval.mp hk), if_neg hk]

/-- SYNC: a member of the barrier waits at it, any other core goes on (R221). -/
theorem waitsBy_sync (s : State) (k : Fin 33) :
    waitsBy s k .sync (fun c => if k ≠ 32 ∧ lb s (clBase (k / 8) + 0x1C) (k % 8) = true then { c with sync := true } else c) := by
  intro x c u srv hwf hhub
  have hval : k.val ≠ 32 ↔ k ≠ 32 := not_congr (Fin.ext_iff (b := (32 : Fin 33))).symm
  have hlb : lb (withSrv srv (corePut k c u)) (clBase (k / 8) + 0x1C) (k % 8) = lb s (clBase (k / 8) + 0x1C) (k % 8) :=
    lb_of (congrArg (·.live) hhub) _ _
  show (if (k.val != 32 && lb (withSrv srv (corePut k c u)) (clBase (k / 8) + 0x1C) (k % 8)) = true then
    corePut k { coreGet (withSrv srv (corePut k c u)) k with sync := true } (withSrv srv (corePut k c u))
    else (withSrv srv (corePut k c u))) = _
  rw [hlb]
  simp only [Bool.and_eq_true, bne_iff_ne, hval]
  split
  · rw [coreGet_corePut_srv hwf, corePut_corePut_srv hwf]
  · rfl

/-- WFI: the core idles until an interrupt line stands (R206). -/
theorem waitsBy_wfi (s : State) (k : Fin 33) : waitsBy s k .wfi (fun c => { c with wfi := true }) :=
  waitsBy_of_put fun _ _ _ => rfl

/-- A write of a system register changes the supervisor's registers only, by their own values. -/
theorem sysWrite_sup (n : Nat) (v : Word) (s : State) : sysWrite n v s = { s with sup := (sysWrite n v s).sup } := by
  unfold sysWrite; dsimp only; (repeat' split) <;> rfl

theorem sysWrite_sup_congr (n : Nat) (v : Word) {s t : State} (h : s.sup = t.sup) :
    (sysWrite n v s).sup = (sysWrite n v t).sup := by
  unfold sysWrite
  rw [h]
  dsimp only
  (repeat' split) <;> simp only [h]

/-- Operations that change no system register. -/
theorem waitFx_sup (k : Nat) (x : NCore) (l : List SlotOp) (s : State) (hl : noSysWrite l)
    (h : ∀ p ∈ l, p ≠ SlotOp.user ∧ p ≠ .iret) : (waitFx k x l s).sup = s.sup := by
  induction l generalizing s with
  | nil => rfl
  | cons o l ih =>
    obtain ⟨huser, hiret⟩ := h o (by simp)
    have hrest := ih (waitFx k x [o] s) (fun p hp => hl p (by simp [hp])) (fun p hp => h p (by simp [hp]))
    refine hrest.trans ?_
    unfold waitFx foldS
    cases o with
    | user => exact absurd rfl huser
    | iret => exact absurd rfl hiret
    | waitCycle | sync => dsimp only [List.foldl_cons, List.foldl_nil]; split <;> rfl
    | movs mv =>
      cases mv with
      | read => rfl
      | write n a => exact absurd rfl (hl _ (by simp) n a)
    | _ => rfl

/-- A packet with a MOVS to a system register: the register is written by what its source held at issue (R207). -/
theorem packet_movs_sup {s : State} {k : Nat} {g : Option (Bool × Fin 4)} {n : Nat} {a : VReg} {l : List SlotOp}
    (h : packetGoes s k g (.movs (.write n a) :: l) = true) (hl : ∀ p ∈ l, p ≠ SlotOp.user ∧ p ≠ .iret) :
    (issuePacket k g (.movs (.write n a) :: l) s).sup =
      (sysWrite n (vGet (issueView s k (.movs (.write n a) :: l)) a) s).sup := by
  obtain ⟨back, gap, hrun⟩ := packet_goes h
  obtain ⟨hothers, -⟩ := packet_others h
  have hnone : noSysWrite l := fun p hp m b heq => hothers p hp (by rw [heq]; rfl)
  rw [hrun]
  dsimp only
  rw [packetSrv_eq]
  generalize packetSrv _ _ _ _ _ _ _ _ _ _ = z
  rw [show ∀ u, waitFx k (issueView s k (.movs (.write n a) :: l)) (.movs (.write n a) :: l) u =
    waitFx k (issueView s k (.movs (.write n a) :: l)) l (sysWrite n (vGet (issueView s k (.movs (.write n a) :: l)) a) u)
    from fun _ => rfl, waitFx_sup _ _ _ _ hnone hl]
  exact sysWrite_sup_congr _ _ (stores_hub_sup ..).2

/-- The same packet with no other slot changes its core, the supervisor's registers and the Survey. -/
theorem packet_movs_alone {s : State} {k : Nat} {g : Option (Bool × Fin 4)} {n : Nat} {a : VReg}
    (h : packetGoes s k g [.movs (.write n a)] = true) :
    ∃ srv, issuePacket k g [.movs (.write n a)] s = { s with
      sup := (issuePacket k g [.movs (.write n a)] s).sup, srv := srv,
      core := tset {} s.core k (packetEnd k (issueClock s k [.movs (.write n a)]) (issueView s k [.movs (.write n a)])) } := by
  obtain ⟨back, gap, hrun⟩ := packet_goes h
  rw [hrun]
  dsimp only
  rw [packetSrv_eq]
  generalize packetSrv _ _ _ _ _ _ _ _ _ _ = z
  rw [show ∀ x u, waitFx k x [.movs (.write n a)] u = sysWrite n (vGet x a) u from fun _ _ => rfl, sysWrite_sup]
  exact ⟨z.srv, rfl⟩

/-- USER among others: the mode is USER after the packet (R206). -/
theorem packet_user_sup {s : State} {k : Nat} {g : Option (Bool × Fin 4)} {l : List SlotOp}
    (h : packetGoes s k g (.user :: l) = true) (hwf : coresWf s = true) (hl : noSysWrite l) :
    (issuePacket k g (.user :: l) s).sup = { s.sup with sstat := s.sup.sstat ||| 1 } := by
  obtain ⟨c, srv, -, hrun, -⟩ := packet_wait (o := .user) (by simp) h hwf hl
  rw [hrun]
  show { (foldS (SlotOp.user :: l) (storeFx k _) s).sup with
    sstat := (foldS (SlotOp.user :: l) (storeFx k (issueView s k (.user :: l))) s).sup.sstat ||| 1 } = _
  rw [(stores_hub_sup ..).2]

/-- An IRET among slots that store nothing: the frame at SSP is restored (R209). -/
theorem packet_iret {s : State} {g : Option (Bool × Fin 4)} {l : List SlotOp}
    (h : packetGoes s 32 g (.iret :: l) = true) (hwf : coresWf s = true) (hl : noSysWrite l)
    (hst : ∀ p ∈ l, ∀ w sl v ea, p ≠ .st w sl v ea) :
    ∃ (c : NCore) (srv : SrvSt), samePlace c (packetEnd 32 (issueClock s 32 (.iret :: l)) (issueView s 32 (.iret :: l))) ∧
      issuePacket 32 g (.iret :: l) s = framePop (withSrv srv (corePut 32 c s)) := by
  obtain ⟨c, srv, hat, hrun, -⟩ := packet_wait (o := .iret) (by simp) h hwf hl
  refine ⟨c, srv, hat, hrun.trans ?_⟩
  have hstores : ∀ x, foldS (.iret :: l) (storeFx 32 x) s = s := by
    intro x
    show foldS l (storeFx 32 x) s = s
    unfold foldS
    clear h hl hat hrun
    induction l with
    | nil => rfl
    | cons p l ih =>
      rw [List.foldl_cons, storeFx_of_ne_st (hst p (by simp))]
      exact ih fun q hq => hst q (by simp [hq])
  rw [hstores]
  rfl

/-- A packet leaves the return stack that its levels and calls left: an IRET's packet calls nothing. -/
theorem packetEnd_rstk (k t : Nat) (x : NCore) : (packetEnd k t x).rstk = x.rstk := by
  unfold packetEnd seqNext
  dsimp only
  (repeat' split) <;> rfl

/-- What a frame restores of the levels depends on the levels of the core it finds. -/
theorem frameLevels_congr {c e : NCore} (h : c.levels = e.levels) (w : Nat → Nat) : frameLevels c w = frameLevels e w := by
  unfold frameLevels; rw [h]

/-- A word of IEN and the other (R207). -/
theorem sysRead_ien (v : Word) (s : State) :
    sysRead (sysWrite 8 v s) 8 = v ∧ sysRead (sysWrite 8 v s) 9 = sysRead s 9 ∧
      sysRead (sysWrite 9 v s) 9 = v ∧ sysRead (sysWrite 9 v s) 8 = sysRead s 8 := by
  have hlt := v.isLt
  have hread8 : ∀ t : State, sysRead t 8 = wd t.sup.ien := fun _ => rfl
  have hread9 : ∀ t : State, sysRead t 9 = wd (t.sup.ien / 2 ^ 32) := fun _ => rfl
  have hien8 : (sysWrite 8 v s).sup.ien = s.sup.ien / 2 ^ 32 * 2 ^ 32 + v.toNat := rfl
  have hien9 : (sysWrite 9 v s).sup.ien = v.toNat * 2 ^ 32 + s.sup.ien % 2 ^ 32 := rfl
  rw [hread8, hread9, hread9, hread8, hread8, hread9, hien8, hien9]
  refine ⟨?_, ?_, ?_, ?_⟩ <;> apply BitVec.eq_of_toNat_eq <;> simp only [wd, BitVec.toNat_ofNat] <;> omega

/-- A locked region of the guard ignores writes (R208). -/
theorem sysWrite_locked {s : State} {g : Fin 8} (h : bit (tget 0 s.sup.grd (2 * g.val)) 4 = true) (v : Word) {n : Nat}
    (hn : n = 32 + 2 * g.val ∨ n = 33 + 2 * g.val) : sysWrite n v s = s := by
  have hg := g.isLt
  have hhalf : (n - 32) / 2 = g.val := by omega
  unfold sysWrite
  rw [if_neg (by omega), if_neg (by omega), if_neg (by omega), if_neg (by omega), if_neg (by omega),
    if_neg (by simp; omega), if_pos (by simp; omega)]
  dsimp only
  rw [hhalf, if_pos h]

/-- Settles O34: the own part of a waiting operation comes after the rest of its packet, on a core that already stands
at the next packet. -/
theorem waitAndModeCommands : Obligations.WaitAndModeCommands := by
  unfold Obligations.WaitAndModeCommands
  refine ⟨?waitCycle, ?waitCycleAlone, ?sync, ?syncAlone, ?wfi, ?wfiAlone, ?user, ?iret, ?read, ?write, ?registers⟩
  case waitCycle =>
    refine fun is s hl => packetAmong_wait (P := fun c => if is.core = 32 then c.st = 1 else c.drain = true) rfl (by simp) hl
      (waitsBy_waitCycle s is.core) fun c e h => ?_
    split <;> exact ⟨h, rfl⟩
  case waitCycleAlone =>
    intro is s hnone hwf hgoes e
    obtain ⟨srv, hrun⟩ := alone_wait (i := .waitCycle is) rfl (by simp) (waitsBy_waitCycle s is.core) hnone hwf hgoes
    exact ⟨srv, hrun⟩
  case sync =>
    refine fun is s hl => packetAmong_wait (P := fun c =>
      is.core ≠ 32 ∧ lb s (clBase (is.core / 8) + 0x1C) (is.core % 8) = true → c.sync = true) rfl (by simp) hl
      (waitsBy_sync s is.core) fun c e h => ?_
    split
    · exact ⟨h, fun _ => rfl⟩
    · exact ⟨h, fun hmember => absurd hmember (by assumption)⟩
  case syncAlone =>
    intro is s hnone hwf hgoes e
    obtain ⟨srv, hrun⟩ := alone_wait (i := .sync is) rfl (by simp) (waitsBy_sync s is.core) hnone hwf hgoes
    exact ⟨srv, hrun⟩
  case wfi => exact fun is s hl => packetAmong_wait rfl (by simp) hl (waitsBy_wfi s is.core) fun _ _ h => ⟨h, rfl⟩
  case wfiAlone =>
    intro is s hnone hwf hgoes e
    obtain ⟨srv, hrun⟩ := alone_wait (i := .wfi is) rfl (by simp) (waitsBy_wfi s is.core) hnone hwf hgoes
    exact ⟨srv, hrun⟩
  case user =>
    intro is s hgoes hwf hl
    have hsup := packet_user_sup hgoes hwf hl
    refine ⟨_, rfl, hsup, fun hnone => ?_⟩
    rw [issueOp, hsup]
    rw [hnone] at hgoes ⊢
    obtain ⟨srv, hrun⟩ := packet_wait_alone (by simp) hgoes
    rw [hrun]
    rfl
  case iret =>
    intro is s hgoes hwf hcore hl w x
    rw [hcore] at hgoes
    obtain ⟨c, srv, ⟨-, -, hlevels, hrstk, -, -⟩, hrun⟩ :=
      packet_iret hgoes hwf (fun p hp => (hl p hp).1) (fun p hp => (hl p hp).2)
    have hget : coreGet (framePop (withSrv srv (corePut 32 c s))) 32 = { c with
        pc := w 0 % 65536, flags := wd (w 2) &&& 0x1FF#32, levels := frameLevels c w, rdep := min 8 (w 15 / 256 % 16) } := by
      unfold framePop
      dsimp only
      rw [coreGet_corePut_srv hwf]
      exact (tget_tset (corePut_wf hwf 32 c) 32 _ 32).trans (if_pos rfl)
    refine ⟨_, rfl, ?_⟩
    rw [issueOp, hcore]
    rw [show ((32 : Fin 33) : Nat) = 32 from rfl, hrun, hget]
    exact ⟨rfl, rfl, rfl, frameLevels_congr hlevels w, rfl, hrstk.trans (packetEnd_rstk ..), rfl⟩
  case read =>
    exact fun _ _ _ _ => packetGives_of_opFx rfl rfl (fun _ _ => by simp) (by simp [opVDst]) fun _ _ => rfl
  case write =>
    intro is n a s hgoes hwf hl
    refine ⟨_, rfl, packet_movs_sup hgoes hl, fun hnone => ?_⟩
    rw [issueOp]
    rw [hnone] at hgoes ⊢
    obtain ⟨srv, hrun⟩ := packet_movs_alone hgoes
    rw [hrun]
  case registers =>
    intro v s
    refine ⟨rfl, rfl, rfl, ?_⟩
    obtain ⟨h8, h89, h9, h98⟩ := sysRead_ien v s
    refine ⟨h8, h89, h9, h98, ?_, fun g hg => ⟨sysWrite_locked hg v (.inl rfl), sysWrite_locked hg v (.inr rfl)⟩⟩
    rintro n (rfl | rfl | rfl | rfl | rfl) <;> rfl

end Sys2Proof.Machine
end

section
/-! Proofs. Exceptions of a packet, frames, interrupts and the bus side of a core (R193, R203, R208 to R210). -/

namespace Sys2Proof.Machine

/-! ### Frames -/

/-- The supervisor's frame area takes a frame: SSP is aligned and the guard denies neither half (R210). -/
def frameFits (s : State) : Prop :=
  s.sup.ssp.toNat % 64 = 0 ∧ guardDenies s false .write (s.sup.ssp - 64).toNat = false ∧
    guardDenies s false .write ((s.sup.ssp - 64).toNat + 32) = false

theorem guardDenies_of {s t : State} (h : s.sup = t.sup) (user : Bool) (g : GuardKind) (a : Nat) :
    guardDenies s user g a = guardDenies t user g a := by
  unfold guardDenies guardHit
  rw [h]

theorem frameFits_of {s t : State} (h : s.sup = t.sup) : frameFits s ↔ frameFits t := by
  unfold frameFits
  rw [guardDenies_of h, guardDenies_of h, h]

theorem frameWords_of {s t : State} (h : s.sup = t.sup) (x : NCore) : frameWords s x = frameWords t x := by
  unfold frameWords
  rw [h]

theorem mStores_mem_of {s t : State} (h : s.mem = t.mem) (a : Nat) (l : List Byte) :
    (mStores a l s).mem = (mStores a l t).mem := by
  induction l generalizing a s t with
  | nil => exact h
  | cons b l ih => exact ih (congrArg (fun m => tabSet memReset m a b) h) (a + 1)

theorem mStoreWs_mem_of {s t : State} (h : s.mem = t.mem) (a : Nat) (l : List Nat) :
    (mStoreWs a l s).mem = (mStoreWs a l t).mem := by
  induction l generalizing a s t with
  | nil => exact h
  | cons v l ih => exact ih (mStores_mem_of h a _) (a + 4)

/-- A store of words leaves the supervisor, the cores, the hub and the faults. -/
theorem mStoreWs_frame (a : Nat) (l : List Nat) (s : State) :
    (mStoreWs a l s).sup = s.sup ∧ (mStoreWs a l s).core = s.core ∧ (mStoreWs a l s).hub = s.hub ∧
      (mStoreWs a l s).flt = s.flt := by
  induction l generalizing a s with
  | nil => exact ⟨rfl, rfl, rfl, rfl⟩
  | cons v l ih =>
    obtain ⟨hsup, hcore, hhub, hflt⟩ := ih (a + 4) (mStoreW a v s)
    exact ⟨hsup.trans (mStoreW_sup ..), hcore.trans (mStoreW_core ..), hhub.trans (mStoreW_hub ..), hflt.trans (mStoreW_flt ..)⟩

theorem framePush_none {s : State} (h : ¬ frameFits s) (x : NCore) : framePush x s = none := by
  unfold framePush
  refine if_pos ?_
  simp only [frameFits, not_and_or, Bool.not_eq_false] at h
  simp only [Bool.or_eq_true, bne_iff_ne]
  tauto

/-- The state after a frame of the words `ws` was stored at `a`. -/
def pushedFrame (a : Nat) (ws : List Nat) (s : State) : State :=
  { eccWritten a 64 (mStoreWs a ws s) with sup.ssp := s.sup.ssp - 64 }

theorem pushedFrame_frame (a : Nat) (ws : List Nat) (s : State) :
    (pushedFrame a ws s).sup = { s.sup with ssp := s.sup.ssp - 64 } ∧
      (pushedFrame a ws s).mem = (mStoreWs a ws s).mem ∧ (pushedFrame a ws s).core = s.core ∧
      (pushedFrame a ws s).hub = s.hub ∧ (pushedFrame a ws s).flt = s.flt := by
  obtain ⟨hsup, hcore, hhub, hflt⟩ := mStoreWs_frame a ws s
  refine ⟨?_, rfl, hcore, hhub, hflt⟩
  simp only [pushedFrame, eccWritten, hsup]

/-- A frame in supervisor RAM is 16 words stored below SSP. -/
theorem framePush_ram {s : State} (h : frameFits s) (hram : inSupRam (s.sup.ssp - 64).toNat = true) (x : NCore) :
    framePush x s = some (pushedFrame (s.sup.ssp - 64).toNat (frameWords s x) s) := by
  obtain ⟨hal, hlo, hhi⟩ := h
  unfold framePush pushedFrame
  generalize (s.sup.ssp - 64).toNat = a at *
  dsimp only
  rw [if_neg (by simp [hal, hlo, hhi]), if_pos hram]

/-! ### Exceptions -/

/-- A packet whose guard holds, within the budget, raises its lowest cause. -/
theorem issuePacket_raises {s : State} {k : Nat} {g : Option (Bool × Fin 4)} {ops : List SlotOp} {e : Nat × Option Nat}
    (htakes : coreTakes s k = true) (hguard : guardOn (issueCore s k) g = true)
    (hbudget : k < 32 → issueClock s k ops < (clGet s (k / 8)).budget)
    (hexc : lowestExc (packetExc s k (issueView s k ops) true ops) = some e) :
    issuePacket k g ops s =
      excFx k (issueClock s k ops) (issueClock s k ops - (issueCore s k).cyc) (issueView s k ops) e ops s := by
  have hin : (decide (k < 32) && decide ((clGet s (k / 8)).budget ≤ issueClock s k ops)) = false := by
    rw [Bool.and_eq_false_iff, decide_eq_false_iff_not, decide_eq_false_iff_not, ← imp_iff_not_or]
    intro hk
    have := hbudget hk
    omega
  have hguard' : guardOn { coreGet s k with levels := levelsOpen (coreGet s k).levels, wfi := false } g = true := hguard
  unfold issuePacket
  rw [if_neg (by simp [htakes])]
  simp only [hguard', if_true]
  refine (if_neg (Bool.eq_false_iff.mp hin)).trans ?_
  simp only [issueView, issueClock, issueCore] at hexc
  simp only [hexc]
  rfl

/-- The fault of the program memory that a cause 2 detects. -/
def excFault (code : Nat) (s : State) : State := if code = 2 then raise 0x0112 2 255 0 s else s

theorem whenS_excFault (code : Nat) (s : State) : whenS (code == 2) (raise 0x0112 2 255 0) s = excFault code s := by
  unfold whenS excFault
  simp only [beq_iff_eq]

theorem excFault_frame (code : Nat) (s : State) :
    (excFault code s).sup = s.sup ∧ (excFault code s).core = s.core ∧ (excFault code s).hub = s.hub ∧
      (excFault code s).mem = s.mem := by
  unfold excFault
  split <;> exact ⟨rfl, rfl, rfl, rfl⟩

theorem excFault_srv (code : Nat) (srv : SrvSt) (k : Nat) (c : NCore) (s : State) :
    (excFault code (withSrv srv (corePut k c s))).flt = (excFault code s).flt := by
  unfold excFault
  split <;> rfl

/-- A supervisor exception whose frame area is not to be had is a double fault. -/
theorem supException_double {s : State} (h : ¬ frameFits s) (code n : Nat) (ea : Option Nat) :
    supException code n ea s = raise 0x0111 3 255 0 (excFault code s) := by
  have hpush : framePush (coreGet (excFault code s) 32) (excFault code s) = none :=
    framePush_none (mt (frameFits_of (excFault_frame code s).1).mp h) _
  unfold supException
  dsimp only
  rw [whenS_excFault, hpush]

/-- A supervisor exception with its frame in supervisor RAM. -/
theorem supException_ram {s : State} (hwf : coresWf s = true) (h : frameFits s)
    (hram : inSupRam (s.sup.ssp - 64).toNat = true) (code n : Nat) (ea : Option Nat) :
    let x := coreGet s 32
    let u := supException code n ea s
    coreGet u 32 = { x with pc := (s.sup.vbase.toNat / 16 + 64 + code) % 65536, wfi := false } ∧
      u.sup = { s.sup with
        ssp := s.sup.ssp - 64, sstat := sstatWith false 15 s.sup.sstat, epc := wd x.pc, ecause := wd (code + n * 256),
        eaddr := (ea.map wd).getD s.sup.eaddr } ∧
      u.mem = (mStoreWs (s.sup.ssp - 64).toNat (frameWords s x) s).mem ∧ u.hub = s.hub ∧ u.flt = (excFault code s).flt := by
  intro x u
  obtain ⟨hsup, hcore, hhub, hmem⟩ := excFault_frame code s
  have hx : coreGet (excFault code s) 32 = x := core_of hcore 32
  have hpush := framePush_ram ((frameFits_of hsup).mpr h) (by rw [hsup]; exact hram) x
  rw [frameWords_of hsup, hsup] at hpush
  obtain ⟨tsup, tmem, tcore, thub, tflt⟩ :=
    pushedFrame_frame (s.sup.ssp - 64).toNat (frameWords s x) (excFault code s)
  generalize pushedFrame (s.sup.ssp - 64).toNat (frameWords s x) (excFault code s) = t at *
  rw [hsup] at tsup
  have hu : u = corePut 32 { x with pc := (t.sup.vbase.toNat / 16 + 64 + code) % 65536, wfi := false }
      { t with sup := { t.sup with sstat := sstatWith false 15 t.sup.sstat, epc := wd x.pc, ecause := wd (code + n * 256),
                                   eaddr := (ea.map wd).getD t.sup.eaddr } } := by
    show supException code n ea s = _
    unfold supException
    dsimp only
    rw [whenS_excFault, hx, hpush]
  rw [hu, tsup]
  refine ⟨?_, rfl, ?_, thub.trans hhub, tflt⟩
  · exact (corePut_get ((coresWf_of (tcore.trans hcore)).trans hwf) 32 _ 32).trans (if_pos rfl)
  · show t.mem = _
    rw [tmem, mStoreWs_mem_of hmem]

/-- Two counts of a core change the Survey only. -/
theorem srvCore_twice (k i n j m : Nat) (s : State) : ∃ srv, srvCore k i n (srvCore k j m s) = withSrv srv s := by
  rw [srvCore_srv, srvCore_srv (s := s)]
  exact ⟨_, rfl⟩

/-- An exception of the supervisor's packet: its registers stand at the next clock before the entry. -/
theorem packet_raises_sup {s : State} {g : Option (Bool × Fin 4)} {ops : List SlotOp} {e : Nat × Option Nat}
    (htakes : coreTakes s 32 = true) (hguard : guardOn (issueCore s 32) g = true)
    (hexc : lowestExc (packetExc s 32 (issueView s 32 ops) true ops) = some e) :
    ∃ srv, issuePacket 32 g ops s = supException e.1 (if e.1 = 6 then trapOf ops else 0) e.2
      (withSrv srv (corePut 32 { issueView s 32 ops with cyc := issueClock s 32 ops + 1, gap := [] } s)) := by
  obtain ⟨srv, hsrv⟩ := srvCore_twice 32 1 1 3 (issueClock s 32 ops - (issueCore s 32).cyc)
    (corePut 32 { issueView s 32 ops with cyc := issueClock s 32 ops + 1, gap := [] } s)
  refine ⟨srv, ?_⟩
  rw [issuePacket_raises htakes hguard (fun h => absurd h (by decide)) hexc, ← hsrv]
  rfl

/-- The entry of the supervisor's exception: with a frame in supervisor RAM. -/
theorem packet_raises_ram {s : State} {g : Option (Bool × Fin 4)} {ops : List SlotOp} {e : Nat × Option Nat}
    (hwf : coresWf s = true) (htakes : coreTakes s 32 = true) (hguard : guardOn (issueCore s 32) g = true)
    (hexc : lowestExc (packetExc s 32 (issueView s 32 ops) true ops) = some e) (hfit : frameFits s)
    (hram : inSupRam (s.sup.ssp - 64).toNat = true) :
    let x := { issueView s 32 ops with cyc := issueClock s 32 ops + 1, gap := [] }
    let u := issuePacket 32 g ops s
    coreGet u 32 = { x with pc := (s.sup.vbase.toNat / 16 + 64 + e.1) % 65536, wfi := false } ∧
      u.sup = { s.sup with
        ssp := s.sup.ssp - 64, sstat := sstatWith false 15 s.sup.sstat, epc := wd x.pc,
        ecause := wd (e.1 + (if e.1 = 6 then trapOf ops else 0) * 256), eaddr := (e.2.map wd).getD s.sup.eaddr } ∧
      u.mem = (mStoreWs (s.sup.ssp - 64).toNat (frameWords s x) s).mem ∧ u.hub = s.hub ∧
      u.flt = (excFault e.1 s).flt := by
  intro x u
  obtain ⟨srv, hrun⟩ := packet_raises_sup htakes hguard hexc
  rw [show u = _ from hrun]
  have hsup0 : (withSrv srv (corePut 32 x s)).sup = s.sup := rfl
  have hmem0 : (withSrv srv (corePut 32 x s)).mem = s.mem := rfl
  obtain ⟨hcore, hsup, hmem, hhub, hflt⟩ := supException_ram (s := withSrv srv (corePut 32 x s))
    (corePut_wf hwf 32 x) ((frameFits_of hsup0).mpr hfit) (by rw [hsup0]; exact hram) e.1 (if e.1 = 6 then trapOf ops else 0) e.2
  rw [coreGet_corePut_srv hwf] at hcore hsup hmem
  rw [hsup0] at hcore hsup hmem
  rw [frameWords_of hsup0, mStoreWs_mem_of hmem0] at hmem
  generalize supException e.1 _ e.2 (withSrv srv (corePut 32 x s)) = v at *
  exact ⟨hcore, hsup, hmem, hhub, hflt.trans (excFault_srv ..)⟩

/-- The entry of the supervisor's exception whose frame area is not to be had. -/
theorem packet_raises_double {s : State} {g : Option (Bool × Fin 4)} {ops : List SlotOp} {e : Nat × Option Nat}
    (hwf : coresWf s = true) (htakes : coreTakes s 32 = true) (hguard : guardOn (issueCore s 32) g = true)
    (hexc : lowestExc (packetExc s 32 (issueView s 32 ops) true ops) = some e) (hfit : ¬ frameFits s) :
    let x := { issueView s 32 ops with cyc := issueClock s 32 ops + 1, gap := [] }
    let u := issuePacket 32 g ops s
    u.sup = s.sup ∧ u.mem = s.mem ∧ coreGet u 32 = x ∧ u.flt = (raise 0x0111 3 255 0 (excFault e.1 s)).flt := by
  intro x u
  obtain ⟨srv, hrun⟩ := packet_raises_sup htakes hguard hexc
  obtain ⟨hsup, hcore, hhub, hmem⟩ := excFault_frame e.1 (withSrv srv (corePut 32 x s))
  simp only [u, hrun]
  rw [supException_double (s := withSrv srv (corePut 32 x s)) hfit]
  refine ⟨hsup, hmem, (core_of hcore 32).trans (coreGet_corePut_srv hwf 32 x srv), ?_⟩
  unfold excFault
  split <;> rfl

/-- Why the supervisor has no frame area. -/
theorem not_frameFits {s : State} (h : s.sup.ssp.toNat % 64 ≠ 0 ∨ guardDenies s false .write (s.sup.ssp - 64).toNat = true ∨
    guardDenies s false .write ((s.sup.ssp - 64).toNat + 32) = true) : ¬ frameFits s := by
  rintro ⟨hal, hlo, hhi⟩
  rcases h with h | h | h
  · exact h hal
  · rw [hlo] at h
    cases h
  · rw [hhi] at h
    cases h

/-- Settles O35: a cluster core records its lowest cause and halts; the supervisor enters its handler when its frame
area takes the frame, and detects a double fault otherwise. -/
theorem packetExceptions : Obligations.PacketExceptions := by
  unfold Obligations.PacketExceptions
  refine ⟨?_, ?_, ?_⟩
  · intro i is o e s hexec k ops t htakes hguard hk hbudget hexc c s1 s2 s3
    rw [hexec, issueOp, issuePacket_raises htakes hguard (fun _ => hbudget) hexc, excFx]
    rw [if_neg (Nat.ne_of_lt hk)]
    rfl
  · intro i is o e s hexec ops t a hcore hwf htakes hguard hexc x trapN
    have hrun : exec i s = .next (placed s (issuePacket 32 is.guard ops s)) := by
      rw [hexec, issueOp, hcore]
      rfl
    refine ⟨fun hal hlo hhi hram => ?_, fun hbad => ?_⟩
    · obtain ⟨hget, hsup, hmem, hhub, hflt⟩ := packet_raises_ram hwf htakes hguard hexc ⟨hal, hlo, hhi⟩ hram
      refine ⟨_, hrun, hget, hsup.trans ?_, hmem, hhub, hflt.trans (apply_ite State.flt ..)⟩
      cases e.2 <;> rfl
    · obtain ⟨hsup, hmem, hget, hflt⟩ := packet_raises_double hwf htakes hguard hexc (not_frameFits hbad)
      exact ⟨_, hrun, hsup, hmem, hget, hflt⟩
  · intro is n s ops a hcore hwf htakes hguard hexc hal hlo hhi hram
    have hrun : exec (.trap is n) s = .next (placed s (issuePacket 32 is.guard ops s)) := by
      show finish s (issuePacket is.core is.guard ops s) = _
      rw [hcore]
      rfl
    obtain ⟨hget, hsup, hmem, hhub, hflt⟩ := packet_raises_ram hwf htakes hguard hexc ⟨hal, hlo, hhi⟩ hram
    exact ⟨_, hrun, congrArg NCore.pc hget, hsup, hmem, hhub, hflt⟩

/-- A bus load that no reset and no snapshot holds returns. -/
theorem loadReturnFx_of {k n : Nat} {l : BusLoad} {s : State} (hload : (coreGet s k).load = some l)
    (hreset : waitsReset s l.addr.toNat = false) (hsnap : waitsSnap s l.addr.toNat false = false) :
    let r := busRead (masterOfCore k) l.addr.toNat (accSizeOf (!l.dbl)) s
    let y := coreGet r.2 k
    let t := y.cyc + n
    let y1 := fly t l.d (wd r.1) { y with load := none, cyc := t, gap := tset 0 y.gap 3 (tget 0 y.gap 3 + n) }
    let y2 := if l.dbl then fly t (l.d + 1) (wd (r.1 / 2 ^ 32)) y1 else y1
    let s1 := srvCore k 3 n (corePut k y2 r.2)
    loadReturnFx k n s =
      { s1 with srv.wait := s1.srv.wait.map (fun e => if e.core = k && e.lat = 0 then { e with lat := e.held + 1 + n } else e) } := by
  unfold loadReturnFx
  dsimp only
  rw [hload]
  dsimp only
  rw [if_neg (by simp [hreset, hsnap])]

/-- The oldest posted write, which no reset holds, is written; then a packet that waited for room issues. -/
theorem postedDoneFx_of {k : Nat} {p : Posted} {rest : List Posted} {s : State} (hposted : (coreGet s k).posted = p :: rest)
    (hreset : waitsReset s p.addr.toNat = false) :
    let s1 := busWrite (masterOfCore k) p.addr.toNat p.size p.val (corePut k { coreGet s k with posted := rest } s)
    let y := coreGet s1 k
    (y.heldP = none → postedDoneFx k s = s1) ∧
      ∀ g ops, y.heldP = some (g, ops) → postedDoneFx k s = issuePacket k g ops (corePut k { y with heldP := none } s1) := by
  intro s1 y
  unfold postedDoneFx
  dsimp only
  rw [hposted]
  dsimp only
  rw [if_neg (by simp [hreset])]
  refine ⟨fun hnone => ?_, fun g ops hheld => ?_⟩
  · rw [show (coreGet _ k).heldP = _ from hnone]
  · rw [show (coreGet _ k).heldP = _ from hheld]

/-- An interrupt with its frame in supervisor RAM. -/
theorem interruptFx_ram {n i : Nat} {s : State} (hwf : coresWf s = true) (hbetween : supBetween s = true)
    (hie : supIe s = true) (hline : bestLine s = some i) (hfit : frameFits s)
    (hram : inSupRam (s.sup.ssp - 64).toNat = true) :
    let x0 := coreGet s 32
    let x := { x0 with levels := x0.levels.dropWhile (fun l => l.lc == 0) }
    let u := interruptFx n s
    coreGet u 32 = { x with
        pc := (s.sup.vbase.toNat / 16 + i) % 65536, wfi := false, cyc := x.cyc + min 24 n } ∧
      u.sup = { s.sup with
        ssp := s.sup.ssp - 64, sstat := sstatWith false (linePri s i) s.sup.sstat,
        strobe := s.sup.strobe && i != 37, tick := s.sup.tick && i != 38 } ∧
      u.mem = (mStoreWs (s.sup.ssp - 64).toNat (frameWords s x) s).mem ∧ u.hub = s.hub ∧ u.flt = s.flt := by
  intro x0 x u
  have hpush := framePush_ram hfit hram x
  obtain ⟨tsup, tmem, tcore, thub, tflt⟩ := pushedFrame_frame (s.sup.ssp - 64).toNat (frameWords s x) s
  generalize pushedFrame (s.sup.ssp - 64).toNat (frameWords s x) s = t at *
  have hrun : u = corePut 32 { x with pc := (t.sup.vbase.toNat / 16 + i) % 65536, wfi := false, cyc := x.cyc + min 24 n }
      { t with sup := { t.sup with sstat := sstatWith false (linePri s i) t.sup.sstat,
                                   strobe := t.sup.strobe && i != 37, tick := t.sup.tick && i != 38 } } := by
    show interruptFx n s = _
    unfold interruptFx
    rw [if_neg (by simp [hbetween, hie]), hline]
    dsimp only
    rw [show framePush _ s = some t from hpush]
  rw [hrun, tsup]
  exact ⟨(corePut_get ((coresWf_of tcore).trans hwf) 32 _ 32).trans (if_pos rfl), rfl, tmem, thub, tflt⟩

/-- An interrupt whose frame area is not to be had is a double fault. -/
theorem interruptFx_double {n i : Nat} {s : State} (hbetween : supBetween s = true) (hie : supIe s = true)
    (hline : bestLine s = some i) (hfit : ¬ frameFits s) : interruptFx n s = raise 0x0111 3 255 0 s := by
  unfold interruptFx
  rw [if_neg (by simp [hbetween, hie]), hline]
  dsimp only
  rw [framePush_none hfit]

/-- Settles O36: a load returns what the bus reads, a posted write is written, an interrupt pushes its frame. -/
theorem busLoadReturnCommands : Obligations.BusLoadReturnCommands := by
  unfold Obligations.BusLoadReturnCommands
  refine ⟨?_, ?_, ?_⟩
  · intro k n l s hload hreset hsnap r y t y1 y2 s1
    refine ⟨congrArg (finish s) (loadReturnFx_of hload hreset hsnap), fun hreads hword => ?_⟩
    have hr : r = busRead (masterOfCore k) l.addr.toNat .word s := by simp only [r, hword, Bool.not_false, accSizeOf, if_true]
    rw [hr, busRead_goes hreads]
  · intro k p rest s hposted hreset s1 y
    obtain ⟨hnone, hheld⟩ := postedDoneFx_of hposted hreset
    exact ⟨fun h => congrArg (finish s) (hnone h), fun g ops h => congrArg (finish s) (hheld g ops h)⟩
  · intro n i s hbetween hie hline hwf a x0 x
    have hrun : exec (.interruptEntry n) s = .next (placed s (interruptFx n s)) := rfl
    refine ⟨fun hal hlo hhi hram => ?_, fun hbad => ?_⟩
    · exact ⟨_, hrun, interruptFx_ram hwf hbetween hie hline ⟨hal, hlo, hhi⟩ hram⟩
    · rw [hrun, interruptFx_double hbetween hie hline (not_frameFits hbad)]

end Sys2Proof.Machine
end

section
/-! Proofs. Timed events, second pulses, timestamp FIFOs and the common start (R63, R76 to R84). -/

namespace Sys2Proof.Machine

/-! ### Bus accesses that go through -/

/-- A counted access leaves the state but for the Survey. -/
theorem counted_withSrv (s : State) : ∃ srv, counted s = withSrv srv s := ⟨_, counted_eq s⟩

/-- The addresses that no readable register holds: a write of one is a strobe. -/
def strobeAt (a : Nat) : Prop :=
  rowOf a = none ∧ offOf a < 0x8000 ∧ (decide (21 ≤ winOf a) && decide (winOf a ≤ 24)) = false

/-- A write of a strobe that goes through is the strobe's action, the access counted. -/
theorem writeCmd_strobe {s : State} {m : Master} {a : Nat} (h : writes s m a = true) (ha : strobeAt a) (v : Nat) :
    writeCmd m a v s = strobe m a (wd v).toNat (counted s) :=
  (busWrite_goes v h).trans (regWrite_strobe m a (wd v) (counted s) ha)

/-- A plain register lies in the lower half and is neither a semaphore nor a mailbox. -/
theorem plainReg_iff {a : Nat} : plainReg a = true ↔
    ¬ 0x8000 ≤ offOf a ∧
      ¬ (decide (21 ≤ winOf a) && decide (winOf a ≤ 24) && decide (0x40 ≤ offOf a) && decide (offOf a < 0xC0)) = true ∧
      ¬ (decide (21 ≤ winOf a) && decide (winOf a ≤ 24) && decide (0x100 ≤ offOf a) && decide (offOf a < 0x190) &&
        decide (offOf a % 16 = 0)) = true := by
  simp only [plainReg, Bool.and_eq_true, Bool.or_eq_true, Bool.not_eq_true', ← Bool.not_eq_true, decide_eq_true_eq]
  omega

/-- A read of a plain register whose word passes parity, at a value of several words that no FIFO serves. -/
theorem regRead_low {m : Master} {a n : Nat} {s : State} (ha : plainReg a = true) (hok : s.hub.liveBad.contains a = false)
    (hmulti : multiAt a = some (a, n)) (hport : winOf a < 8 ∨ 11 < winOf a) (hcap : winOf a ≠ 6 ∨ offOf a < 0x300) :
    regRead m a s = ((plainRead a s).1,
      latchPut m ((List.range (n - 1)).map (fun i => regVal s (a + 4 * (i + 1)))) (plainRead a s).2) := by
  obtain ⟨hlow, hsem, hmbx⟩ := plainReg_iff.mp ha
  unfold regRead
  dsimp only
  rw [if_neg hlow, hok, if_neg Bool.false_ne_true, if_neg hsem, if_neg hmbx, hmulti]
  dsimp only
  rw [if_pos rfl, if_neg (by simp only [Bool.and_eq_true, decide_eq_true_eq]; omega),
    if_neg (by simp only [Bool.and_eq_true, decide_eq_true_eq]; omega)]

/-- A read of a plain register of one word that passes parity. -/
theorem regRead_single {m : Master} {a : Nat} {s : State} (ha : plainReg a = true) (hok : s.hub.liveBad.contains a = false)
    (hmulti : multiAt a = none) : regRead m a s = plainRead a s := by
  obtain ⟨hlow, hsem, hmbx⟩ := plainReg_iff.mp ha
  unfold regRead
  dsimp only
  rw [if_neg hlow, hok, if_neg Bool.false_ne_true, if_neg hsem, if_neg hmbx, hmulti]

/-! ### Timed-event outputs (R76 to R78) -/

theorem tev_strobeAt : ∀ n : Fin 4, strobeAt (tevBase n + 0x20) := by
  unfold strobeAt
  decide +kernel

theorem strobe_tev (m : Master) (v : Nat) (s : State) (n : Fin 4) :
    strobe m (tevBase n + 0x20) v s = tevStrobe n (wd v) s := by
  fin_cases n <;> rfl

/-- A write of 1 to ARM that goes through arms the output. -/
theorem exec_tevArm {m : Master} {n : Fin 4} {s : State} (h : writes s m (tevBase n + 0x20) = true) :
    exec (.tevArm m n) s = .next (placed s (tevArmWr n (counted s))) := by
  refine congrArg (finish s) ?_
  rw [writeCmd_strobe h (tev_strobeAt n), strobe_tev]
  rfl

/-- A write of CANCEL that goes through disarms the output. -/
theorem exec_tevCancel {m : Master} {n : Fin 4} {s : State} (h : writes s m (tevBase n + 0x20) = true) :
    exec (.tevCancel m n) s = .next (placed s (tevCancelWr n (counted s))) := by
  refine congrArg (finish s) ?_
  rw [writeCmd_strobe h (tev_strobeAt n), strobe_tev]
  rfl

theorem tevGet_counted (s : State) (n : Nat) : tevGet (counted s) n = tevGet s n := by
  obtain ⟨srv, hsrv⟩ := counted_withSrv s
  rw [hsrv]
  rfl

/-- Settles O15: the branches of ARM, CANCEL, an edge and the end of a pulse. -/
theorem timedEventCommands : Obligations.TimedEventCommands := by
  unfold Obligations.TimedEventCommands
  refine ⟨?_, ?_, ?_, ?_, ?_, ?_, ?_⟩
  · intro m n s hw hgood hmember hquiet hfuture
    rw [exec_tevArm hw, tevArmWr]
    dsimp only
    rw [hgood, lb_counted, hmember, tevGet_counted, hquiet]
    simp only [Bool.false_eq_true, if_false]
    rw [tevBegin]
    exact congrArg (finish s) (if_pos hfuture)
  · intro m n s hw hbad
    rw [exec_tevArm hw, tevArmWr]
    dsimp only
    rw [hbad, if_pos rfl, tevGet_counted]
  · intro m n s hw
    rw [exec_tevCancel hw, tevCancelWr]
    dsimp only
    rw [tevGet_counted]
  · intro m n s hw hgood hmember
    rw [exec_tevArm hw, tevArmWr]
    dsimp only
    rw [hgood, lb_counted, hmember, tevGet_counted]
    rfl
  · intro m n s hw hgood hmember hpulse
    rw [exec_tevArm hw, tevArmWr]
    dsimp only
    rw [hgood, lb_counted, hmember, tevGet_counted, hpulse]
    rfl
  · intro n s harmed hwaiting
    refine congrArg (finish s) ?_
    show tevFire n s = _
    unfold tevFire
    dsimp only
    rw [if_pos (by simp [harmed, hwaiting])]
  · intro n e s hactive hend hnext
    refine congrArg (finish s) ?_
    show pulseDone (.tev n) s = _
    unfold pulseDone
    dsimp only
    rw [hactive, hend, hnext]
    rfl

/-! ### Pulses and timestamp FIFOs (R63, R79, R81) -/

/-- A read of a capture FIFO takes its oldest entry. -/
theorem readCmd_tcap {m : Master} {n : Fin 4} {s : State} (h : reads s m (tcapBase n + 8) = true) :
    readCmd m (tcapBase n + 8) s =
      let r := tcapTake n (counted s)
      { latchPut m (r.1.drop 1) r.2 with rdata := [getAt 0 r.1 0] } := by
  have hword : plainReg (tcapBase n + 8) = true ∧ multiAt (tcapBase n + 8) = some (tcapBase n + 8, 3) ∧
      winOf (tcapBase n + 8) = 6 ∧ 0x300 ≤ offOf (tcapBase n + 8) ∧ (offOf (tcapBase n + 8) - 0x300) / 0x20 = n := by
    clear h
    revert n
    decide +kernel
  obtain ⟨hplain, hmulti, hwin, hoff, hidx⟩ := hword
  obtain ⟨hlow, hsem, hmbx⟩ := plainReg_iff.mp hplain
  have hread : regRead m (tcapBase n + 8) (counted s) =
      (getAt 0 (tcapTake n (counted s)).1 0, latchPut m ((tcapTake n (counted s)).1.drop 1) (tcapTake n (counted s)).2) := by
    unfold regRead
    dsimp only
    rw [if_neg hlow, reads_parity h, if_neg Bool.false_ne_true, if_neg hsem, if_neg hmbx, hmulti]
    dsimp only
    rw [if_pos rfl, hwin, if_neg (by decide), if_pos (by simp [hoff]), hidx]
  rw [readCmd_goes h, hread]

/-- A read of a transmit-timestamp FIFO takes its oldest entry. -/
theorem readCmd_txf {m : Master} {p : Fin 4} {s : State} (h : reads s m (prtBase p + 0x42C) = true) :
    readCmd m (prtBase p + 0x42C) s =
      let r := txfTake p (counted s)
      { latchPut m (r.1.drop 1) r.2 with rdata := [getAt 0 r.1 0] } := by
  have hword : plainReg (prtBase p + 0x42C) = true ∧ multiAt (prtBase p + 0x42C) = some (prtBase p + 0x42C, 3) ∧
      winOf (prtBase p + 0x42C) = p + 8 := by
    clear h
    revert p
    decide +kernel
  obtain ⟨hplain, hmulti, hwin⟩ := hword
  obtain ⟨hlow, hsem, hmbx⟩ := plainReg_iff.mp hplain
  have hread : regRead m (prtBase p + 0x42C) (counted s) =
      (getAt 0 (txfTake p (counted s)).1 0, latchPut m ((txfTake p (counted s)).1.drop 1) (txfTake p (counted s)).2) := by
    unfold regRead
    dsimp only
    rw [if_neg hlow, reads_parity h, if_neg Bool.false_ne_true, if_neg hsem, if_neg hmbx, hmulti]
    dsimp only
    rw [if_pos rfl, hwin, if_pos (by simp; omega), Nat.add_sub_cancel]
  rw [readCmd_goes h, hread]

theorem txfDropClear_strobe : ∀ p : Fin 4, strobeAt (prtBase p + 0x424) := by
  unfold strobeAt
  decide +kernel

theorem strobe_txDrop (m : Master) (s : State) (p : Fin 4) :
    strobe m (prtBase p + 0x424) 1 s = { s with time.txDrop := tset 0 s.time.txDrop p 0 } := by
  fin_cases p <;> rfl

/-- Settles O16: pulses fire at their edges, captures queue while there is room, pops take the oldest entry. -/
theorem pulseAndCaptureCommands : Obligations.PulseAndCaptureCommands := by
  unfold Obligations.PulseAndCaptureCommands
  refine ⟨?_, ?_, ?_, ?_, ?_, ?_, ?_, ?_⟩
  · intro s hen
    exact congrArg (finish s) (if_pos hen)
  · intro s hon
    exact congrArg (finish s) (if_pos hon)
  · intro n rising q len s hen hedge hlen
    refine congrArg (finish s) ?_
    show tcapCapture n rising q len s = _
    have hsel : (if rising then lb s (tcapBase n) 1 else lb s (tcapBase n) 2) = true := by
      cases rising <;> exact hedge
    unfold tcapCapture
    dsimp only
    rw [if_neg (by rw [hsel, hen]; rcases hlen with h | h <;> simp [h])]
    split <;> rfl
  · intro m n e rest s hread hfifo
    refine congrArg (finish s) ((readCmd_tcap hread).trans ?_)
    obtain ⟨srv, hsrv⟩ := counted_withSrv s
    have htake : tcapTake n (withSrv srv s) =
        (ftWords e.ts, { withSrv srv s with time.tcap := tset [] s.time.tcap n rest }) := by
      unfold tcapTake
      rw [show (withSrv srv s).time.tcap = s.time.tcap from rfl, hfifo]
    rw [hsrv, htake]
    rfl
  · intro m n s hread hfifo
    refine congrArg (finish s) ((readCmd_tcap hread).trans ?_)
    obtain ⟨srv, hsrv⟩ := counted_withSrv s
    have htake : tcapTake n (withSrv srv s) = ([0, 0, 0], withSrv srv s) := by
      unfold tcapTake
      rw [show (withSrv srv s).time.tcap = s.time.tcap from rfl, hfifo]
    rw [hsrv, htake]
    rfl
  · intro m p e rest s hread hfifo
    refine congrArg (finish s) ((readCmd_txf hread).trans ?_)
    obtain ⟨srv, hsrv⟩ := counted_withSrv s
    have htake : txfTake p (withSrv srv s) =
        (ftWords e.ts, { withSrv srv s with time.txf := tset [] s.time.txf p rest }) := by
      unfold txfTake
      rw [show (withSrv srv s).time.txf = s.time.txf from rfl, hfifo]
    rw [hsrv, htake]
    rfl
  · intro m p s hread hfifo
    refine congrArg (finish s) ((readCmd_txf hread).trans ?_)
    obtain ⟨srv, hsrv⟩ := counted_withSrv s
    have htake : txfTake p (withSrv srv s) = ([0, 0, 0], withSrv srv s) := by
      unfold txfTake
      rw [show (withSrv srv s).time.txf = s.time.txf from rfl, hfifo]
    rw [hsrv, htake]
    rfl
  · intro m p s hw
    refine congrArg (finish s) ?_
    show writeCmd m (prtBase p + 0x424) 1 s = _
    rw [writeCmd_strobe hw (txfDropClear_strobe p)]
    obtain ⟨srv, hsrv⟩ := counted_withSrv s
    rw [hsrv]
    exact strobe_txDrop m (withSrv srv s) p

/-! ### The common start (R82 to R84) -/

theorem start_strobeAt : strobeAt 0x40070040 := by
  unfold strobeAt
  decide +kernel

theorem paired_counted (s : State) : paired (counted s) = paired s := by
  unfold paired
  rw [isSealed_counted, lb_counted]

theorem strobe_start (m : Master) (v : Nat) (s : State) :
    strobe m 0x40070040 v s = startStrobe (paired s) (wd v) s := rfl

/-- A write of 1 to START_ARM that goes through arms the start. -/
theorem exec_startArm {m : Master} {s : State} (h : writes s m 0x40070040 = true) :
    exec (.startArm m) s = .next (placed s (startArmWr (paired s) (counted s))) := by
  refine congrArg (finish s) ?_
  rw [writeCmd_strobe h start_strobeAt, strobe_start, paired_counted, startStrobe]
  exact (if_neg (by decide)).trans (if_pos (by decide))

/-- The cycle of a start, and the counted access. -/
theorem grat_counted (s : State) : (counted s).grat = s.grat := by
  obtain ⟨srv, hsrv⟩ := counted_withSrv s
  rw [hsrv]
  rfl

/-- Settles O17: the branches of ARM, CANCEL, and the edge that an armed start waits for. -/
theorem commonStartCommands : Obligations.CommonStartCommands := by
  unfold Obligations.CommonStartCommands
  refine ⟨?_, ?_, ?_, ?_, ?_⟩
  · intro m s hw hsrc
    rw [exec_startArm hw, startArmWr, lb_counted]
    exact congrArg (finish s) (if_pos hsrc)
  · intro m s hw hsrc hahead
    rw [exec_startArm hw, startArmWr, lb_counted, if_neg (by simp [hsrc])]
    simp only [lvn_counted, grat_counted]
    exact congrArg (finish s) (if_pos hahead)
  · intro m s hw hsrc hlate
    rw [exec_startArm hw, startArmWr, lb_counted, if_neg (by simp [hsrc])]
    simp only [lvn_counted, grat_counted]
    exact congrArg (finish s) (if_neg (Nat.not_le.mpr hlate))
  · intro m s hw
    refine congrArg (finish s) ?_
    show writeCmd m 0x40070040 2 s = _
    rw [writeCmd_strobe hw start_strobeAt, strobe_start, startStrobe]
    exact (if_neg (by decide)).trans ((if_neg (by decide)).trans (if_pos (by decide)))
  · intro q s harmed hsrc hwait ft pos g c u
    refine congrArg (finish s) ?_
    show startEdge q s = _
    unfold startEdge
    rw [if_pos (by simp [harmed, hsrc, hwait])]
    simp only [whenS, Bool.or_eq_true, decide_eq_true_eq]
    rfl

end Sys2Proof.Machine
end

section
/-! Proofs. Semaphores, mailboxes, and the events of silence and of the cores (R167, R168, R199, R219 to R223). -/

namespace Sys2Proof.Machine

/-! ### Semaphores and mailboxes (R219, R220) -/

/-- Where the semaphores of a cluster stand in its window. -/
theorem sem_addr (c : Fin 4) (n : Fin 32) :
    winOf (clBase c + 0x40 + 4 * n) = 21 + c ∧ offOf (clBase c + 0x40 + 4 * n) = 0x40 + 4 * n := by
  unfold winOf offOf clBase
  omega

/-- Where the mailboxes of a cluster stand in its window. -/
theorem mbx_addr (c : Fin 4) (b : Fin 9) :
    winOf (clBase c + 0x100 + 16 * b) = 21 + c ∧ offOf (clBase c + 0x100 + 16 * b) = 0x100 + 16 * b := by
  unfold winOf offOf clBase
  omega

theorem cl_counted (s : State) (c : Nat) : clGet (counted s) c = clGet s c := by
  obtain ⟨srv, hsrv⟩ := counted_withSrv s
  rw [hsrv]
  rfl

/-- A read of a semaphore that goes through. -/
theorem readCmd_sem {m : Master} {c : Fin 4} {n : Fin 32} {s : State} (h : reads s m (clBase c + 0x40 + 4 * n) = true) :
    readCmd m (clBase c + 0x40 + 4 * n) s =
      let r := semRead m c n (counted s)
      { srvUp (21 + c) 2 r.1.toNat (srvUp (21 + c) 3 (if (semOwnerCode c m).isSome then 1 - r.1.toNat else 0) r.2) with
        rdata := [r.1] } := by
  obtain ⟨hwin, hoff⟩ := sem_addr c n
  have hread : regRead m (clBase c + 0x40 + 4 * n) (counted s) =
      let r := semRead m c n (counted s)
      (r.1, srvUp (21 + c) 2 r.1.toNat
        (srvUp (21 + c) 3 (if (semOwnerCode c m).isSome then 1 - r.1.toNat else 0) r.2)) := by
    unfold regRead
    dsimp only
    rw [hwin, hoff, if_neg (by omega), reads_parity h, if_neg Bool.false_ne_true,
      if_pos (by simp only [Bool.and_eq_true, decide_eq_true_eq]; omega), show 21 + c.val - 21 = c.val by omega,
      show (0x40 + 4 * n.val - 0x40) / 4 = n.val by omega]
  rw [readCmd_goes h, hread]

/-- A write of a semaphore that goes through. -/
theorem writeCmd_sem {m : Master} {c : Fin 4} {n : Fin 32} {v : Word} {s : State}
    (h : writes s m (clBase c + 0x40 + 4 * n) = true) :
    writeCmd m (clBase c + 0x40 + 4 * n) v.toNat s = semWrite m c n v (counted s) := by
  obtain ⟨hwin, hoff⟩ := sem_addr c n
  refine (busWrite_goes v.toNat h).trans ?_
  unfold regWrite
  dsimp only
  rw [hwin, hoff, if_neg (by omega), if_pos (by simp only [Bool.and_eq_true, decide_eq_true_eq]; omega),
    show 21 + c.val - 21 = c.val by omega, show (0x40 + 4 * n.val - 0x40) / 4 = n.val by omega, wd, BitVec.ofNat_toNat,
    BitVec.setWidth_eq]

/-- A read of a mailbox that goes through. -/
theorem readCmd_mbx {m : Master} {c : Fin 4} {b : Fin 9} {s : State} (h : reads s m (clBase c + 0x100 + 16 * b) = true) :
    readCmd m (clBase c + 0x100 + 16 * b) s =
      { (mbxPopFx c b (counted s)).2 with rdata := [(mbxPopFx c b (counted s)).1] } := by
  obtain ⟨hwin, hoff⟩ := mbx_addr c b
  have hread : regRead m (clBase c + 0x100 + 16 * b) (counted s) = mbxPopFx c b (counted s) := by
    unfold regRead
    dsimp only
    rw [hwin, hoff, if_neg (by omega), reads_parity h, if_neg Bool.false_ne_true,
      if_neg (by simp only [Bool.and_eq_true, decide_eq_true_eq]; omega),
      if_pos (by simp only [Bool.and_eq_true, decide_eq_true_eq]; omega), show 21 + c.val - 21 = c.val by omega,
      show (0x100 + 16 * b.val - 0x100) / 16 = b.val by omega]
  rw [readCmd_goes h, hread]

/-- A write of a mailbox that goes through. -/
theorem writeCmd_mbx {m : Master} {c : Fin 4} {b : Fin 9} {v : Word} {s : State}
    (h : writes s m (clBase c + 0x100 + 16 * b) = true) :
    writeCmd m (clBase c + 0x100 + 16 * b) v.toNat s = srvUp (21 + c) 4 1 (mbxPushFx c b v (counted s)) := by
  obtain ⟨hwin, hoff⟩ := mbx_addr c b
  refine (busWrite_goes v.toNat h).trans ?_
  unfold regWrite
  dsimp only
  rw [hwin, hoff, if_neg (by omega), if_neg (by simp only [Bool.and_eq_true, decide_eq_true_eq]; omega),
    if_pos (by simp only [Bool.and_eq_true, decide_eq_true_eq]; omega),
    show 21 + c.val - 21 = c.val by omega, show (0x100 + 16 * b.val - 0x100) / 16 = b.val by omega, wd, BitVec.ofNat_toNat,
    BitVec.setWidth_eq]

/-- Settles O27: a semaphore read takes a free one, its owner's 0 frees it; a mailbox appends and pops. -/
theorem semaphoreAndMailboxCommands : Obligations.SemaphoreAndMailboxCommands := by
  unfold Obligations.SemaphoreAndMailboxCommands
  refine ⟨?_, ?_, ?_, ?_, ?_, ?_⟩
  · intro m c sem o s hread hown
    refine congrArg (finish s) ((readCmd_sem hread).trans ?_)
    unfold semRead
    rw [hown, cl_counted]
    by_cases hfree : tget 0 (clGet s c).sem sem = 0
    · simp only [hfree, if_true]
      rfl
    · simp only [hfree, if_false]
      rfl
  · intro m c sem s hread hown
    refine congrArg (finish s) ((readCmd_sem hread).trans ?_)
    unfold semRead
    rw [hown]
    rfl
  · intro m c sem v s hw
    refine congrArg (finish s) ((writeCmd_sem hw).trans ?_)
    unfold semWrite
    dsimp only
    rw [cl_counted]
    refine ite_congr ?_ (fun _ => rfl) (fun _ => rfl)
    cases semOwnerCode c m with
    | none => simp
    | some o =>
      simp only [Option.isSome_some, Bool.and_true, Option.getD_some, Bool.and_eq_true, decide_eq_true_eq,
        Option.some.injEq, eq_comm (a := o)]
  · intro m c b v s hw q u
    refine congrArg (finish s) ((writeCmd_mbx hw).trans (congrArg (srvUp (21 + c) 4 1) ?_))
    unfold mbxPushFx whenS
    dsimp only
    rw [cl_counted]
    simp only [beq_iff_eq, Fin.ext_iff]
    rfl
  · intro m c b v rest s hread hbox
    refine congrArg (finish s) ((readCmd_mbx hread).trans ?_)
    unfold mbxPopFx
    dsimp only
    rw [cl_counted, hbox]
  · intro m c b s hread hbox
    refine congrArg (finish s) ((readCmd_mbx hread).trans ?_)
    unfold mbxPopFx
    dsimp only
    rw [cl_counted, hbox]

/-! ### Events of silence, cores, snapshots and the sampler -/

/-- The end of a drain with nothing outstanding (R199). -/
theorem drainEndFx_of {k : Nat} {s : State} (hrun : (coreGet s k).st = 2) (hdrain : (coreGet s k).drain = true)
    (hposted : (coreGet s k).posted = []) (hload : (coreGet s k).load = none) :
    let x := coreGet s k
    let t := x.accVis.foldl (fun t e => max t e.2) (x.flight.foldl (fun t f => max t f.land) x.cyc)
    drainEndFx k s = setLv (coreBase k + 0x14) (wd (max (lvn s (coreBase k + 0x14)) t))
      (srvCore k 3 (t - x.cyc) (corePut k { landAll x with st := 1, drain := false, cyc := t, cycLast := t, accVis := [] } s)) := by
  intro x t
  unfold drainEndFx
  dsimp only
  rw [if_pos (by simp [hrun, hdrain, hposted, hload])]
  exact congrArg (fun n => setLv _ (wd (max n t)) _) (lvn_of (congrArg (·.live) (srvCore_hub ..)) _)

/-- Settles O25: each event's guard holds, so its effect is the one the command has. -/
theorem silenceAndCoreEventCommands : Obligations.SilenceAndCoreEventCommands := by
  unfold Obligations.SilenceAndCoreEventCommands
  refine ⟨?_, ?_, ?_, ?_, ?_, ?_, ?_⟩
  · intro b s hquiet
    exact congrArg (finish s) (if_pos hquiet)
  · intro g s hst hlen
    refine congrArg (finish s) ?_
    show silenceSleepFx g s = _
    unfold silenceSleepFx grpHoldLen
    dsimp only
    rw [if_pos (by simp [hst, hlen])]
    rfl
  · intro k l rest s hlevels hcount
    refine congrArg (finish s) ?_
    show levelEndFx k s = _
    unfold levelEndFx
    dsimp only
    rw [hlevels]
    exact if_pos hcount
  · intro k s x t hrun hdrain hposted hload
    exact congrArg (finish s) (drainEndFx_of hrun hdrain hposted hload)
  · intro c stalls s hsnap
    refine congrArg (finish s) ?_
    show psnapDoneFx c stalls s = _
    obtain ⟨n, hn⟩ := Option.isSome_iff_exists.mp hsnap
    unfold psnapDoneFx
    rw [hn]
    rfl
  · intro k r s hfind hlive hroom n
    refine congrArg (finish s) ?_
    show sampleFx k s = _
    unfold sampleFx
    rw [hfind]
    dsimp only
    rw [if_neg (by simp [hlive]), if_neg (by
      rw [Bool.and_eq_true, decide_eq_true_eq]
      rintro ⟨hstop, hfull⟩
      rcases hroom with h | h
      · exact absurd (h.symm.trans hstop) Bool.false_ne_true
      · exact h hfull)]
  · intro k r s hfind hlive hstop hfull u
    refine congrArg (finish s) ?_
    show sampleFx k s = _
    unfold sampleFx
    rw [hfind]
    dsimp only
    rw [if_neg (by simp [hlive]), if_pos (by
      rw [Bool.and_eq_true, decide_eq_true_eq]
      exact ⟨hstop, hfull⟩)]
    have hmarks : u.srv.full = s.srv.full := by
      simp only [u, srvUp_srv_full, ctrUp_srv]
    show (if u.srv.full.contains (k.val / 8) = true then u
      else srvEvent 1 { u with srv.full := addTo (k.val / 8) u.srv.full }) = _
    rw [hmarks]
    rfl

end Sys2Proof.Machine
end

section
/-! Proofs. The release, the budget and the barrier of a cluster (R199 to R201, R219, R221). -/

namespace Sys2Proof.Machine

/-! ### Commands that visit cores in turn -/

/-- The state with other cores and another Survey. -/
def withCores (core : Tab NCore) (srv : SrvSt) (s : State) : State := { s with core := core, srv := srv }

/-- The visit of core k by `f` does `g` to it and leaves the other cores, at any state of the registers of `s`. -/
def visits (s : State) (k : Nat) (f : State → State) (g : NCore → NCore) : Prop :=
  ∀ t, t.hub = s.hub → coresWf t = true → ∃ core srv, f t = withCores core srv t ∧ coresWf (f t) = true ∧
    ∀ j, coreGet (f t) j = if j = k then g (coreGet t k) else coreGet t j

theorem visits_put {s : State} {k : Nat} {f : State → State} {g : NCore → NCore}
    (h : ∀ t, t.hub = s.hub → ∃ srv, f t = withSrv srv (corePut k (g (coreGet t k)) t)) : visits s k f g := by
  intro t hhub hwf
  obtain ⟨srv, hf⟩ := h t hhub
  refine ⟨(corePut k (g (coreGet t k)) t).core, srv, hf, ?_, fun j => ?_⟩
  · rw [hf]
    exact corePut_wf hwf k _
  · rw [hf]
    exact corePut_get hwf k _ j

/-- Visits of distinct cores do to each what its visit does, and leave the rest. -/
theorem foldS_visits {s : State} {l : List Nat} {f : Nat → State → State} {g : Nat → NCore → NCore} (hdistinct : l.Nodup)
    (hf : ∀ k ∈ l, visits s k (f k) (g k)) {t : State} (hhub : t.hub = s.hub) (hwf : coresWf t = true) :
    ∃ core srv, foldS l f t = withCores core srv t ∧
      ∀ j, coreGet (foldS l f t) j = if j ∈ l then g j (coreGet t j) else coreGet t j := by
  induction l generalizing t with
  | nil => exact ⟨t.core, t.srv, rfl, fun j => rfl⟩
  | cons k l ih =>
    obtain ⟨hnew, hrest⟩ := List.nodup_cons.mp hdistinct
    obtain ⟨core1, srv1, hstep, hwf1, hget1⟩ := hf k (List.mem_cons_self ..) t hhub hwf
    obtain ⟨core, srv, hfold, hget⟩ := ih hrest (fun j hj => hf j (List.mem_cons_of_mem k hj))
      (t := f k t) (by rw [hstep]; exact hhub) hwf1
    refine ⟨core, srv, ?_, fun j => ?_⟩
    · show foldS l f (f k t) = _
      rw [hfold, hstep]
      rfl
    · refine (hget j).trans ?_
      rw [hget1 j]
      by_cases hj : j = k
      · subst hj
        rw [if_neg hnew, if_pos rfl, if_pos (List.mem_cons_self ..)]
      · simp only [hj, if_false, List.mem_cons, false_or]

/-! ### The release (R199, R217) -/

/-- A core that runs from its release on. -/
def releasedCore (s : State) (k : Nat) (y : NCore) : NCore :=
  if y.st = 1 then { y with
    st := 2, cyc := 0, accVis := [], flight := [], ovr := false, restart := false, drain := false, gap := [],
    pc := if y.restart then lf s (coreBase k) 0 12 else y.pc }
  else y

/-- The visit of core k by a release. -/
def releaseVisit (k : Nat) (t : State) : State :=
  let y := coreGet t k
  if y.st = 1 then
    let again := match y.startAt with
      | some k0 => decide (k0 < t.grat.cycle)
      | none => false
    let t := srvCore k 4 (if again then nCy t - y.cyc else 0) t
    let y1 := { y with st := 2, cyc := 0, accVis := [], flight := [], ovr := false, restart := false, drain := false, gap := [] }
    corePut k (if y.restart then { y1 with pc := lf t (coreBase k) 0 12 } else y1) t
  else t

theorem releaseVisit_visits (s : State) (k : Nat) : visits s k (releaseVisit k) (releasedCore s k) := by
  intro t hhub hwf
  unfold releaseVisit releasedCore
  by_cases hwaits : (coreGet t k).st = 1
  · have hentry : ∀ i n, lf (srvCore k i n t) (coreBase k) 0 12 = lf s (coreBase k) 0 12 := fun i n =>
      lf_of (by rw [srvCore_hub, hhub]) ..
    simp only [hwaits, if_true, hentry]
    rw [srvCore_srv]
    refine ⟨_, _, rfl, ?_, fun j => ?_⟩
    · exact corePut_wf (t := withSrv _ t) hwf k _
    · refine (corePut_get (t := withSrv _ t) hwf k _ j).trans ?_
      by_cases hj : j = k
      · rw [if_pos hj, if_pos hj]
        cases (coreGet t k).restart <;> rfl
      · rw [if_neg hj, if_neg hj]
        rfl
  · simp only [hwaits, if_false]
    refine ⟨t.core, t.srv, rfl, hwf, fun j => ?_⟩
    by_cases hj : j = k
    · rw [if_pos hj, hj]
    · rw [if_neg hj]

/-- A fold over a mapped list. -/
theorem foldS_map {α β : Type} (l : List α) (g : α → β) (f : β → State → State) (s : State) :
    foldS (l.map g) f s = foldS l (fun a => f (g a)) s := List.foldl_map ..

theorem coresOn_map_nodup (s : State) (c : Nat) : ((coresOn s c).map (c * 8 + ·)).Nodup :=
  (List.nodup_range.filter _).map (fun _ _ h => Nat.add_left_cancel h)

theorem mem_coresOn_map {s : State} {c k : Nat} :
    k ∈ (coresOn s c).map (c * 8 + ·) ↔ k / 8 = c ∧ coreEn s c (k % 8) = true := by
  simp only [coresOn, List.mem_map, List.mem_filter, List.mem_range]
  constructor
  · rintro ⟨j, ⟨hj, hen⟩, rfl⟩
    exact ⟨by omega, by rwa [show (c * 8 + j) % 8 = j by omega]⟩
  · rintro ⟨hc, hen⟩
    exact ⟨k % 8, ⟨by omega, hen⟩, by omega⟩

/-- A release while the reserve is on. -/
theorem coreReleaseFx_of {c : Nat} {s : State} (h : (clGet s c).inRes = true) :
    coreReleaseFx c s = srvUp (21 + c) 0 (clGet s c).reserve
      (foldS ((coresOn s c).map (c * 8 + ·)) releaseVisit (clPut c { clGet s c with inRes := false } s)) := by
  unfold coreReleaseFx
  dsimp only
  rw [if_pos h, foldS_map]
  rfl

/-- A node that is not catching up releases its cluster as R199 says. -/
theorem releaseFxAll_of {c : Nat} {s : State} (h : s.pair.role = 2 → s.pair.rphase < 3) : releaseFxAll c s = coreReleaseFx c s := by
  unfold releaseFxAll
  by_cases hrole : s.pair.role = 2
  · have := h hrole
    rw [if_neg (by simp; omega), if_neg (by simp; omega)]
  · rw [if_neg (by simp [hrole]), if_neg (by simp [hrole])]

/-! ### The barrier (R221) -/

theorem barMembers_nodup (s : State) (c : Nat) : (barMembers s c).Nodup :=
  (List.nodup_range.filter _).map (fun _ _ h => Nat.add_left_cancel h)

/-- The visit of a member by its barrier's release. -/
theorem barrier_visits (s : State) (last k : Nat) : visits s k
    (fun u => srvCore k 3 (last + 1 - (coreGet u k).cyc) (corePut k { coreGet u k with
      sync := false, cyc := last + 1, gap := tset 0 (coreGet u k).gap 6 (last + 1 - (coreGet u k).cyc) } u))
    (fun y => { y with sync := false, cyc := last + 1, gap := tset 0 y.gap 6 (last + 1 - y.cyc) }) :=
  visits_put fun _ _ => ⟨_, srvCore_srv ..⟩

/-- The largest value of a list is a bound that is met. -/
theorem foldl_max_spec {α : Type} (f : α → Nat) (l : List α) (m : Nat) :
    let r := l.foldl (fun t a => max t (f a)) m
    m ≤ r ∧ (∀ a ∈ l, f a ≤ r) ∧ (r = m ∨ ∃ a ∈ l, f a = r) := by
  induction l generalizing m with
  | nil => exact ⟨Nat.le_refl m, fun _ h => absurd h List.not_mem_nil, .inl rfl⟩
  | cons b l ih =>
    obtain ⟨hfrom, hall, hmet⟩ := ih (max m (f b))
    refine ⟨Nat.le_trans (Nat.le_max_left ..) hfrom, fun a ha => ?_, ?_⟩
    · rcases List.mem_cons.mp ha with rfl | ha
      · exact Nat.le_trans (Nat.le_max_right ..) hfrom
      · exact hall a ha
    · rcases hmet with hmet | ⟨a, ha, hmet⟩
      · rcases Nat.le_total m (f b) with hle | hle
        · exact .inr ⟨b, List.mem_cons_self .., (Nat.max_eq_right hle).symm.trans hmet.symm⟩
        · exact .inl (hmet.trans (Nat.max_eq_left hle))
      · exact .inr ⟨a, List.mem_cons_of_mem b ha, hmet⟩

/-- A barrier whose members have all arrived, none of them having ended its work. -/
theorem barrierFx_of {c : Nat} {s : State} (hsome : barMembers s c ≠ [])
    (harrived : ∀ k, k ∈ barMembers s c → (coreGet s k).sync = true)
    (hnone : ∀ j : Fin 8, lb s (clBase c + 0x1C) j = true → coreBusyRun s (c * 8 + j) = true →
      (coreGet s (c * 8 + j)).drain = false) :
    let last := (barMembers s c).foldl (fun t k => max t (coreGet s k).cyc) 0
    barrierFx c s = srvUp (21 + c) 5 1 (foldS (barMembers s c) (fun k u =>
      srvCore k 3 (last + 1 - (coreGet u k).cyc) (corePut k { coreGet u k with
        sync := false, cyc := last + 1, gap := tset 0 (coreGet u k).gap 6 (last + 1 - (coreGet u k).cyc) } u)) s) := by
  intro last
  have hwait : (List.range 8).any (fun j => lb s (clBase c + 0x1C) j && coreBusyRun s (c * 8 + j) &&
      (coreGet s (c * 8 + j)).drain) = false := by
    simp only [List.any_eq_false, List.mem_range, Bool.and_eq_true, not_and, Bool.not_eq_true]
    rintro j hj ⟨hmask, hruns⟩
    exact hnone ⟨j, hj⟩ hmask hruns
  unfold barrierFx
  dsimp only
  rw [hwait, if_pos (by simp only [Bool.not_false, Bool.true_and, Bool.and_eq_true, Bool.not_eq_true',
    List.isEmpty_eq_false_iff, List.all_eq_true]; exact ⟨hsome, harrived⟩)]

/-! ### Semaphores of a core that loses its work (R200, R219) -/

/-- Entries of one value dropped from a canonical table read as unlisted. -/
theorem tabGet_filter_ne {m : Tab Nat} {lo v : Nat} (hwf : tabWfFrom (fun _ => 0) lo m = true) (hv : v ≠ 0) (n : Nat) :
    tabGet (fun _ => 0) (m.filter (fun e => e.2 != v)) n =
      if tabGet (fun _ => 0) m n = v then 0 else tabGet (fun _ => 0) m n := by
  induction m generalizing lo with
  | nil =>
    exact (if_neg (Ne.symm hv)).symm
  | cons e t ih =>
    obtain ⟨a, w⟩ := e
    have hwf' := hwf
    simp only [tabWfFrom, Bool.and_eq_true, decide_eq_true_eq] at hwf'
    obtain ⟨⟨_, _⟩, ht⟩ := hwf'
    have hdrop := tabWfFrom_filter (fun e => e.2 != v) ht
    by_cases hw : w = v
    · rw [List.filter_cons_of_neg (by simp [hw])]
      by_cases hn : n = a
      · subst hn
        rw [tabGet_below hdrop (Nat.lt_succ_self n)]
        simp [tabGet, hw]
      · by_cases hlt : n < a
        · rw [tabGet_below hdrop (Nat.lt_succ_of_lt hlt)]
          simp [tabGet, hn, hlt]
        · rw [ih ht]
          simp [tabGet, hn, hlt]
    · rw [List.filter_cons_of_pos (by simp [hw])]
      by_cases hn : n = a
      · simp [tabGet, hn, hw]
      · by_cases hlt : n < a
        · simp [tabGet, hn, hlt]
        · simp only [tabGet, hn, hlt, if_false]
          exact ih ht

theorem foldl_ctrUp_cl {α : Type} (l : List α) (a lo n : Nat) (s : State) :
    (l.foldl (fun t _ => ctrUp a lo n t) s).cl = s.cl := by
  induction l generalizing s with
  | nil => rfl
  | cons b l ih => exact (ih _).trans (ctrUp_cl ..)

/-- Settles O26: a release and a barrier visit each of their cores once; an expired budget is the OVERRUN exception. -/
theorem coreCycleCommands : Obligations.CoreCycleCommands := by
  unfold Obligations.CoreCycleCommands
  refine ⟨?_, ?_, ?_, ?_, ?_⟩
  · intro c s hwf hres hrole
    obtain ⟨core, srv, hfold, hget⟩ := foldS_visits (s := s) (coresOn_map_nodup s c)
      (fun k _ => releaseVisit_visits s k) (t := clPut c { clGet s c with inRes := false } s) rfl hwf
    have hrun : releaseFxAll c s = _ := (releaseFxAll_of hrole).trans (coreReleaseFx_of hres)
    rw [srvUp_eq] at hrun
    refine ⟨_, congrArg (finish s) hrun, ?_, fun k => ?_⟩
    · rw [hfold]
      rfl
    · refine (hget k).trans ?_
      simp only [mem_coresOn_map, releasedCore]
      by_cases hk : k / 8 = c ∧ coreEn s c (k % 8) = true
      · by_cases hst : (coreGet s k).st = 1
        · have hall : k / 8 = c ∧ coreEn s c (k % 8) = true ∧ (coreGet s k).st = 1 := ⟨hk.1, hk.2, hst⟩
          rw [if_pos hk, if_pos hall]
          exact if_pos hst
        · have hnot : ¬ (k / 8 = c ∧ coreEn s c (k % 8) = true ∧ (coreGet s k).st = 1) := fun ⟨_, _, h⟩ => hst h
          rw [if_pos hk, if_neg hnot]
          exact if_neg hst
      · have hnot : ¬ (k / 8 = c ∧ coreEn s c (k % 8) = true ∧ (coreGet s k).st = 1) := fun ⟨hc, hen, _⟩ => hk ⟨hc, hen⟩
        rw [if_neg hk, if_neg hnot]
        rfl
  · intro c s hrole hphase
    refine congrArg (finish s) ?_
    show releaseFxAll c s = s
    unfold releaseFxAll
    exact if_pos (by simp [hrole, hphase])
  · intro c s hwf ⟨k0, hk0⟩ harrived hnone
    obtain ⟨core, srv, hfold, hget⟩ := foldS_visits (s := s) (barMembers_nodup s c)
      (fun k _ => barrier_visits s ((barMembers s c).foldl (fun t k => max t (coreGet s k).cyc) 0) k) (t := s) rfl hwf
    have hrun : barrierFx c s = _ := barrierFx_of (List.ne_nil_of_mem hk0) harrived hnone
    obtain ⟨_, hbound, hmet⟩ := foldl_max_spec (fun k => (coreGet s k).cyc) (barMembers s c) 0
    rw [srvUp_eq] at hrun
    refine ⟨_, congrArg (finish s) hrun, ?_, _, hbound, ?_, hget⟩
    · rw [hfold]
      rfl
    · rcases hmet with hzero | hmet
      · exact ⟨k0, hk0, Nat.le_antisymm (hbound k0 hk0) (hzero.le.trans (Nat.zero_le _))⟩
      · exact hmet
  · intro k s hruns c x u v y halt w w2 z r
    refine congrArg (finish s) ?_
    show budgetFxAll k s = _
    have hover : budgetExpiryFx k s = r := by
      unfold budgetExpiryFx
      rw [if_pos hruns]
      rfl
    unfold budgetFxAll
    dsimp only
    rw [hover, hruns, Bool.and_true]
  · intro c j n s hcl hsem
    have hget : (clGet (semLoseCore c j s) c).sem = (clGet s c).sem.filter (fun e => e.2 != j + 1) := by
      unfold semLoseCore clGet
      dsimp only
      rw [foldl_ctrUp_cl, clPut, tget_tset hcl, if_pos rfl]
    rw [hget]
    exact tabGet_filter_ne hsem (Nat.succ_ne_zero j) n

end Sys2Proof.Machine
end

section
/-! Proofs. Compass: candidates, states, phase steps and ticks (R85 to R108). -/

namespace Sys2Proof.Machine

/-! ### Candidates (R90, R91, R93, R97) -/

/-- Settles O18: the guard of each event of a candidate holds, so its effect is the one the command has. -/
theorem candidateCommands : Obligations.CandidateCommands := by
  unfold Obligations.CandidateCommands
  refine ⟨?_, ?_, ?_, ?_, ?_⟩
  · intro n s hsignal
    exact congrArg (finish s) (if_pos hsignal)
  · intro n s hprio hqual htime hone
    refine congrArg (finish s) ?_
    show qualifiedFx n s = _
    unfold qualifiedFx
    rw [if_pos (by simp [hprio, hqual, htime]), hone]
    show qualifyOne n s = _
    unfold qualifyOne
    cases cmpHeld s <;> rfl
  · intro n s hwarn hwarned htime
    exact congrArg (finish s) (if_pos (by simp [hwarn, hwarned, htime]))
  · intro n s hrun htime hmay
    refine congrArg (finish s) ?_
    show wtrFx n s = _
    unfold wtrFx
    dsimp only
    rw [if_pos (by simp [hrun, htime]), if_pos hmay]
  · intro n s hrun htime hmay
    refine congrArg (finish s) ?_
    show wtrFx n s = _
    unfold wtrFx
    dsimp only
    rw [if_pos (by simp [hrun, htime]), if_neg (by simp [hmay])]

/-! ### States (R95, R100, R103, R105) -/

/-- Settles O19: the guard of each transition holds; a build-out ends by the kind of its target. -/
theorem compassStateCommands : Obligations.CompassStateCommands := by
  unfold Obligations.CompassStateCommands
  refine ⟨?_, ?_, ?_, ?_, ?_⟩
  · intro n s hst hcur hsw htime
    refine congrArg (finish s) ?_
    show lockedFx s = _
    unfold lockedFx
    rw [if_pos (by simp [hst, hcur, hsw, htime]), hcur]
    rfl
  · intro n s hst hcur hdrift hsw htime
    refine congrArg (finish s) ?_
    show unlockedFx s = _
    unfold unlockedFx
    rw [if_pos (by simp [hst, hdrift, hsw, htime]), hcur]
    rfl
  · intro s hst hlimit hpast
    exact congrArg (finish s) (if_pos (by simp [hst, hlimit, hpast]))
  · intro s hst hdrift hsw hcount
    exact congrArg (finish s) (if_pos (by simp [hst, hdrift, hsw, hcount]))
  · intro w s hsw hmoving htime htick avg u
    refine congrArg (finish s) ?_
    show buildOutFx s = _
    unfold buildOutFx
    rw [hsw]
    dsimp only
    rw [if_pos (by simp [hmoving, htime]), if_neg htick]
    rfl

/-! ### Phase steps (R102, R104, R106 to R108) -/

theorem cmp_counted (s : State) : (counted s).cmp = s.cmp := by
  obtain ⟨srv, hsrv⟩ := counted_withSrv s
  rw [hsrv]
  rfl

theorem cmpW_counted (s : State) (o : Nat) : cmpW (counted s) o = cmpW s o := lvn_counted ..

theorem pstepRegs_counted (s : State) : pstepRegs (counted s) = pstepRegs s := by
  unfold pstepRegs
  simp only [lb_counted, cmpW_counted]

theorem cmpBusy_counted (s : State) : cmpBusy (counted s) = cmpBusy s := by
  unfold cmpBusy
  rw [cmp_counted]

theorem pstep_strobeAt : strobeAt 0x400500D0 := by
  unfold strobeAt
  decide +kernel

theorem realign_strobeAt : strobeAt 0x400500E4 := by
  unfold strobeAt
  decide +kernel

theorem strobe_pstep (m : Master) (v : Nat) (s : State) : strobe m 0x400500D0 v s = whenS (nbit v 0) pstepGoWr s := rfl
theorem strobe_realign (m : Master) (v : Nat) (s : State) : strobe m 0x400500E4 v s = whenS (nbit v 0) realignGoWr s := rfl

/-- A GO of PSTEP that goes through. -/
theorem exec_pstepGo {m : Master} {s : State} (h : writes s m 0x400500D0 = true) :
    exec (.pstepGo m) s = .next (placed s (pstepGoWr (counted s))) :=
  congrArg (finish s) ((writeCmd_strobe h pstep_strobeAt 1).trans ((strobe_pstep ..).trans (if_pos (by decide))))

/-- A GO of REALIGN that goes through. -/
theorem exec_realignGo {m : Master} {s : State} (h : writes s m 0x400500E4 = true) :
    exec (.realignGo m) s = .next (placed s (realignGoWr (counted s))) :=
  congrArg (finish s) ((writeCmd_strobe h realign_strobeAt 1).trans ((strobe_realign ..).trans (if_pos (by decide))))

/-- With nothing queued the end of work starts none. -/
theorem cmpNextWork_of_none {s : State} (hpstep : s.cmp.pstepQ = none) (hsel : s.cmp.nextSel = none) : cmpNextWork s = s := by
  unfold cmpNextWork
  rw [hpstep, hsel]
  exact ite_self s

/-- The end of a slew of FT with nothing queued. -/
theorem slewDoneFx_ft {w : FtSlew} {s : State} (hslew : s.cmp.slew = some w) (hover : ftSlewOver w = true)
    (hpstep : s.cmp.pstepQ = none) (hsel : s.cmp.nextSel = none) (hcur : w.kind ≠ 1 ∨ s.cmp.cur = none) :
    slewDoneFx .ft s = if w.kind = 1 then evOr 0x400500D4 4 { s with cmp.slew := none }
      else if w.kind = 2 then { s with cmp.slew := none, cmp.bo := 0 } else { s with cmp.slew := none } := by
  unfold slewDoneFx
  dsimp only
  rw [hslew]
  dsimp only
  rw [if_pos hover]
  by_cases hone : w.kind = 1
  · have hnone : s.cmp.cur = none := hcur.resolve_left (fun h => h hone)
    rw [if_pos hone, if_pos hone, if_neg (by omega)]
    simp only [evOr_cmp, hnone]
    exact cmpNextWork_of_none hpstep hsel
  · rw [if_neg hone, if_neg hone]
    by_cases htwo : w.kind = 2
    · rw [if_pos htwo, if_pos htwo]
      exact cmpNextWork_of_none hpstep hsel
    · rw [if_neg htwo, if_neg htwo]
      exact cmpNextWork_of_none hpstep hsel

/-- A step of FT at its instant. -/
theorem ftStepFx_of {w : FtStepSt} {k1 : Nat} {s : State} (hstep : s.cmp.step = some w) (hk1 : w.k1 = some k1)
    (hdone : w.done = false) (hcycle : k1 + cmpW s 0x60 = s.grat.nextCycle) : ftStepFx s = ftStepDo w k1 s := by
  unfold ftStepFx
  rw [hstep]
  dsimp only
  rw [hk1, hdone]
  exact if_pos (by simp [hcycle])

/-- A step of FT that does not move it forward passes over nothing. -/
theorem ftStepDo_back {w : FtStepSt} {k1 : Nat} {s : State} (habs : w.abs = false)
    (hback : unsgn 96 ((ftNow (atFt (cycleFt s (k1 + cmpW s 0x60)) s) : Int) + w.amount) ≤
      ftNow (atFt (cycleFt s (k1 + cmpW s 0x60)) s)) :
    let u := atFt (cycleFt s (k1 + cmpW s 0x60)) s
    ftStepDo w k1 s = srvUp 5 4 1 (raise 0x0515 0 255 0 (evOr 0x4005000C 0x40
      (stepOrigin w w.amount { u with
        time.offset := unsgn 96 ((u.time.offset : Int) + w.amount), time.stepCnt := (u.time.stepCnt + 1) % 2 ^ 32,
        cmp.step := some { w with done := true } }))) := by
  intro u
  unfold ftStepDo
  dsimp only
  rw [habs, if_neg Bool.false_ne_true, if_neg (Nat.not_lt.mpr hback), if_neg (Nat.not_lt.mpr hback)]

/-- Settles O20: the branches of the two GO strobes, the ends of the slews, and a step backward. -/
theorem phaseStepCommands : Obligations.PhaseStepCommands := by
  unfold Obligations.PhaseStepCommands
  refine ⟨?_, ?_, ?_, ?_, ?_, ?_, ?_, ?_, ?_⟩
  · intro m s hw hmay
    rw [exec_pstepGo hw, pstepGoWr, lb_counted, hmay]
    rfl
  · intro m s hw hmay hbad
    rw [exec_pstepGo hw, pstepGoWr]
    dsimp only
    rw [lb_counted, hmay, pstepRegs_counted, cmpW_counted, if_neg (by simp), if_pos (by
      rw [Bool.or_eq_true, decide_eq_true_eq]
      exact hbad)]
  · intro m s hw hmay hform hns hbusy hnone
    rw [exec_pstepGo hw, pstepGoWr]
    dsimp only
    rw [lb_counted, hmay, pstepRegs_counted, cmpW_counted, cmpBusy_counted, hbusy, cmp_counted, hnone,
      if_neg (by simp), if_neg (by simp [hform, hns]), if_pos rfl]
    rfl
  · intro m s hw hmay habs hslew hns hidle
    rw [exec_pstepGo hw, pstepGoWr]
    dsimp only
    rw [lb_counted, hmay, pstepRegs_counted, cmpW_counted, cmpBusy_counted, hidle,
      if_neg (by simp), if_neg (by simp [habs, hns]), if_neg (by simp), pstepBegin]
    dsimp only
    rw [if_pos hslew, cmpW_counted, cmpW_counted]
  · intro m s hw hmay hslew hns hidle
    rw [exec_pstepGo hw, pstepGoWr]
    dsimp only
    rw [lb_counted, hmay, pstepRegs_counted, cmpW_counted, cmpBusy_counted, hidle,
      if_neg (by simp), if_neg (by simp [hslew, hns]), if_neg (by simp), pstepBegin]
    dsimp only
    rw [if_neg (by simp [hslew])]
  · intro m s hw k r
    rw [exec_realignGo hw, realignGoWr]
    simp only [cmpW_counted, lb_counted, grat_counted]
    refine congrArg (finish s) ?_
    unfold whenS
    by_cases hlate : k ≠ 0 ∧ k < s.grat.nextCycle
    · have hb : (k != 0 && decide (k < s.grat.nextCycle)) = true := by simpa using hlate
      rw [if_pos hlate, if_pos hb, if_pos hb]
    · have hb : ¬ (k != 0 && decide (k < s.grat.nextCycle)) = true := by simpa using hlate
      rw [if_neg hlate, if_neg hb, if_neg hb]
  · intro w s hslew hover hpstep hsel hcur
    exact congrArg (finish s) (slewDoneFx_ft hslew hover hpstep hsel hcur)
  · intro r s hrealign hslew hbegun hmoves
    refine congrArg (finish s) ?_
    show slewDoneFx .realign s = _
    unfold slewDoneFx
    dsimp only
    rw [hrealign]
    dsimp only
    rw [hmoves]
    exact if_pos (by simp [hslew, hbegun])
  · intro w k1 s hstep hk1 hdone hcycle habs u hback
    exact congrArg (finish s) ((ftStepFx_of hstep hk1 hdone hcycle).trans (ftStepDo_back habs hback))

end Sys2Proof.Machine
end

section
/-! Proofs. Compass ticks, reference edges and forward steps (R22, R85, R87, R104). -/

namespace Sys2Proof.Machine

/-! ### Words that an event does not touch -/

/-- Writing a key a value it would not have unlisted leaves every other key, whatever the form of the table. -/
theorem tabGet_tabSet_ne {α : Type} [DecidableEq α] {d : Nat → α} (m : Tab α) {k j : Nat} {v : α} (hv : v ≠ d k)
    (hj : j ≠ k) : tabGet d (tabSet d m k v) j = tabGet d m j := by
  induction m with
  | nil =>
    rw [tabSet, if_neg hv]
    simp [tabGet, hj]
  | cons e t ih =>
    obtain ⟨a, w⟩ := e
    rw [tabSet]
    by_cases hlt : k < a
    · rw [if_pos hlt, if_neg hv]
      by_cases hjk : j < k
      · simp [tabGet, hj, hjk, show j < a by omega, show j ≠ a by omega]
      · simp [tabGet, hj, hjk]
    · rw [if_neg hlt]
      by_cases heq : k = a
      · rw [if_pos heq, if_neg hv]
        subst heq
        simp [tabGet, hj]
      · rw [if_neg heq]
        simp only [tabGet, ih]

/-- An event of a word that is 0 at reset leaves every other word. -/
theorem lv_evOr_ne {a b m : Nat} (s : State) (hreset : resetOf a = 0) (hm : wd m ≠ 0) (hb : b ≠ a) :
    lv (evOr a m s) b = lv s b :=
  tabGet_tabSet_ne _ (by rw [hreset]; exact fun h => hm (BitVec.or_eq_zero_iff.mp h).2) hb

/-! ### Steps of FT (R78, R104) -/

/-- What the outputs do at a step leaves fabric time, the Graticule, Compass, memory and the family. -/
structure StepKeeps (s t : State) : Prop where
  lc : t.time.lc = s.time.lc
  offset : t.time.offset = s.time.offset
  rate : t.time.rate = s.time.rate
  stepCnt : t.time.stepCnt = s.time.stepCnt
  grat : t.grat = s.grat
  cmp : t.cmp = s.cmp
  mem : t.mem = s.mem
  famF : famF t = famF s

theorem StepKeeps.refl (s : State) : StepKeeps s s := by constructor <;> rfl

theorem StepKeeps.trans {s t u : State} (h : StepKeeps s t) (g : StepKeeps t u) : StepKeeps s u := by
  cases h; cases g; constructor <;> simp only [*]

theorem StepKeeps.evOr {a m : Nat} (s : State) (hreset : resetOf a = 0) (hm : wd m ≠ 0) (ha : 0x40070000 ≠ a) :
    StepKeeps s (evOr a m s) := by
  refine ⟨rfl, rfl, rfl, rfl, rfl, rfl, rfl, ?_⟩
  unfold Machine.famF lb
  rw [lv_evOr_ne s hreset hm ha]

theorem tevEvent_reset : ∀ n : Fin 4, resetOf (tevBase n + 0x1C) = 0 ∧ 0x40070000 ≠ tevBase n + 0x1C := by
  decide +kernel

theorem tevOnStep_keeps (n : Fin 4) (new : Nat) (s : State) : StepKeeps s (tevOnStep n new s) := by
  obtain ⟨hreset, hne⟩ := tevEvent_reset n
  have hput : ∀ x, StepKeeps s (tevPut n x s) := fun x => by constructor <;> rfl
  unfold tevOnStep
  dsimp only
  split
  · split
    · exact (hput _).trans (.evOr _ hreset (by decide) hne)
    · exact (hput _).trans (.evOr _ hreset (by decide) hne)
  · exact .refl s

theorem ppsOnStep_keeps (new : Nat) (s : State) : StepKeeps s (ppsOnStep new s) := by
  unfold ppsOnStep
  split
  · exact .evOr s (by decide +kernel) (by decide) (by decide)
  · exact .refl s

theorem outputsOnStep_keeps (new : Nat) (s : State) :
    StepKeeps s (ppsOnStep new (foldS (List.range 4) (fun n t => tevOnStep n new t) s)) := by
  have h0 := tevOnStep_keeps 0 new s
  have h1 := h0.trans (tevOnStep_keeps 1 new _)
  have h2 := h1.trans (tevOnStep_keeps 2 new _)
  have h3 := h2.trans (tevOnStep_keeps 3 new _)
  exact h3.trans (ppsOnStep_keeps new _)

theorem stepOrigin_frame (w : FtStepSt) (amt : Int) (s : State) :
    (stepOrigin w amt s).time = s.time ∧ (stepOrigin w amt s).grat = s.grat ∧ (stepOrigin w amt s).mem = s.mem ∧
      (stepOrigin w amt s).cmp.step = s.cmp.step := by
  unfold stepOrigin
  split
  · split <;> exact ⟨rfl, rfl, rfl, rfl⟩
  · exact ⟨rfl, rfl, rfl, rfl⟩

/-- FT moved forward by a step, with the cycles it passes over. -/
def movedForward (w : FtStepSt) (v : State) : State :=
  let u : State := { v with
    time.offset := unsgn 96 ((v.time.offset : Int) + w.amount), time.stepCnt := (v.time.stepCnt + 1) % 2 ^ 32,
    cmp.step := some { w with done := true } }
  { u with grat.nextCycle := max u.grat.nextCycle (ceilDiv (ftNow u * famF u) secU) }

/-- The rest of a step of FT forward, after the outputs that it passes over. -/
def forwardDone (w : FtStepSt) (v : State) : State :=
  srvUp 5 4 1 (raise 0x0515 0 255 0 (evOr 0x4005000C 0x40 (stepOrigin w w.amount (movedForward w v))))

theorem ftStepDo_forward {w : FtStepSt} {k1 : Nat} {s u : State} {new : Nat} (habs : w.abs = false)
    (hu : atFt (cycleFt s (k1 + cmpW s 0x60)) s = u) (hnew : unsgn 96 ((ftNow u : Int) + w.amount) = new)
    (hforward : ftNow u < new) :
    ftStepDo w k1 s = forwardDone w (ppsOnStep new (foldS (List.range 4) (fun n t => tevOnStep n new t) u)) := by
  unfold ftStepDo
  dsimp only
  rw [if_neg (by simp [habs] : ¬ w.abs = true), hu, hnew, if_pos hforward, if_pos hforward]
  generalize ppsOnStep new _ = v
  rfl

/-- What the rest of a step forward leaves of fabric time, Compass, memory and the Graticule. -/
theorem forwardDone_frame (w : FtStepSt) (v : State) :
    let offset := unsgn 96 ((v.time.offset : Int) + w.amount)
    let t := forwardDone w v
    t.time.offset = offset ∧ t.time.rate = v.time.rate ∧ t.time.stepCnt = (v.time.stepCnt + 1) % 2 ^ 32 ∧
      t.time.lc = v.time.lc ∧ t.cmp.step = some { w with done := true } ∧ t.mem = v.mem ∧
      t.grat.nextCycle = max v.grat.nextCycle (ceilDiv (ftOf offset v.time.rate v.time.lc 0 * famF v) secU) := by
  intro offset t
  obtain ⟨ktime, kgrat, kmem, kstep⟩ := stepOrigin_frame w w.amount (movedForward w v)
  have htime : t.time = (movedForward w v).time := (srvUp_time ..).trans ktime
  have hgrat : t.grat = (movedForward w v).grat := (srvUp_grat ..).trans kgrat
  have hmem : t.mem = v.mem := (srvUp_mem ..).trans kmem
  have hcmp : t.cmp = (stepOrigin w w.amount (movedForward w v)).cmp := srvUp_cmp ..
  have hstep : t.cmp.step = some { w with done := true } := (congrArg (·.step) hcmp).trans kstep
  rw [htime, hgrat]
  exact ⟨rfl, rfl, rfl, rfl, hstep, hmem, rfl⟩

/-! ### Ticks (R85 to R108) -/

/-- What the parts of a tick leave: local time, the tick count, memory, the cores, the matrix, the outputs and the
serial ports. -/
structure TickKeeps (s t : State) : Prop where
  lc : t.time.lc = s.time.lc
  ticks : t.cmp.ticks = s.cmp.ticks
  mem : t.mem = s.mem
  core : t.core = s.core
  mix : t.mix = s.mix
  out : t.out = s.out
  ser : t.ser = s.ser

namespace TickKeeps

theorem refl (s : State) : TickKeeps s s := by constructor <;> rfl

theorem trans {s t u : State} (h : TickKeeps s t) (g : TickKeeps t u) : TickKeeps s u := by
  cases h; cases g; constructor <;> simp only [*]

theorem of_keeps {s t : State} (h : Keeps s t) : TickKeeps s t :=
  ⟨congrArg (·.lc) h.time, congrArg (·.ticks) h.cmp, h.mem, h.core, h.mix, h.out, h.ser⟩

theorem of_ite {c : Prop} [Decidable c] {s t u : State} (h : TickKeeps s t) (g : TickKeeps s u) :
    TickKeeps s (if c then t else u) := by split <;> assumption

theorem foldS {α : Type} (l : List α) (f : α → State → State) (h : ∀ a s, TickKeeps s (f a s)) (s : State) :
    TickKeeps s (foldS l f s) := by
  unfold Machine.foldS
  induction l generalizing s with
  | nil => exact .refl s
  | cons a l ih => exact (h a s).trans (ih (f a s))

end TickKeeps

theorem candPut_tick (n : Nat) (c : Cand) (s : State) : TickKeeps s (candPut n c s) := by constructor <;> rfl
theorem evOr_tick (a m : Nat) (s : State) : TickKeeps s (evOr a m s) := .of_keeps (evOr_keeps ..)
theorem raise_tick (code cls i arg : Nat) (s : State) : TickKeeps s (raise code cls i arg s) := .of_keeps (raise_keeps ..)
theorem srvUp_tick (b i n : Nat) (s : State) : TickKeeps s (srvUp b i n s) := .of_keeps (srvUp_keeps ..)

/-- An event of a slot or of Compass, with the fault that it detects. -/
theorem raise_evOr_tick (code cls i arg a m : Nat) (s : State) : TickKeeps s (raise code cls i arg (evOr a m s)) :=
  (evOr_tick ..).trans (raise_tick ..)

theorem declareLos_tick (n : Nat) (s : State) : TickKeeps s (declareLos n s) :=
  ((candPut_tick ..).trans (.of_keeps (ctrUp_keeps ..))).trans (raise_evOr_tick ..)

theorem tickSlot_tick (n : Nat) (s : State) : TickKeeps s (tickSlot n s) := by
  unfold tickSlot
  refine .of_ite (candPut_tick ..) ?_
  extract_lets ptpBad c0 s0 src c1 cons drift warn past s1 c s2 c2 t
  have h0 : TickKeeps s s0 := .of_ite (declareLos_tick ..) (.of_ite (candPut_tick ..) (.refl s))
  have h1 : TickKeeps s s1 := h0.trans (candPut_tick ..)
  have h2 : TickKeeps s s2 := .of_ite (h1.trans ((candPut_tick ..).trans (raise_evOr_tick ..))) h1
  exact h2.trans (candPut_tick ..)

theorem showSel_tick (s : State) : TickKeeps s (showSel s) := by
  unfold showSel
  split
  · split <;> constructor <;> rfl
  · exact .refl s

theorem beginSwitch_tick (n : Nat) (s : State) : TickKeeps s (beginSwitch n s) := by
  unfold beginSwitch
  refine .trans ?_ (srvUp_tick ..)
  refine .trans ?_ (showSel_tick _)
  exact .trans (by constructor <;> rfl) (raise_evOr_tick ..)

theorem enterHoldover_tick (s : State) : TickKeeps s (enterHoldover s) :=
  .trans (.trans (by constructor <;> rfl) (raise_evOr_tick ..)) (showSel_tick _)

theorem enterLost_tick (s : State) : TickKeeps s (enterLost s) :=
  .trans (.trans (by constructor <;> rfl) (raise_evOr_tick ..)) (showSel_tick _)

theorem cmpLostRef_tick (s : State) : TickKeeps s (cmpLostRef s) := by
  unfold cmpLostRef
  split
  · exact .trans (by constructor <;> rfl) (beginSwitch_tick ..)
  · exact .of_ite (enterHoldover_tick s) (enterLost_tick s)

theorem cmpTransitions_tick (s : State) : TickKeeps s (cmpTransitions s) := by
  have hlost : TickKeeps s (cmpLostRef { s with cmp.sw := none }) :=
    .trans (by constructor <;> rfl) (cmpLostRef_tick _)
  have hswitch : ∀ n, TickKeeps s (beginSwitch n { s with cmp.st := 1 }) := fun n =>
    .trans (by constructor <;> rfl) (beginSwitch_tick n _)
  unfold cmpTransitions
  split
  · split
    · exact .of_ite (.refl s) hlost
    · exact cmpLostRef_tick s
  · split
    · exact .of_ite (.refl s) hlost
    · exact cmpLostRef_tick s
  · split
    · exact hswitch _
    · exact .refl s

theorem pstepBegin_tick (v : PstepVal) (s : State) : TickKeeps s (pstepBegin v s) := by
  unfold pstepBegin
  dsimp only
  split <;> constructor <;> rfl

theorem cmpNextWork_tick (s : State) : TickKeeps s (cmpNextWork s) := by
  unfold cmpNextWork
  refine .of_ite (.refl s) ?_
  split
  · exact pstepBegin_tick ..
  · split
    · exact .of_ite (.trans (by constructor <;> rfl) (beginSwitch_tick ..)) (by constructor <;> rfl)
    · exact .refl s

theorem tickRate_tick (s : State) : TickKeeps s (tickRate s) := by constructor <;> rfl

theorem tickBuildOut_tick (s : State) : TickKeeps s (tickBuildOut s) := by
  unfold tickBuildOut
  split
  · refine .of_ite ?_ (by constructor <;> rfl)
    refine .of_ite ?_ (candPut_tick ..)
    refine .trans ?_ (cmpNextWork_tick _)
    refine .trans ?_ (raise_evOr_tick ..)
    refine .trans ?_ (showSel_tick _)
    constructor <;> rfl
  · split
    · exact candPut_tick ..
    · exact .refl s

theorem tickPhase_tick (s : State) : TickKeeps s (tickPhase s) := by
  unfold tickPhase
  split <;> constructor <;> rfl

theorem tickHist_tick (s : State) : TickKeeps s (tickHist s) := by
  unfold tickHist
  split <;> constructor <;> rfl

theorem tickDrift_tick (s : State) : TickKeeps s (tickDrift s) := by constructor <;> rfl

theorem tickRealign_tick (s : State) : TickKeeps s (tickRealign s) := by
  unfold tickRealign
  split
  · exact .of_ite (by constructor <;> rfl) (.refl s)
  · exact .refl s

/-- A tick of Compass counts, at its instant, and leaves the other units. -/
structure TickDone (s t : State) : Prop where
  ticks : t.cmp.ticks = s.cmp.ticks + 1
  lc : t.time.lc = max s.time.lc ((s.cmp.ticks + 1) * 500000)
  mem : t.mem = s.mem
  core : t.core = s.core
  mix : t.mix = s.mix
  out : t.out = s.out
  ser : t.ser = s.ser

/-- The parts of a tick, from the tick's instant on. -/
def tickParts (s : State) : State :=
  tickRealign (tickHist (tickPhase (tickBuildOut (tickRate (tickDrift (cmpTransitions (foldS (List.range 8) tickSlot s)))))))

theorem tickParts_tick (s : State) : TickKeeps s (tickParts s) :=
  (((((((TickKeeps.foldS _ _ tickSlot_tick s).trans (cmpTransitions_tick _)).trans (tickDrift_tick _)).trans
    (tickRate_tick _)).trans (tickBuildOut_tick _)).trans (tickPhase_tick _)).trans (tickHist_tick _)).trans (tickRealign_tick _)

theorem compassTickFx_done (s : State) : TickDone s (compassTickFx s) := by
  have hparts := tickParts_tick (atLc ((s.cmp.ticks + 1) * 500000) s)
  unfold tickParts at hparts
  unfold compassTickFx
  dsimp only
  generalize tickRealign _ = v at *
  have hcounts := ((srvUp_keeps 5 2 (b2n (v.cmp.st == 3)) v).trans (srvUp_keeps 5 1 (b2n (v.cmp.st == 2)) _)).trans
    (srvUp_keeps 5 0 1 _)
  generalize srvUp 5 0 1 _ = u at *
  have hall := hparts.trans (.of_keeps hcounts)
  exact ⟨congrArg (· + 1) hall.ticks, hall.lc, hall.mem, hall.core, hall.mix, hall.out, hall.ser⟩

/-! ### Edges of the reference inputs (R87) -/

/-- The measurement that an arrival leaves. -/
def arrived (key period : Nat) (y phase aux : Int) (s : State) : Meas :=
  let m := measGet s key
  { seen := true, last := s.time.lc, since := if m.seen && s.time.lc ≤ m.last + 2 * period then m.since else s.time.lc,
    y := y, phase := phase, aux := aux }

/-- A reference edge is an arrival with a measured phase; its frequency is measured from the second edge on. -/
theorem refEdge_arrive (slot : Nat) (i : RefInput) (s : State) : ∃ y phase,
    refEdge slot i s =
        measPut (refKey i) (arrived (refKey i) (keyPeriod s slot (refKey i)) y phase (measGet s (refKey i)).aux s) s ∧
      ((measGet s (refKey i)).seen = false → y = (measGet s (refKey i)).y) := by
  unfold refEdge
  exact ⟨_, _, rfl, fun hseen => if_neg (by simp [hseen])⟩

/-- Settles O21: the parts of a tick leave the other units, an edge is measured at the present local time, a forward
step moves the offset past every output it crosses. -/
theorem compassMeasurementCommands : Obligations.CompassMeasurementCommands := by
  unfold Obligations.CompassMeasurementCommands
  refine ⟨?_, ?_, ?_⟩
  · intro s
    have hdone := compassTickFx_done s
    show ∃ t, finish s { compassTickFx s with sup.tick := true } = .next t ∧ _
    generalize compassTickFx s = u at *
    obtain ⟨ktime, -, kcmp, kmem, -, -, kmix, -, -, -, kcore, -, ksup, -, kout, kser, -⟩ :=
      (placementFrame s { u with sup.tick := true }).2
    exact ⟨_, rfl, (congrArg (·.ticks) kcmp).trans hdone.ticks, congrArg (·.tick) ksup,
      (congrArg (·.lc) ktime).trans hdone.lc, kmem.trans hdone.mem, kcore.trans hdone.core, kmix.trans hdone.mix,
      kout.trans hdone.out, kser.trans hdone.ser⟩
  · intro slot i s
    obtain ⟨y, phase, hrun, hy⟩ := refEdge_arrive slot i s
    exact ⟨arrived (refKey i) (keyPeriod s slot (refKey i)) y phase (measGet s (refKey i)).aux s, rfl, rfl,
      (ite_eq_or_eq ..).symm, rfl, fun hseen => ⟨if_neg (by simp [hseen]), hy hseen⟩, congrArg (finish s) hrun⟩
  · intro w k1 s hstep hk1 hdone hcycle habs u offset hforward
    have hrun : exec .ftStep s = .next (placed s (ftStepDo w k1 s)) :=
      congrArg (finish s) (ftStepFx_of hstep hk1 hdone hcycle)
    rw [ftStepDo_forward habs rfl rfl hforward] at hrun
    refine ⟨_, hrun, ?_⟩
    have hkeeps := outputsOnStep_keeps (unsgn 96 ((ftNow u : Int) + w.amount)) u
    generalize ppsOnStep _ _ = v at *
    obtain ⟨ktime, kgrat, kcmp, kmem, -⟩ := (placementFrame s (forwardDone w v)).2
    obtain ⟨hoffset, hrate, hcnt, hlc, hcmp, hmem, hnext⟩ := forwardDone_frame w v
    rw [ktime, kgrat, kcmp, kmem]
    rw [hkeeps.offset] at hoffset hnext
    rw [hkeeps.rate, hkeeps.lc, hkeeps.famF, hkeeps.grat] at hnext
    exact ⟨hoffset, hrate.trans hkeeps.rate, hcnt.trans (by rw [hkeeps.stepCnt]; rfl), hlc.trans hkeeps.lc, hcmp,
      hmem.trans hkeeps.mem, hnext⟩

end Sys2Proof.Machine
end

section
/-! Proofs. Writes and reads of registers, parity and ECC (R33 to R36, R47, R50 to R53, R457, R464, R466). -/

namespace Sys2Proof.Machine

theorem wd_toNat (v : Word) : wd v.toNat = v := by
  rw [wd, BitVec.ofNat_toNat, BitVec.setWidth_eq]

/-! ### Writes -/

/-- A write of a plain register that goes through acts by the register's access kind. -/
theorem busWrite_row {s : State} {m : Master} {a v : Word} {r : RegRow} (h : writes s m a.toNat = true)
    (hp : plainReg a.toNat = true) (hr : rowOf a.toNat = some r) :
    busWrite m a.toNat .word v.toNat s = regWrite m a.toNat v (counted s) ∧
      (r.acc = .rw ∨ r.acc = .rh → regWrite m a.toNat v (counted s) = shadowWrite a.toNat v r.wmask (counted s)) ∧
      (r.acc = .ri → regWrite m a.toNat v (counted s) = riWrite m a.toNat v r.wmask (counted s)) ∧
      (r.acc = .rc → regWrite m a.toNat v (counted s) = counted s) := by
  have hrow := regWrite_row m a.toNat v (counted s) r hp hr
  refine ⟨?_, fun hacc => ?_, fun hacc => ?_, fun hacc => ?_⟩
  · rw [busWrite_goes v.toNat h, wd_toNat]
  · rcases hacc with hacc | hacc <;> rw [hrow, hacc]
  · rw [hrow, hacc]
  · rw [hrow, hacc]

/-- A write of a word of an RI value of several words joins the master's holding register, or lands them all. -/
theorem riWrite_multi {m : Master} {a low n wmask : Nat} {v : Word} {s : State} (h : riMulti a = some (low, n)) :
    riWrite m a v wmask s = holdWrite m low n ((a - low) / 4) v s := by
  unfold riWrite
  dsimp only
  rw [h]

/-- A write of a register whose function is in reset waits (R457). -/
theorem busWrite_waits {s : State} {m : Master} {a : Nat} (v : Nat) (hreg : isReg a = true) (hissues : issues s m = true)
    (hfw : fwCheck s m a true = none) (hbad : badAccess s a .word = false) (hwin : winOf a ≠ 30)
    (hlocked : locked s m a = false) (hwaits : waitsReset s a = true) :
    busWrite m a .word v s = holdAcc { master := m, addr := a, wr := some (wd v) } (counted s) := by
  unfold busWrite
  rw [← counted]
  simp [hissues, fwCheck_counted, hfw, badAccess_counted, hbad, pBusy_reg _ a hreg, hwin, locked_counted, hlocked,
    waitsReset_counted, hwaits]

/-- Settles O22: a write acts by the access kind of its register; one that is refused, or held, does that instead. -/
theorem registerWriteCommands : Obligations.RegisterWriteCommands := by
  unfold Obligations.RegisterWriteCommands
  refine ⟨?_, ?_, ?_, ?_, ?_, ?_, ?_⟩
  · intro m a val r s hw hp hr hacc hused
    obtain ⟨hgo, hshadow, -, -⟩ := busWrite_row (v := val) hw hp hr
    refine congrArg (finish s) ((hgo.trans (hshadow hacc)).trans ?_)
    rw [shadowWrite, egrUnused_counted, hused, if_neg Bool.false_ne_true]
    obtain ⟨srv, hsrv⟩ := counted_withSrv s
    rw [hsrv]
    rfl
  · intro m a val r s hw hp hr hacc
    obtain ⟨hgo, hshadow, -, hrc⟩ := busWrite_row (v := val) hw hp hr
    refine congrArg (finish s) (hgo.trans ?_)
    rcases hacc with hacc | ⟨hacc, hunused⟩
    · exact hrc hacc
    · rw [hshadow (.inl hacc), shadowWrite, egrUnused_counted, hunused, if_pos rfl]
  · intro m a val z s hissues hfw hbad
    exact congrArg (finish s) (busWrite_bad val.toNat hissues hfw hbad)
  · intro m a val r low n s hw hp hr hacc hmulti htop h
    obtain ⟨hgo, -, hri, -⟩ := busWrite_row (v := val) hw hp hr
    refine congrArg (finish s) (((hgo.trans (hri hacc)).trans (riWrite_multi hmulti)).trans ?_)
    obtain ⟨srv, hsrv⟩ := counted_withSrv s
    rw [hsrv, holdWrite]
    dsimp only
    rw [if_neg (by omega)]
    rfl
  · intro m a val r low n s hw hp hr hacc hmulti hlower h ws
    obtain ⟨hgo, -, hri, -⟩ := busWrite_row (v := val) hw hp hr
    refine congrArg (finish s) (((hgo.trans (hri hacc)).trans (riWrite_multi hmulti)).trans ?_)
    obtain ⟨srv, hsrv⟩ := counted_withSrv s
    rw [hsrv, holdWrite]
    dsimp only
    rw [if_pos hlower]
    rfl
  · intro m a val s hreg hissues hfw hbad hwin hlocked hwaits
    refine congrArg (finish s) ((busWrite_waits val.toNat hreg hissues hfw hbad hwin hlocked hwaits).trans ?_)
    obtain ⟨srv, hsrv⟩ := counted_withSrv s
    rw [hsrv, wd_toNat]
    rfl
  · intro w s hheld
    refine congrArg (finish s) ?_
    show heldLandFx s = _
    rw [heldLandFx, hheld, if_neg (by simp), heldShadowLand]
    rw [show (atFt (cycleFt s s.grat.cycle + 250 * 65536) s).hub.held = [w] from hheld]
    rfl

/-! ### Reads -/

/-- The words whose faults a sweep finds, in a state with no bad shadow and one bad live word. -/
theorem liveFix_repairs {a : Nat} {s : State} (hshadow : hasShadow a = true) (hgood : s.hub.shadowBad = [])
    (hlive : s.hub.liveBad = [a]) (hclean : a ∉ s.hub.dirty) :
    let u := evOr (0x40000040 + 4 * winOf a) 0x20000000 { s with hub.liveBad := [] }
    liveFix a s = raise (winOf a * 256 + 1) 1 255 0
      (srvUp 0 4 1 { setLv a (shv s a) u with hub.pend := tset none s.hub.pend a none }) := by
  have hdrop : dropFrom a s.hub.liveBad = [] := by simp [hlive, dropFrom]
  unfold liveFix
  dsimp only
  rw [hshadow, hgood, if_pos (by simpa using hclean), hdrop]
  rfl

/-- A read of a memory word that goes through with an uncorrectable error answers 0 and is captured (R466). -/
theorem readCmd_ecc {m : Master} {a : Nat} {s : State} (h : memReads s m a = true) (hbad : s.eccBad = [a]) :
    readCmd m a s = { eccRead (masterId m) a (counted s) with rdata := [0] } := by
  simp only [memReads, Bool.and_eq_true, Bool.not_eq_true', Option.isNone_iff_eq_none, decide_eq_true_eq] at h
  obtain ⟨⟨⟨⟨hreg, hissues⟩, hfw⟩, hform⟩, halign⟩ := h
  have hecc : (counted s).eccBad = [a] := by
    obtain ⟨srv, hsrv⟩ := counted_withSrv s
    rw [hsrv]
    exact hbad
  have hfind : memReadFx m a (sizeOf .word) (counted s) = (0, eccRead (masterId m) a (counted s)) := by
    unfold memReadFx
    rw [hecc, List.find?_cons_of_pos (by simp [sizeOf]; omega)]
  have hread : busRead m a .word s = (0, eccRead (masterId m) a (counted s)) := by
    unfold busRead
    rw [← counted]
    simp only [hissues, fwCheck_counted, hfw, badAccess_counted, hform, hreg, waitsReset, waitsSnap, readGo, hfind,
      Bool.not_true, Bool.false_and, Bool.and_false, Bool.false_eq_true, if_false]
  unfold readCmd
  rw [hread]
  simp [readWaits, waitsReset, waitsSnap, hreg, wd]

/-- Settles O23: a read answers the word and does what its kind asks; a sweep repairs from the shadow. -/
theorem registerReadCommands : Obligations.RegisterReadCommands := by
  unfold Obligations.RegisterReadCommands
  refine ⟨?_, ?_, ?_, ?_, ?_⟩
  · intro m a n s hread hp hmulti hport hcap u
    refine congrArg (finish s) ((readCmd_goes hread).trans ?_)
    rw [regRead_low hp (reads_parity hread) hmulti hport hcap]
    rfl
  · intro m a hw s hread hp hmulti hmask u
    have hdec : (isReg a.toNat && decodes s a.toNat) = true := by
      simp only [reads, badAccess, Bool.and_eq_true, Bool.not_eq_true', Bool.or_eq_false_iff, Bool.not_eq_false'] at hread
      obtain ⟨⟨⟨⟨⟨⟨⟨hreg, -⟩, -⟩, ⟨hdec, -⟩, -⟩, -⟩, -⟩, -⟩, -⟩ := hread
      rw [hreg, hdec]
      rfl
    refine congrArg (finish s) ?_
    show clearReadFx m a.toNat hw.toNat s = _
    rw [clearReadFx, whenS, if_pos hdec, readCmd_goes hread, regRead_single hp (reads_parity hread) hmulti, plainRead]
    dsimp only
    rw [if_neg hmask]
  · intro s hshadow hlive
    refine congrArg (finish s) ?_
    show scrubFx [] [] s = _
    unfold scrubFx foldS
    dsimp only [List.foldl]
    rw [hshadow]
    dsimp only [List.filter, List.foldl]
    rw [hlive]
    rfl
  · intro a s hshadow hlive hvisit hhas hclean u v
    refine congrArg (finish s) ?_
    show scrubFx [] [] s = _
    have hv : liveFix a s = v := liveFix_repairs hhas hshadow hlive hclean
    unfold scrubFx foldS
    dsimp only [List.foldl]
    rw [hshadow]
    dsimp only [List.filter, List.foldl]
    rw [hlive]
    simp only [List.filter_cons, hvisit, if_true, List.filter_nil, List.foldl, hv]
  · intro m a s hread hgood
    have halign : a.toNat / 4 * 4 = a.toNat := by
      simp only [memReads, Bool.and_eq_true, decide_eq_true_eq] at hread
      omega
    have hskip : ¬ (isReg a.toNat || !decodes s a.toNat) = true := by
      simp only [memReads, badAccess, Bool.and_eq_true, Bool.not_eq_true', Bool.or_eq_false_iff, Bool.not_eq_false'] at hread
      obtain ⟨⟨⟨⟨hreg, -⟩, -⟩, ⟨hdec, -⟩, -⟩, -⟩ := hread
      simp [hreg, hdec]
    refine congrArg (finish s) ?_
    show memoryEccFx m a.toNat s = _
    rw [memoryEccFx, if_neg hskip, halign, hgood]
    exact readCmd_ecc (s := { s with eccBad := [a.toNat] }) hread rfl

end Sys2Proof.Machine
end

section
/-! Proofs. The timed steps of an output channel (R238 to R246, R257). -/

namespace Sys2Proof.Machine

/-- A guard of two conditions that hold. -/
theorem both_decide {p q : Prop} [Decidable p] [Decidable q] (hp : p) (hq : q) : (decide p && decide q) = true := by
  rw [decide_eq_true hp, decide_eq_true hq]
  rfl

/-! ### A channel's record -/

theorem outGet_outPut {s : State} (h : outsWf s = true) (n : Nat) (x : OutCh) : outGet (outPut n x s) n = x :=
  (tget_tset h n x n).trans (if_pos rfl)

theorem outPut_outPut {s : State} (h : outsWf s = true) (n : Nat) (x y : OutCh) :
    outPut n y (outPut n x s) = outPut n y s := by
  unfold outPut
  dsimp only
  rw [tset_tset h]

theorem outPut_outEvent (n i : Nat) (x : OutCh) (s : State) : outPut n x (outEvent n i s) = outEvent n i (outPut n x s) := rfl

theorem outPut_srvUp (n b i m : Nat) (x : OutCh) (s : State) : outPut n x (srvUp b i m s) = srvUp b i m (outPut n x s) := by
  unfold srvUp outPut
  dsimp only
  split <;> rfl

theorem outPut_whenS_raise (n : Nat) (x : OutCh) (c : Bool) (code cls i arg : Nat) (s : State) :
    outPut n x (whenS c (raise code cls i arg) s) = whenS c (raise code cls i arg) (outPut n x s) := by
  unfold whenS
  split <;> rfl

theorem outsWf_of {s t : State} (h : s.out = t.out) : outsWf s = outsWf t := by
  unfold outsWf
  rw [h]

/-- A channel just written enters a state. -/
theorem outEnter_outPut {s : State} (h : outsWf s = true) (k n st : Nat) (x : OutCh) :
    outEnter k n st (outPut n x s) = outEvent n 1 (outPut n { x with st := st, since := k, down := false } s) := by
  unfold outEnter
  rw [outGet_outPut h, outPut_outPut h]

theorem softW_of {s t : State} (h : s.hub = t.hub) : softW s = softW t := by
  unfold softW fam44
  rw [lb_of (congrArg (·.live) h)]

theorem spc_of {s t : State} (h : s.hub = t.hub) : spc s = spc t := by
  unfold spc
  rw [lf_of (congrArg (·.live) h)]

theorem outRampTo_of {s t : State} (h : s.hub = t.hub) (r : Ramp) (k cycles n1 : Nat) :
    outRampTo s r k cycles n1 = outRampTo t r k cycles n1 := by
  unfold outRampTo rampBefore
  rw [spc_of h]

/-- A channel just written, in no soft stop, starts softly. -/
theorem outSoftStart_outPut {s t : State} (h : outsWf t = true) (hhub : t.hub = s.hub) (k n : Nat) {x : OutCh}
    (hst : x.st ≠ 5) :
    outSoftStart k n (outPut n x t) = outEvent n 1 (outPut n { x with
      c := outRampTo s x.c k (softW s) 1, g := { n0 := 0, n1 := 1, start := k, len := softW s * spc s },
      st := 3, since := k, down := false } t) := by
  have hhub' : (outPut n x t).hub = s.hub := hhub
  unfold outSoftStart
  dsimp only
  rw [outGet_outPut h, if_neg (by simp [hst]), softW_of hhub', spc_of hhub', outRampTo_of hhub', outPut_outPut h,
    outEnter_outPut h]

/-- A channel just written latches off. -/
theorem outLatchOff_outPut {s : State} (h : outsWf s = true) (k n r : Nat) (x : OutCh) :
    outLatchOff k n r (outPut n x s) = outEvent n 2 (outEvent n 1 (outPut n { x with
      st := 9, since := k, down := false, result := r } s)) := by
  have hget : outGet (outEvent n 1 (outPut n { x with st := 9, since := k, down := false } s)) n =
      { x with st := 9, since := k, down := false } := outGet_outPut h n _
  unfold outLatchOff
  dsimp only
  rw [outEnter_outPut h, hget, outPut_outEvent, outPut_outPut h]

/-- The first part of a diagnostic: its measurements are recorded and counted. -/
theorem diagFx_of {n : Nat} {d : DiagIn} {s : State} (h : outsWf s = true) (hst : (outGet s n).st = 2)
    (htime : (outGet s n).since + cy60ms s ≤ s.grat.cycle) :
    let x := outGet s n
    let k := s.grat.cycle
    let l3 := lf s (outBase n) 20 1 = 0
    let fall := l3 && lf s (outBase n + 0xC) 0 16 < d.cap
    let x1 := { x with
      z := min 65535 d.z, cap := if l3 then min 65535 d.cap else x.cap, vofs := d.vofs.toInt, iofs := d.iofs.toInt }
    let u := srvUp 27 4 1 s
    let v := whenS fall (raise 0x1B17 1 n 0) u
    diagFx n d s = if diagResult s n d true = 0 then
        diagBatch k (outPass k n (outSoftStart k n (outPut n { x1 with diagOk := true, fallback := fall } v)))
      else diagBatch k (raise 0x1B16 2 n (diagResult s n d true)
        (outLatchOff k n (diagResult s n d true) (outPut n x1 u))) := by
  intro x k l3 fall x1 u v
  have hu : outsWf u = true := (outsWf_of (srvUp_out ..)).trans h
  unfold diagFx
  dsimp only
  rw [if_pos (both_decide hst htime), ← outPut_srvUp, outPut_outPut hu, ← outPut_whenS_raise]

/-- Settles O37: each timed step's guard holds, and its writes of the channel's record collapse into one. -/
theorem outputStateCommands : Obligations.OutputStateCommands := by
  unfold Obligations.OutputStateCommands
  intro n s hwf x b k
  refine ⟨?_, ?_, ?_, ?_, ?_, ?_, ?_, ?_⟩
  · intro d hst htime l3 fall y
    have hu : outsWf (srvUp 27 4 1 s) = true := (outsWf_of (srvUp_out ..)).trans hwf
    have hrun : exec (.diagComplete n d) s = finish s (diagFx n d s) := rfl
    rw [hrun, diagFx_of hwf hst htime]
    refine ⟨fun hpass => ?_, fun hfail => ?_⟩
    · have hv : outsWf (whenS fall (raise 0x1B17 1 n 0) (srvUp 27 4 1 s)) = true := by
        unfold whenS
        split <;> exact hu
      have hhub : (whenS fall (raise 0x1B17 1 n 0) (srvUp 27 4 1 s)).hub = s.hub := by
        unfold whenS
        split <;> exact srvUp_hub ..
      have hnot : x.st ≠ 5 := by omega
      rw [if_pos hpass]
      exact congrArg (fun v => finish s (diagBatch k (outPass k n v))) (outSoftStart_outPut hv hhub k n hnot)
    · rw [if_neg hfail, outLatchOff_outPut hu]
      rfl
  · intro hst htime
    have hrun : exec (.shortHoldExpiry n) s = finish s (shortHoldFx n s) := rfl
    rw [hrun, shortHoldFx]
    dsimp only
    rw [if_pos (both_decide hst htime)]
    refine ⟨fun hleft => ?_, fun hnone => ?_⟩
    · rw [if_pos hleft, outEnter_outPut hwf]
      rfl
    · have hrest : (outGet s n).retry - 1 = (outGet s n).retry := by
        rw [show (outGet s n).retry = 0 from hnone]
      rw [if_neg (fun h => Nat.lt_irrefl 0 (Nat.lt_of_lt_of_eq h hnone)), outLatchOff_outPut hwf, hrest]
      rfl
  · intro d hst htime
    have hrun : exec (.retestComplete n d) s = finish s (retestFx n d s) := rfl
    rw [hrun, retestFx]
    dsimp only
    rw [if_pos (both_decide hst htime)]
    refine ⟨fun hpass => ?_, fun hfail => ?_⟩
    · rw [if_pos hpass, outEnter_outPut hwf]
      rfl
    · rw [if_neg hfail, outShortHold, outEnter_outPut hwf]
      rfl
  · intro hst htime
    exact congrArg (finish s) (if_pos (both_decide hst htime))
  · intro hst htime y u
    have hrun : exec (.recoverComplete n) s = finish s (recoverFx n s) := rfl
    have hsleep : outSleep k n s = u := outEnter_outPut hwf k n 5 _
    rw [hrun, recoverFx]
    dsimp only
    rw [if_pos (both_decide hst htime), hsleep]
    have hget : outGet u n = y := outGet_outPut hwf n y
    rw [hget]
    rfl
  · intro hst hup htime
    have hst' : (decide (x.st = 5) || decide (x.st = 11)) = true := by
      rw [Bool.or_eq_true, decide_eq_true_eq, decide_eq_true_eq]
      exact hst
    refine congrArg (finish s) (if_pos ?_)
    rw [Bool.and_eq_true, Bool.and_eq_true]
    exact ⟨⟨hst', by rw [show (outGet s n).down = false from hup]; rfl⟩, decide_eq_true htime⟩
  · intro hst htime
    have hrun : exec (.stoppingComplete n) s = finish s (stoppingFx n s) := rfl
    have hget : outGet (outEnter k n 0 s) n = { x with st := 0, since := k, down := false } := outGet_outPut hwf n _
    rw [hrun, stoppingFx]
    rw [if_pos (both_decide hst htime), outToOff, hget, outEnter, outPut_outEvent, outPut_outPut hwf]
    rfl
  · intro hst htime
    exact congrArg (finish s) (if_pos (both_decide hst htime))

end Sys2Proof.Machine
end

section
/-! Proofs. Commands of the TDM ports (R263, R266 to R275, R283). -/

namespace Sys2Proof.Machine

/-! ### What a frame carries -/

/-- One slot of DOUT, as R269 words it: idle, new (one zero frame) or its word. -/
theorem tdmSend_cells (n : Nat) (row : List Int) (sent : Nat → Int) (s : State) (hrow : ∀ i, getAt 0 row i = sent i) :
    let x := tdmGet s n
    let cells := (List.range (tdmNslot s n)).map (fun i =>
      if nbit x.txM i = false then (if lb s (tdmBase n) 7 then some 0 else none, false)
      else if nbit x.newTx i then (some 0, false)
      else (some (tdmFromA32 s n (sent i)).1, (tdmFromA32 s n (sent i)).2))
    let sats := (cells.filter (fun c => c.2)).length
    tdmSend n row s = foldS (List.range sats) (fun _ t => ctrUp (tdmBase n + 0x28) 0 8 t)
      (whenS (sats != 0) (evOr (tdmBase n + 0x20) 8)
        (tdmPut n { x with dout := cells.map (fun c => c.1), newTx := 0 } s)) := by
  unfold tdmSend
  simp only [hrow, Bool.not_eq_true']

/-- The word of slot i of a frame whose row is empty before the first sample. -/
theorem getAt_ite_nil (c : Bool) (p : Prop) [Decidable p] (row : List Int) (i : Nat) :
    getAt 0 (if (c || decide p) = true then [] else row) i = if c = true ∨ p then 0 else getAt 0 row i := by
  simp only [Bool.or_eq_true, decide_eq_true_eq]
  split <;> rfl

/-- The new slots of a mask: the bits that it sets and the old one does not. -/
theorem foldl_newBits (l : List Nat) (p : Nat → Bool) (z : Nat) :
    l.foldl (fun a i => if p i then a else a + 2 ^ i) z = (l.filter (fun i => !p i)).foldl (fun a i => a + 2 ^ i) z := by
  rw [List.foldl_filter]
  congr 1
  funext a i
  cases p i <;> rfl

/-! ### The commands -/

theorem exec_tdmFrame (n : Fin 8) (din : List Word) (s : State) (hrun : (tdmGet s n).running = true)
    (hlead : tdmFollower s n = false) :
    let x := tdmGet s n
    let j := nextFrame s (spc s) x.j x.stepSeen (tdmOfs s n)
    let s1 := atFt (frameFt s (spc s) j (tdmOfs s n)) s
    let s2 := srvUp 25 0 1 (tdmSend n (if x.first || j = 0 then [] else tdmEgress s1 n (j - 1)) s1)
    let s3 := arriveLocal 3 n (j + 1) (tdmMasked s2 n (tdmRow s2 n din)) s2
    exec (.tdmFrame n din) s = .next (placed s
      (tdmPut n { tdmGet s3 n with j := j + 1, first := false, stepSeen := s3.time.stepCnt } s3)) := by
  refine congrArg (finish s) (if_pos ?_)
  rw [hrun, hlead]
  rfl

/-- The row that a frame of the external clock drains; an empty buffer's row is a free value. -/
def tdmOutRow (n : Nat) (s : State) : List Int :=
  match (tdmGet s n).outb with
  | q :: _ => q
  | [] => (List.range (tdmNslot s n)).map (fun i => sgn 32 (draw .emptyFrame (n * 32 + i) s))

theorem tdmOutRow_ne {n : Nat} {s : State} (h : (tdmGet s n).outb ≠ []) : tdmOutRow n s = getAt [] (tdmGet s n).outb 0 := by
  unfold tdmOutRow
  cases hout : (tdmGet s n).outb with
  | nil => exact absurd hout h
  | cons q rest => rfl

theorem tdmOutRow_length {n : Nat} {s : State} (h : (tdmGet s n).outb = []) :
    (tdmOutRow n s).length = tdmNslot s n := by
  unfold tdmOutRow
  rw [h]
  simp

theorem tdmReceivedFx_follower {n : Nat} {s : State} (hrun : (tdmGet s n).running = true) (hfol : tdmFollower s n = true)
    (bits : Nat) (din : List Word) :
    let x := tdmGet s n
    let taken := bits = tdmFlen s n ∧ x.inb.length < 16
    let fs := famF s * spc s
    let s1 := tdmSend n (tdmOutRow n s) s
    let x1 := { tdmGet s1 n with
      outb := x.outb.drop 1, fsync := s.time.lc, frac := 0, inb := if taken then x.inb ++ [tdmRow s n din] else x.inb,
      refill := x.refill || (bits == tdmFlen s n && decide (16 ≤ x.inb.length)) }
    let s2 := tdmPut n x1 s1
    tdmReceivedFx n bits din s = arrive (24 + n) (ceilDiv 500000000 fs) (frameY s x.fsync fs)
      (((2048 : Int) - tdmLevel x1) * secU / (256 * fs : Nat)) 0
      (srvUp 25 0 1 (if taken then s2 else
        srvUp 25 3 1 (evOr (tdmBase n + 0x20) 2 (ctrUp (tdmBase n + 0x28) 16 8 s2)))) := by
  intro x taken fs s1 x1 s2
  have hbad : (bits != tdmFlen s n || decide (16 ≤ x.inb.length)) = !decide taken := by
    rw [Bool.eq_iff_iff]
    simp only [taken, Bool.or_eq_true, bne_iff_ne, decide_eq_true_eq, Bool.not_eq_true', decide_eq_false_iff_not]
    omega
  have hfull : (!(bits != tdmFlen s n) && decide (16 ≤ x.inb.length)) =
      (bits == tdmFlen s n && decide (16 ≤ x.inb.length)) := by
    rw [bne, Bool.not_not]
  have hin : (if (!decide taken) = true then x.inb else x.inb ++ [tdmRow s n din]) =
      if taken then x.inb ++ [tdmRow s n din] else x.inb := by
    by_cases ht : taken <;> simp [ht]
  have hcount : whenS (!decide taken)
      (fun t => srvUp 25 3 1 (evOr (tdmBase n + 0x20) 2 (ctrUp (tdmBase n + 0x28) 16 8 t))) s2 =
      if taken then s2 else srvUp 25 3 1 (evOr (tdmBase n + 0x20) 2 (ctrUp (tdmBase n + 0x28) 16 8 s2)) := by
    by_cases ht : taken <;> simp [ht, whenS]
  unfold tdmReceivedFx
  dsimp only
  rw [if_pos (by rw [hrun, hfol]; rfl), hbad, hfull, hin, ← hcount]
  rfl

/-- An internal frame: `s2` is the state in which the oldest received frame, if any, has arrived. -/
theorem tdmInternalFx_follower {n : Nat} {s : State} (hrun : (tdmGet s n).running = true)
    (hfol : tdmFollower s n = true) (s2 : State) :
    let x := tdmGet s n
    let j := nextFrame s (spc s) x.j x.stepSeen 0
    let s1 := atFt (frameFt s (spc s) j 0) s
    let s3 := tdmPlace n j (if x.first ∨ j = 0 then List.replicate (tdmNslot s n) 0 else tdmEgress s2 n (j - 1)) s2
    (x.inb = [] → s2 = s1) →
    (∀ r t, x.inb = r :: t →
      s2 = arriveLocal 3 n (j + 1) (tdmMasked s1 n r) (tdmPut n { x with inb := t, lastIn := r } s1)) →
    tdmInternalFx n s = tdmPut n { tdmGet s3 n with j := j + 1, first := false, stepSeen := s3.time.stepCnt } s3 := by
  intro x j s1 s3 hnil hcons
  unfold tdmInternalFx
  dsimp only
  rw [if_pos (by rw [hrun, hfol]; rfl)]
  simp only [Bool.or_eq_true, decide_eq_true_eq]
  cases hx : (tdmGet s n).inb with
  | nil =>
    have h2 := hnil hx
    subst h2
    rfl
  | cons r t =>
    dsimp only
    rw [← hcons r t hx]

theorem rxInternalFx_audio {r : Nat} {s : State} (hrun : (rxGet s r).running = true)
    (haudio : (rxGet s r).audio = true) (s2 : State) :
    let x := rxGet s r
    let j := nextFrame s (rxNeed s r) x.j x.stepSeen 0
    let s1 := atFt (frameFt s (rxNeed s r) j 0) s
    (x.inb = [] → s2 = s1) →
    (∀ w t, x.inb = w :: t → s2 = arriveLocal 4 r (j + 1) w (rxPut r { x with inb := t, lastIn := w } s1)) →
    rxInternalFx r s = rxPut r { rxGet s2 r with j := j + 1, stepSeen := s2.time.stepCnt } s2 := by
  intro x j s1 hnil hcons
  unfold rxInternalFx
  dsimp only
  rw [if_pos (by rw [hrun, haudio]; rfl)]
  cases hx : (rxGet s r).inb with
  | nil =>
    have h2 := hnil hx
    subst h2
    rfl
  | cons w t =>
    dsimp only
    rw [← hcons w t hx]

/-- Settles O39: each command's guard holds, and the words it sends or takes are those of its row. -/
theorem tdmPortCommands : Obligations.TdmPortCommands := by
  unfold Obligations.TdmPortCommands
  refine ⟨?_, ?_, ?_, ?_, ?_, ?_, ?_, ?_, ?_⟩
  · intro n ft s hdue hft
    have hrun : exec (.tdmStop (.tdm n)) s = finish s (tdmStopFx n s) := rfl
    rw [hrun, tdmStopFx, hdue]
    exact congrArg (finish s) (if_pos hft)
  · intro t ft s hdue hft
    have hrun : exec (.tdmStop (.aes t)) s = finish s (txStopFx t s) := rfl
    rw [hrun, txStopFx, hdue]
    exact congrArg (finish s) (if_pos hft)
  · intro n ft s hdue hrun hft
    refine ⟨_, ?_, rfl⟩
    have hexec : exec (.maskApply n) s = finish s (maskFx n s) := rfl
    rw [hexec, maskFx]
    dsimp only
    rw [hdue]
    dsimp only
    rw [if_pos (by rw [hrun, decide_eq_true hft]; rfl), foldl_newBits]
    rfl
  · intro n din s hrun hlead x j s1 sent cells sats s2 s3
    refine (exec_tdmFrame n din s hrun hlead).trans ?_
    have hsend := tdmSend_cells n (if x.first || j = 0 then [] else tdmEgress s1 n (j - 1)) sent s1
      (fun i => getAt_ite_nil x.first (j = 0) _ i)
    dsimp only
    rw [hsend]
    rfl
  · intro n bits din s hrun hfol x taken fs
    exact ⟨tdmOutRow n s, tdmOutRow_ne, tdmOutRow_length, congrArg (finish s) (tdmReceivedFx_follower hrun hfol bits din)⟩
  · intro n s hrun hfol x j s1 s2 s3
    exact congrArg (finish s) (tdmInternalFx_follower hrun hfol s2 (fun h => if_pos h) (fun r t h => by
      simp [s2, show x.inb = r :: t from h, getAt]
      rfl))
  · intro r s hrun haudio x j s1 s2
    exact congrArg (finish s) (rxInternalFx_audio hrun haudio s2 (fun h => if_pos h) (fun w t h => by
      simp [s2, show x.inb = w :: t from h, getAt]
      rfl))
  · intro n s hrun hfol hlost
    exact congrArg (finish s) (if_pos (by rw [hrun, hfol, hlost]; rfl))
  · intro n s hrun hlost
    exact congrArg (finish s) (if_pos (by rw [hrun, hlost]; rfl))

end Sys2Proof.Machine
end

section
/-! Proofs. Commands of the AES3 receivers and transmitters (R277 to R282). -/

namespace Sys2Proof.Machine

/-! ### A receiver's record -/

theorem rxGet_rxPut {s : State} (h : rxWf s = true) (r : Nat) (x : AesRx) : rxGet (rxPut r x s) r = x :=
  (tget_tset h r x r).trans (if_pos rfl)

theorem rxPut_rxPut {s : State} (h : rxWf s = true) (r : Nat) (x y : AesRx) :
    rxPut r y (rxPut r x s) = rxPut r y s := by
  unfold rxPut
  dsimp only
  rw [tset_tset h]

/-- A lock change of a receiver just written. -/
theorem rxLockChange_rxPut {s : State} (h : rxWf s = true) (r : Nat) (v : Bool) (y : AesRx) :
    rxLockChange r v (rxPut r y s) = evOr (rxBase r + 0x10) 1 (ctrUp (rxBase r + 0x18) 8 8
      (rxPut r { y with lock := v, held := y.held && v, blockOk := y.blockOk && v } s)) := by
  unfold rxLockChange
  dsimp only
  rw [rxGet_rxPut h, rxPut_rxPut h]

/-- The state of a good frame once its run of good frames is counted and a lock it reaches is taken. -/
def rxGoodState (r : Nat) (x y : AesRx) (s : State) : State :=
  if x.lock then rxPut r y s else
    evOr (rxBase r + 0x10) 1 (ctrUp (rxBase r + 0x18) 8 8 (rxPut r { y with lock := true } s))

theorem rxLockChange_good {s : State} (h : rxWf s = true) (r : Nat) {x y : AesRx} (hon : x.lock = true ∨ 7 ≤ x.good) :
    (if (!x.lock && decide (8 ≤ x.good + 1)) = true then rxLockChange r true (rxPut r y s) else rxPut r y s) =
      rxGoodState r x y s := by
  unfold rxGoodState
  cases hlock : x.lock with
  | true => rfl
  | false =>
    have hgood : 8 ≤ x.good + 1 := by
      rcases hon with hon | hon
      · exact absurd (hlock.symm.trans hon) Bool.false_ne_true
      · omega
    rw [if_pos (by rw [decide_eq_true hgood]; rfl), rxLockChange_rxPut h, Bool.and_true, Bool.and_true]
    rfl

theorem rxGoodState_lock {s : State} (h : rxWf s = true) (r : Nat) {x y : AesRx} (hy : y.lock = x.lock) :
    (rxGet (rxGoodState r x y s) r).lock = true := by
  unfold rxGoodState
  split
  · rename_i hlock
    rw [rxGet_rxPut h, hy, hlock]
  · unfold rxGet
    rw [evOr_ser, ctrUp_ser]
    exact congrArg (·.lock) (rxGet_rxPut h r { y with lock := true })

/-! ### The commands -/

theorem aesRxFx_codeErr {r : Nat} {f : AesFrame} {s : State} (hwf : rxWf s = true) (hrun : (rxGet s r).running = true)
    (herr : f.codeErr = true) :
    let x := rxGet s r
    let y := { x with good := 0, bad := x.bad + 1, blockOk := false }
    aesRxFx r f s = if x.lock ∧ 1 ≤ x.bad then
        evOr (rxBase r + 0x10) 1 (ctrUp (rxBase r + 0x18) 8 8 (rxPut r { y with lock := false, held := false } s))
      else rxPut r y s := by
  intro x y
  unfold aesRxFx
  dsimp only
  rw [if_neg (by rw [hrun]; decide), if_pos herr, rxLockChange_rxPut hwf]
  simp only [Bool.and_eq_true, decide_eq_true_eq, Bool.and_false, Nat.reduceLeDiff]
  rfl

theorem aesRxFx_unlocked {r : Nat} {f : AesFrame} {s : State} (hwf : rxWf s = true) (hrun : (rxGet s r).running = true)
    (herr : f.codeErr = false) (hlock : (rxGet s r).lock = false) (hgood : (rxGet s r).good < 7) :
    aesRxFx r f s = rxPut r { rxGet s r with good := min 8 ((rxGet s r).good + 1), bad := 0 } s := by
  have hfew : ¬ 8 ≤ (rxGet s r).good + 1 := by omega
  unfold aesRxFx
  dsimp only
  rw [if_neg (by rw [hrun]; decide), if_neg (by rw [herr]; decide), decide_eq_false hfew, Bool.and_false,
    if_neg Bool.false_ne_true, rxGet_rxPut hwf, if_pos (by dsimp only; rw [hlock]; rfl)]

/-- A good frame under lock: its audio, its errors, its block bits, and at a Z preamble an arrival. -/
theorem aesRxFx_good {r : Nat} {f : AesFrame} {s : State} (hwf : rxWf s = true) (hrun : (rxGet s r).running = true)
    (herr : f.codeErr = false) (hon : (rxGet s r).lock = true ∨ 7 ≤ (rxGet s r).good) :
    let x := rxGet s r
    let s2 := rxGoodState r x { x with good := min 8 (x.good + 1), bad := 0 } s
    let row := [rxAudio s2 r f.a (getAt 0 x.prev 0), rxAudio s2 r f.b (getAt 0 x.prev 1)]
    let s4 := rxPush r row (rxBlock r f (srvUp 26 0 1 (rxCount r f.b (rxCount r f.a
      (rxPut r { rxGet s2 r with prev := row } s2)))))
    let ph := ftNow s * (famF s * spc s) % (192 * secU)
    let half : Int := if 2 * ph ≤ 192 * secU then ph else (ph : Int) - 192 * secU
    aesRxFx r f s = if f.zPre = true then
        arrive (16 + r) (ceilDiv 500000000 (max 1 x.rate)) (frameY s (measGet s (16 + r)).last (x.rate / 192))
          (half / (famF s * spc s : Nat)) x.rate s4
      else s4 := by
  intro x s2 row s4 ph half
  have hlock : (rxGet s2 r).lock = true := rxGoodState_lock hwf r rfl
  have hnot : ¬ (!(rxGet s2 r).lock) = true := by
    rw [hlock]
    decide
  unfold aesRxFx
  dsimp only
  rw [if_neg (by rw [hrun]; decide), if_neg (by rw [herr]; decide), rxLockChange_good hwf r hon]
  exact if_neg hnot

/-- Settles O40: the branches of a frame, by its code error and by the lock. -/
theorem aesCommands : Obligations.AesCommands := by
  unfold Obligations.AesCommands
  refine ⟨?_, ?_, ?_, ?_, ?_⟩
  · intro r f s hrun
    exact congrArg (finish s) (if_pos (by rw [hrun]; rfl))
  · intro r f s hwf hrun herr x y
    exact congrArg (finish s) (aesRxFx_codeErr hwf hrun herr)
  · intro r f s hwf hrun herr x y
    refine ⟨fun hlock hgood => congrArg (finish s) (aesRxFx_unlocked hwf hrun herr hlock hgood),
      fun hon => ?_⟩
    intro s2 row s4
    refine ⟨fun hz => ?_, fun hz => ?_⟩
    · exact congrArg (finish s) ((aesRxFx_good hwf hrun herr hon).trans (if_neg (by rw [hz]; decide)))
    · exact congrArg (finish s) ((aesRxFx_good hwf hrun herr hon).trans (if_pos hz))
  · intro r n s hrun x sec m past near change
    exact congrArg (finish s) (if_neg (by rw [hrun]; decide))
  · intro t s hrun x j s1 a ws sats blk
    exact congrArg (finish s) (if_pos hrun)

end Sys2Proof.Machine
end

section
/-! Proofs. Links, transmission and PAUSE of the fabric ports (R74, R286 to R288, R297, R301 to R304). -/

namespace Sys2Proof.Machine

theorem linkUpFx_down {p : Nat} {s : State} (halive : prtAlive s p = true) (hup : (prtGet s p).up = false)
    (hdue : (prtGet s p).upDue = false) (phTx phRx : Int) (inv : Bool) (an : Nat) :
    let b := prtBase p
    let neg := prtMode s p = 1 && lb s b 5
    let s1 := prtPut p { prtGet s p with
      upDue := true, phaseTx := phTx, phaseRx := phRx, rxInv := inv, anDone := neg, anPause := if neg then an else 0 } s
    let s2 := if lb s (b + 0x400) 1 then s1
      else setLv (b + 0x408) (wd (calLat s p).2) (setLv (b + 0x404) (wd (calLat s p).1) s1)
    linkUpFx p phTx phRx inv an s =
      if inv then raise ((8 + p) * 256 + 0x12) 0 255 0 (evOr (b + 8) 2 s2) else s2 :=
  if_pos (by rw [halive, hup, hdue]; rfl)

/-! ### LINK_DOWN -/

/-- What a link that goes down keeps of its port. -/
def portDown (x : PortSt) : PortSt :=
  { txHead := x.txHead, rxHead := x.rxHead, wire := x.wire, wireBad := x.wireBad,
    txDesc := x.txDesc.map (fun d => (d.1, 0)), holdoff := x.holdoff }

theorem linkDrop_up {p : Nat} {s : State} (hup : (prtGet s p).up = true) :
    linkDrop p s = raise ((8 + p) * 256 + 0x11) 1 255 0 (evOr (prtBase p + 8) 1 (prtPut p (portDown (prtGet s p)) s)) := by
  unfold linkDrop
  dsimp only
  rw [hup]
  rfl

theorem linkDrop_due {p : Nat} {s : State} (hup : (prtGet s p).up = false) (hdue : (prtGet s p).upDue = true) :
    linkDrop p s = prtPut p (portDown (prtGet s p)) s := by
  unfold linkDrop
  dsimp only
  rw [hup, hdue]
  rfl

theorem linkDownFx_of {p : Nat} {s : State} (h : ((prtGet s p).up || (prtGet s p).upDue) = true) :
    linkDownFx p s = pairSync (adjDown p (linkDrop p s)) := if_pos h

/-! ### TX_FRAME_START -/

/-- The state in which the frames that no run can ever hold have left the head of their queues. -/
def gateDropped (s : State) (p : Nat) : State :=
  [0, 1, 2].foldl (fun u c => dropGate p c (qOf (prtGet s p) c).length u) s

theorem txStart_none {p : Nat} {s : State} (hup : (prtGet s p).up = true) (hpick : pickClass (gateDropped s p) p = none) :
    txStart p s = gateDropped s p := by
  unfold txStart
  dsimp only
  rw [if_neg (by rw [hup]; decide)]
  unfold gateDropped at hpick ⊢
  rw [hpick]

theorem txStart_frame {p t c : Nat} {f : TxFrame} {rest : List TxFrame} {s : State} (hup : (prtGet s p).up = true)
    {s0 : State} (hs0 : gateDropped s p = s0) (hpick : pickClass s0 p = some (t, c))
    (hq : qOf (prtGet s0 p) c = f :: rest) :
    let r := ptpOut p f (atFt t s0)
    let z := prtGet r.2 p
    let ends := r.2.time.lc + ceilDiv (byteDur r.2 p (fTimes r.1.bytes)) 131072
    let s3 := srvUp (8 + p) (2 + c) 1 (srvUp (8 + p) 5 (fLen r.1.bytes) (prtPut p { z with
      q := setAt z.q c rest, cur := some (ends, r.1), wire := fPad r.1.bytes, wireBad := r.1.stomp,
      txDesc := z.txDesc.map (fun d => (d.1, if f.desc then d.2 - 1 else d.2)) } r.2))
    let s4 := whenS r.1.pause (prtCnt p 12) (whenS r.1.stomp (prtCnt p 5) (prtCnt p 4 (txAdmit p s3)))
    txStart p s = f.src.elim s4 (fun e => pauseCheck e s4) := by
  unfold txStart
  dsimp only
  rw [if_neg (by rw [hup]; decide)]
  unfold gateDropped at hs0
  rw [hs0, hpick]
  dsimp only
  rw [hq]
  dsimp only
  -- what is left of the descriptor in progress
  generalize (prtGet (ptpOut p f (atFt t s0)).2 p).txDesc = d
  cases f.src <;> rcases d with _ | ⟨res, left⟩ <;> cases f.desc <;> rfl

/-- Settles O41: the guard of each command holds, and its branch is the stated one. -/
theorem portCommands : Obligations.PortCommands := by
  unfold Obligations.PortCommands
  refine ⟨?_, ?_, ?_, ?_, ?_, ?_, ?_, ?_, ?_⟩
  · intro p phTx phRx inv an s halive hup hdue b neg s1 s2
    exact congrArg (finish s) (linkUpFx_down halive hup hdue phTx phRx inv an)
  · intro p s x s1
    refine ⟨fun hup => ?_, fun hup hdue => ?_⟩
    · refine congrArg (finish s) ((linkDownFx_of (by rw [hup]; rfl)).trans ?_)
      rw [linkDrop_up hup]
      rfl
    · refine congrArg (finish s) ((linkDownFx_of (by rw [hup, hdue]; rfl)).trans ?_)
      rw [linkDrop_due hup hdue]
      rfl
  · intro p t c f rest s hup s0 hpick hq r z ends s3 s4
    exact congrArg (finish s) (txStart_frame hup rfl hpick hq)
  · intro p s hup s0 hpick
    exact congrArg (finish s) (txStart_none hup hpick)
  · intro p s hp x
    have hstop : pauseStop x.pauseEnd x = { x with
        paused := false, stops := x.stops.filter (fun e => decide (x.pauseEnd ≤ e.2 + 5000000)) ++ [(x.pauseAt, x.pauseEnd)] } :=
      if_pos hp
    rw [← hstop]
    exact congrArg (finish s) (if_pos hp)
  · intro p s hup hxoff hen hocc s1
    exact congrArg (finish s) (if_pos (by rw [hup, hxoff, hen, decide_eq_true hocc]; rfl))
  · intro p i s hp harm hoff x lim hfind s1
    have hexec : exec (.pauseWdTrip p) s = finish s (pauseTripFx p s) := rfl
    rw [hexec, pauseTripFx]
    dsimp only
    rw [if_pos (by rw [hp, harm, hoff]; rfl), hfind]
    rfl
  · intro p t s hoff
    have hexec : exec (.holdoffEnd p) s = finish s (holdoffFx p s) := rfl
    rw [hexec, holdoffFx]
    dsimp only
    rw [hoff]
    rfl
  · intro flow d s hd
    have hexec : exec (.duplicateStateTimeout flow) s = finish s (dupTimeoutFx flow.toNat s) := rfl
    rw [hexec, dupTimeoutFx, hd]
    exact ⟨fun h => congrArg (finish s) (if_pos h), fun h => congrArg (finish s) (if_neg (Nat.not_le.mpr h))⟩

end Sys2Proof.Machine
end

section
/-! Proofs. Reception and the rings of the fabric ports (R289, R294, R295, R300 to R308, R341). -/

namespace Sys2Proof.Machine

/-! ### RX_FRAME -/

/-- The port takes frames: its link is up, its domain ON, and no throttle step stops it. -/
def rxOpen (s : State) (p : Nat) : Prop := (prtGet s p).up = true ∧ domOn s 2 = true ∧ lb s 0x40000118 6 = false

theorem rxFrameFx_closed {p : Nat} {s : State}
    (h : (prtGet s p).up = false ∨ domOn s 2 = false ∨ lb s 0x40000118 6 = true) (l : List Byte) (ok : Bool) :
    rxFrameFx p l ok s = s := by
  refine if_pos ?_
  rcases h with h | h | h <;> simp [h]

/-- The counts of a frame that the port takes. -/
def rxCounted (p : Nat) (l : List Byte) (s : State) : State :=
  srvUp (8 + p) 0 1 (srvUp (8 + p) 1 (l.length + 4) (prtCnt p 0 s))

/-- A frame above 2176 bytes is dropped, but for what was forwarded before its length was known. -/
theorem rxFrameFx_long {p : Nat} {s v : State} {l : List Byte} (hv : prtEvent p 4 (prtCnt p 3 (rxCounted p l s)) = v)
    (hopen : rxOpen s p) (hlen : 2172 < l.length) (ok : Bool) :
    rxFrameFx p l ok s =
      if fType l = swxType v then
        (if !eorelOk l (fOff l) then hdrError p (fOff l) l v
         else if eKind l (fOff l) = 0 then rxAudioFrame p (fOff l) l false v
         else v)
      else if (ptpOff l).isNone && isUdp4 l then
        (match flowMatch67 v (ipDst l) (udpDport l) p with
         | some x => rxRtp p x l false v
         | none => v)
      else v := by
  obtain ⟨hup, hdom, hfree⟩ := hopen
  subst hv
  have hlong : 2176 < l.length + 4 := by omega
  exact (if_neg (by rw [hup, hdom, hfree]; decide)).trans (if_pos hlong)

/-- A frame of at most 2176 bytes is classified by its EtherType. -/
theorem rxFrameFx_short {p : Nat} {s s1 : State} {l : List Byte} {ok : Bool}
    (hs1 : (if ok then rxCounted p l s else prtCnt p 1 (rxCounted p l s)) = s1)
    (hopen : rxOpen s p) (hlen : l.length ≤ 2172) :
    rxFrameFx p l ok s =
      if fType l = 0x8808 then (if ok then rxMacCtl p l s1 else s1)
      else if fType l = swxType s1 then
        (if eorelOk l (fOff l) then pairSync (rxEorel p (fOff l) l ok s1) else hdrError p (fOff l) l s1)
      else match ptpOff l with
        | some o => if ok then rxPtp p o l s1 else s1
        | none =>
          match (if isUdp4 l then flowMatch67 s1 (ipDst l) (udpDport l) p else none) with
          | some x => rxRtp p x l ok s1
          | none => if ok then rxBestEffort p l s1 else s1 := by
  obtain ⟨hup, hdom, hfree⟩ := hopen
  subst hs1
  have hshort : ¬ 2176 < l.length + 4 := by omega
  refine (if_neg (by rw [hup, hdom, hfree]; decide)).trans ((if_neg hshort).trans ?_)
  cases ok <;> rfl

/-! ### An Eorel frame by its kind -/

theorem rxEorel_noFlow {p o : Nat} {l : List Byte} {s : State} (hk : eKind l o = 0)
    (hflow : flowMatch s (eFlow l o) p = none) (ok : Bool) :
    rxEorel p o l ok s = srvUp 12 3 1 (evOr 0x400C0018 1 (swxCnt 0 s)) := by
  refine (if_pos hk).trans ?_
  rw [rxAudioFrame, hflow]

theorem rxEorel_flow {p o x : Nat} {l : List Byte} {s : State} (hk : eKind l o = 0)
    (hflow : flowMatch s (eFlow l o) p = some x) (ok : Bool) :
    let u := fwdAudio p x o l (!ok || !eorelLenOk l o) (flowPut x { flowGet s x with last := some s.grat.cycle } s)
    rxEorel p o l ok s = if ok = true ∧ flowSink s x = true then sinkAudio x o l u else u := by
  refine (if_pos hk).trans ?_
  rw [rxAudioFrame, hflow]
  dsimp only
  simp only [Bool.and_eq_true]
  rfl

theorem rxEorel_other {p o : Nat} {l : List Byte} {s : State} (hk : eKind l o ≠ 0) (ok : Bool) :
    rxEorel p o l ok s = if ok then rxEorel p o l true s else s := by
  cases ok with
  | true => rfl
  | false => exact (if_neg hk).trans (if_pos rfl)

/-! ### The transmit rings -/

theorem txRingFx_port (p : Fin 4) (s : State) : txRingFx (p.castLE (by decide) : Fin 5) s = txDescFx p s :=
  if_neg (Nat.ne_of_lt p.isLt)

theorem txRingDoneFx_port (p : Fin 4) (s : State) : txRingDoneFx (p.castLE (by decide) : Fin 5) s = txDoneFx p s :=
  if_neg (Nat.ne_of_lt p.isLt)

theorem txDescFx_owned {p : Nat} {s : State} :
    let x := prtGet s p
    let r := ringRegs p
    let a := ringAddr s r x.txHead
    ringSize s r ≠ 0 → x.txHead ≠ lf s (r + 8) 0 10 → x.txDesc = none → dmaOk s a 32 true = true →
    bit (wd (mWord s (a + 4))) 31 = true →
    txDescFx p s = match descFrames s a (lb s (prtBase p + 0x400) 0) with
      | .error (e, bad) =>
        let s1 := prtPut p { x with txDesc := some (e, 0) } s
        if e = 4 then dmaErr bad false s1 else s1
      | .ok (cls, l) =>
        let c := if cls = 1 then 1 else 2
        if x.up then foldS l (fun f t => txOwn p c f t) (prtPut p { x with txDesc := some (0, l.length) } s)
        else prtPut p { x with txDesc := some (0, 0) } s := by
  intro x r a hsize hhead hdesc hdma hown
  refine (if_neg ?_).trans ((if_neg ?_).trans (if_neg ?_))
  · rw [show (prtGet s p).txDesc = none from hdesc]
    simp only [Bool.or_eq_true, decide_eq_true_eq, Option.isSome_none, Bool.false_eq_true, or_false]
    exact not_or.mpr ⟨hsize, hhead⟩
  · rw [hdma]
    decide
  · rw [hown]
    decide

/-! ### FLOOD_LEN (R341) -/

/-- FLOOD_LEN is an RI word of one word, of no ring. -/
theorem flood_word : ∀ p : Fin 4, plainReg (adjBase p + 0x14) = true ∧
    (rowOf (adjBase p + 0x14)).map (·.acc) = some .ri ∧ riMulti (adjBase p + 0x14) = none ∧
    ringWord (adjBase p + 0x14) = none ∧ adjBase p + 0x14 ≠ 0x40010030 ∧ winOf (adjBase p + 0x14) = 13 ∧
    offOf (adjBase p + 0x14) = 0x114 + p * 0x20 := by
  decide +kernel

theorem riWrite_flood (m : Master) (p : Fin 4) (v : Word) (wmask : Nat) (s : State) :
    riWrite m (adjBase p + 0x14) v wmask s = floodArmWr p v s := by
  obtain ⟨_, _, hmulti, hring, hne, hwin, hoff⟩ := flood_word p
  have hat : (0x114 + p.val * 0x20 - 0x100) / 0x20 = p.val := by omega
  unfold riWrite
  dsimp only
  rw [hmulti]
  dsimp only
  rw [hring]
  dsimp only
  rw [if_neg hne, hwin, hoff, if_pos (by simp only [Bool.and_eq_true, decide_eq_true_eq, true_and]; omega), hat]

theorem writeCmd_flood {m : Master} {p : Fin 4} {v : Word} {s : State} (h : writes s m (adjBase p + 0x14) = true) :
    writeCmd m (adjBase p + 0x14) v.toNat s = floodArmWr p v (counted s) := by
  obtain ⟨hplain, hacc, _⟩ := flood_word p
  obtain ⟨r, hrow, hri⟩ := Option.map_eq_some_iff.mp hacc
  refine (busWrite_goes v.toNat h).trans ?_
  rw [wd_toNat, regWrite_row m _ v (counted s) r hplain hrow, hri]
  exact riWrite_flood m p v r.wmask (counted s)

/-- Settles O42: the frame's case decides its branch, the descriptor's result that of a ring. -/
theorem receiveAndRingCommands : Obligations.ReceiveAndRingCommands := by
  unfold Obligations.ReceiveAndRingCommands
  refine ⟨?_, ?_, ?_, ?_⟩
  · intro p l ok s
    refine ⟨fun h => congrArg (finish s) (rxFrameFx_closed h l ok), fun hup hdom hfree => ?_⟩
    intro s0 s1
    have hopen : rxOpen s p := ⟨hup, hdom, hfree⟩
    have hexec : exec (.rxFrame p l ok) s = finish s (rxFrameFx p l ok s) := rfl
    refine ⟨fun hlen => ?_, fun hlen => ?_⟩
    · intro v
      rw [hexec, rxFrameFx_long (v := v) rfl hopen hlen]
      refine ⟨fun hty hbad => ?_, fun hty hgood => ?_, fun x hty hptp hudp hflow => ?_, fun hty hnone => ?_⟩
      · exact congrArg (finish s) ((if_pos hty).trans (if_pos (by rw [hbad]; rfl)))
      · exact congrArg (finish s) ((if_pos hty).trans (if_neg (by rw [hgood]; decide)))
      · refine congrArg (finish s) ((if_neg hty).trans ((if_pos (by rw [hptp, hudp]; rfl)).trans ?_))
        rw [hflow]
      · refine congrArg (finish s) ((if_neg hty).trans ?_)
        by_cases hudp : ((ptpOff l).isNone && isUdp4 l) = true
        · have hflow : flowMatch67 v (ipDst l) (udpDport l) p = none := by
            rw [Bool.and_eq_true, Option.isNone_iff_eq_none] at hudp
            rcases hnone with h | h | h
            · rw [hudp.1] at h
              exact absurd h (by decide)
            · exact absurd (hudp.2.symm.trans h) (by decide)
            · exact h
          refine (if_pos hudp).trans ?_
          rw [hflow]
        · exact if_neg hudp
    · rw [hexec, rxFrameFx_short (s1 := s1) rfl hopen hlen]
      refine ⟨fun hmac => congrArg (finish s) (if_pos hmac), fun hmac hty hbad => ?_, fun hmac hty hgood hk hflow => ?_,
        fun x hmac hty hgood hk hflow => ?_, fun hmac hty hgood hk => ?_, fun o hmac hty hptp => ?_,
        fun x hmac hty hptp hudp hflow => ?_, fun hmac hty hptp hnone => ?_⟩
      · exact congrArg (finish s) ((if_neg hmac).trans ((if_pos hty).trans (if_neg (by rw [hbad]; decide))))
      · refine congrArg (finish s) ((if_neg hmac).trans ((if_pos hty).trans ((if_pos hgood).trans ?_)))
        exact congrArg pairSync (rxEorel_noFlow hk hflow ok)
      · refine congrArg (finish s) ((if_neg hmac).trans ((if_pos hty).trans ((if_pos hgood).trans ?_)))
        exact congrArg pairSync (rxEorel_flow hk hflow ok)
      · refine congrArg (finish s) ((if_neg hmac).trans ((if_pos hty).trans ((if_pos hgood).trans ?_)))
        exact congrArg pairSync (rxEorel_other hk ok)
      · refine congrArg (finish s) ((if_neg hmac).trans ((if_neg hty).trans ?_))
        rw [hptp]
      · refine congrArg (finish s) ((if_neg hmac).trans ((if_neg hty).trans ?_))
        rw [hptp]
        dsimp only
        rw [if_pos hudp, hflow]
      · refine congrArg (finish s) ((if_neg hmac).trans ((if_neg hty).trans ?_))
        have hflow : (if isUdp4 l then flowMatch67 s1 (ipDst l) (udpDport l) p else none) = none := by
          rcases hnone with h | h
          · rw [h]
            rfl
          · rw [h, ite_self]
        rw [hptp]
        dsimp only
        rw [hflow]
  · intro p s x r a
    have hexec : exec (.txDescriptor (p.castLE (by decide))) s = finish s (txDescFx p s) :=
      congrArg (finish s) (txRingFx_port p s)
    rw [hexec]
    refine ⟨fun h => congrArg (finish s) (if_pos ?_), fun hsize hhead hdesc hdma hown => ?_⟩
    · simpa only [Bool.or_eq_true, decide_eq_true_eq, or_assoc] using h
    · rw [txDescFx_owned hsize hhead hdesc hdma hown]
      refine ⟨fun c frames hok => ?_, fun e bad herr => ?_⟩
      · rw [hok]
        rfl
      · rw [herr]
        rfl
  · intro p res s hdesc hcur r h a s2
    have hexec : exec (.txDescriptorComplete (p.castLE (by decide))) s = finish s (txDoneFx p s) :=
      congrArg (finish s) (txRingDoneFx_port p s)
    rw [hexec, txDoneFx]
    dsimp only
    rw [hdesc, hcur]
    rfl
  · intro m p v s h
    exact congrArg (finish s) (writeCmd_flood h)

end Sys2Proof.Machine
end

section
/-! Proofs. Hellos, adjacencies and the records of the topology database (R317, R320, R323, R326). -/

namespace Sys2Proof.Machine

/-- What a received hello says of its sender, whose adjacency stands at `st`. -/
def helloSays (s : State) (o : Nat) (l : List Byte) (st : Nat) : AdjSt :=
  { st := st, nuid := fN l (o + 8) 8, nport := fB l (o + 17) % 4, npair := nbit (fB l (o + 17)) 5,
    naddr := fN l (o + 18) 2 % 16384, navalid := nbit (fN l (o + 18) 2) 15, nkey := fN l (o + 20) 4, heard := s.grat.cycle }

/-- The family of the sender is not this node's. -/
theorem adjHello_conflict {p o : Nat} {l : List Byte} {s : State} (hfam : nbit (fB l (o + 17)) 7 ≠ lb s 0x40070000 0) :
    adjHello p o l s =
      raise 0x0D12 1 p 0 (evOr 0x400D001C 2 (adjPut p { adjGet s p with st := 3, heard := s.grat.cycle } s)) :=
  if_pos (bne_iff_ne.mpr hfam)

/-- With the family of this node the branch is chosen by the adjacency's state, the sender and its view. -/
theorem adjHello_same {p o : Nat} {l : List Byte} {s : State} (hfam : nbit (fB l (o + 17)) 7 = lb s 0x40070000 0) :
    adjHello p o l s =
      if (adjGet s p).st = 0 || (adjGet s p).st = 3 then adjPut p (helloSays s o l 1) s
      else if fN l (o + 8) 8 != (adjGet s p).nuid then
        whenS ((adjGet s p).st == 2) (raise 0x0D11 1 p 0) (adjChg (adjPut p (helloSays s o l 1) s))
      else if (adjGet s p).st = 1 && nbit (fB l (o + 17)) 6 then
        adjBecameUp p (raise 0x0D10 0 p 0 (adjChg (adjPut p (helloSays s o l 2) s)))
      else if (adjGet s p).st = 2 && !nbit (fB l (o + 17)) 6 then
        raise 0x0D11 1 p 0 (adjChg (adjPut p (helloSays s o l 1) s))
      else adjPut p (helloSays s o l (adjGet s p).st) s :=
  if_neg (by rw [hfam, bne_self_eq_false]; decide)

theorem adjHello_cases (p o : Nat) (l : List Byte) (s : State) :
    let a := adjGet s p
    let n := helloSays s o l 1
    let same := nbit (fB l (o + 17)) 7 = lb s 0x40070000 0
    let seen := nbit (fB l (o + 17)) 6
    let chg := evOr 0x400D001C 1
    (same → a.st = 0 ∨ a.st = 3 → adjHello p o l s = adjPut p n s) ∧
    (same → a.st = 1 → n.nuid = a.nuid → seen = false → adjHello p o l s = adjPut p n s) ∧
    (same → a.st = 1 → n.nuid = a.nuid → seen = true →
      adjHello p o l s = adjBecameUp p (raise 0x0D10 0 p 0 (chg (adjPut p { n with st := 2 } s)))) ∧
    (same → a.st = 1 → n.nuid ≠ a.nuid → adjHello p o l s = chg (adjPut p n s)) ∧
    (same → a.st = 2 → n.nuid = a.nuid → seen = true → adjHello p o l s = adjPut p { n with st := 2 } s) ∧
    (same → a.st = 2 → n.nuid ≠ a.nuid ∨ seen = false → adjHello p o l s = raise 0x0D11 1 p 0 (chg (adjPut p n s))) := by
  intro a n same seen chg
  refine ⟨fun h hst => ?_, fun h hst hid hseen => ?_, fun h hst hid hseen => ?_, fun h hst hid => ?_,
    fun h hst hid hseen => ?_, fun h hst hor => ?_⟩
  · rw [adjHello_same h, if_pos (by simpa only [Bool.or_eq_true, decide_eq_true_eq] using hst)]
  · have hid' : fN l (o + 8) 8 = (adjGet s p).nuid := hid
    rw [adjHello_same h, show (adjGet s p).st = 1 from hst, show nbit (fB l (o + 17)) 6 = false from hseen, hid',
      bne_self_eq_false]
    rfl
  · have hid' : fN l (o + 8) 8 = (adjGet s p).nuid := hid
    rw [adjHello_same h, show (adjGet s p).st = 1 from hst, show nbit (fB l (o + 17)) 6 = true from hseen, hid',
      bne_self_eq_false]
    rfl
  · have hid' : (fN l (o + 8) 8 != (adjGet s p).nuid) = true := bne_iff_ne.mpr hid
    rw [adjHello_same h, show (adjGet s p).st = 1 from hst, hid']
    rfl
  · have hid' : fN l (o + 8) 8 = (adjGet s p).nuid := hid
    rw [adjHello_same h, show (adjGet s p).st = 2 from hst, show nbit (fB l (o + 17)) 6 = true from hseen, hid',
      bne_self_eq_false]
    rfl
  · rw [adjHello_same h, show (adjGet s p).st = 2 from hst]
    cases hid : fN l (o + 8) 8 != (adjGet s p).nuid with
    | true => rfl
    | false =>
      have hseen : nbit (fB l (o + 17)) 6 = false := hor.resolve_left (fun hne => hne (bne_eq_false_iff_eq.mp hid))
      rw [hseen]
      rfl

/-! ### HELLO_RECEIVED and ADJACENCY_DEAD -/

theorem helloReceivedFx_hello {p : Nat} {l : List Byte} {s : State} (hup : (prtGet s p).up = true)
    (hen : lb s 0x400D0000 0 = true) (hok : eorelOk l (fOff l) = true) (hkind : eKind l (fOff l) = 1)
    (hty : fType l = swxType s) :
    let o := fOff l
    let s0 := srvUp 13 1 1 (evOr 0x400D001C 8 (ctrUp (adjBase p + 0x18) 16 16 s))
    let s1 := if blockSafe s 13 then s0 else adjHello p o l s0
    let s2 := rxDeliver p 1 none l s1
    helloReceivedFx p l s =
      if policyOn s2 ∧ dbSize s2 ≠ 0 then policyUpdate (foldS (helloRecs s2 o l) (fun r t => dbAccept p r t) s2) else s2 := by
  intro o s0 s1 s2
  refine (if_pos ?_).trans ?_
  · rw [hup, hen, hok, hkind, hty, beq_self_eq_true, beq_self_eq_true]
    rfl
  · simp only [Bool.and_eq_true, bne_iff_ne]
    rfl

/-- What leaving UP brings, with the condition as a proposition. -/
theorem whenS_left (p a b : Nat) (t : State) :
    whenS (a == 2 && b != 2) (adjLeft p) t = if a = 2 ∧ b ≠ 2 then adjLeft p t else t := by
  unfold whenS
  simp only [Bool.and_eq_true, beq_iff_eq, bne_iff_ne]

theorem adjDeadFx_due {p : Nat} {s : State} (hst : (adjGet s p).st ≠ 0) (hsafe : blockSafe s 13 = false)
    (hold : (adjGet s p).heard + lf s 0x400D0000 16 8 * helloCy s ≤ s.grat.cycle) :
    let a := adjGet s p
    let s1 := adjPut p { a with st := 0 } s
    let t := ctrUp (adjBase p + 0x1C) 0 16 (whenS (a.st == 2) (raise 0x0D11 1 p 0) (evOr 0x400D001C 1 s1))
    let u := { t with gaz.flood := tset [] t.gaz.flood p [] }
    adjDeadFx p s = if a.st = 2 then adjLeft p u else u := by
  intro a s1 t u
  have hdrop : adjDrop p s = u := if_neg hst
  have hdue : adjDue s p = true := by
    unfold adjDue
    dsimp only
    rw [bne_iff_ne.mpr hst, hsafe, decide_eq_true hold]
    rfl
  refine (if_pos hdue).trans ?_
  rw [adjDown, hdrop, whenS]
  simp only [beq_iff_eq]
  rfl

/-! ### Records -/

theorem dbUnmap_eq (r : DbRec) (u : State) :
    dbUnmap r u = if r.typ = 0 ∧ r.valid = true then mStores (dbBase u + 2 * r.addr) [0xFF, 0xFF] u else u := by
  unfold dbUnmap whenS
  simp only [Bool.and_eq_true, beq_iff_eq]

/-- A node's binding starts its hold when the node's record is dropped. -/
theorem binding_gone (typ : Fin 3) (key c : Nat) (db : List DbRec) :
    (if typ.val = 0 then db.map (fun x => if recIs 2 key x then { x with gone := some c } else x) else db) =
      if typ = 0 then db.map (fun x => if x.typ = 2 ∧ x.key = key then { x with gone := some c } else x) else db := by
  simp only [recIs, Bool.and_eq_true, beq_iff_eq, Fin.ext_iff]
  rfl

/-- Settles O43: a hello's case by the adjacency's state; records by their age. -/
theorem topologyCommands : Obligations.TopologyCommands := by
  unfold Obligations.TopologyCommands
  refine ⟨?_, ?_, ?_, ?_, ?_, ?_⟩
  · intro p l s hup hen hok hkind hty o s0 s1 s2 t
    refine congrArg (fun u => finish s (pairSync u)) ?_
    have ht : helloReceivedFx p l s = t := helloReceivedFx_hello hup hen hok hkind hty
    rw [helloFx, ht, whenS_left]
  · intro p o l s a w n same seen chg
    exact ⟨fun hne => adjHello_conflict hne, adjHello_cases p o l s⟩
  · intro p s hst hsafe hold a s1 t u
    exact congrArg (fun v => finish s (pairSync v)) (adjDeadFx_due hst hsafe hold)
  · intro s hpol hsize
    exact congrArg (finish s) (if_pos (by rw [hpol, bne_iff_ne.mpr hsize]; rfl))
  · intro typ key r s hfind hpol
    have hexec : exec (.recordMaxage typ key) s = finish s (recordMaxageFx typ key.toNat s) := rfl
    rw [hexec, recordMaxageFx, hfind]
    dsimp only
    refine ⟨fun hyoung => ?_, fun hold => ?_⟩
    · have hnot : ¬ polPar s 2 ≤ recAge s r := Nat.not_le.mpr hyoung
      rw [hpol, decide_eq_false hnot]
      rfl
    · rw [hpol, decide_eq_true hold, Bool.and_true, if_pos rfl, binding_gone, dbUnmap_eq]
      rfl
  · intro key r c s hfind hgone hpol hold
    have hexec : exec (.bindHoldExpiry key) s = finish s (bindHoldFx key.toNat s) := rfl
    rw [hexec, bindHoldFx, hfind]
    dsimp only
    rw [hgone]
    dsimp only
    rw [if_pos (by rw [hpol, decide_eq_true hold]; rfl)]
    rfl

end Sys2Proof.Machine
end

section
/-! Proofs. Reservations: messages of a hop, of the sink and of the source, and their timed commands (R331 to R338). -/

namespace Sys2Proof.Machine

/-- A message is acted on when policy firmware runs and the port is up. -/
theorem rsv_open {s : State} {p : Nat} (hpol : policyOn s = true) (hup : (prtGet s p).up = true) :
    ¬ (!policyOn s || !(prtGet s p).up) = true := by
  rw [hpol, hup]
  decide

/-! ### RESERVE -/

theorem reserveFx_hop {p : Nat} {m : RsvMsg} {s : State} (hpol : policyOn s = true) (hup : (prtGet s p).up = true)
    (hidx : m.idx < m.route.length) :
    reserveFx p m s = match admitHop s (some p) (routeAt m m.idx) m with
      | .error e => refuseOut p e { m with route := m.route.take (m.idx + 1) } s
      | .ok h => rsvSend (routeAt m m.idx) opReserve
          { m with idx := m.idx + 1, lat := h.d + 2 + cableWin s (routeAt m m.idx) } (rsvPut h s) := by
  have hlater : ¬ m.idx = m.route.length := by omega
  have hin : ¬ m.route.length < m.idx := by omega
  exact (if_neg (rsv_open hpol hup)).trans ((if_neg hlater).trans (if_neg hin))

theorem reserveFx_sink {p : Nat} {m : RsvMsg} {s : State} (hpol : policyOn s = true) (hup : (prtGet s p).up = true)
    (hidx : m.idx = m.route.length) : reserveFx p m s = reserveSink p m s :=
  (if_neg (rsv_open hpol hup)).trans (if_pos hidx)

/-- The sink refuses a reservation of another address. -/
theorem reserveSink_other {p : Nat} {m : RsvMsg} {s : State}
    (h : ¬ (lb s 0x400D0014 31 = true ∧ lf s 0x400D0014 0 14 = m.dstA)) : reserveSink p m s = refuseOut p 4 m s := by
  refine if_pos ?_
  rw [Bool.not_eq_true', ← Bool.not_eq_true, Bool.and_eq_true, beq_iff_eq]
  exact h

/-- A reservation of this node's address is late, has no entry, or is written and committed. -/
theorem reserveSink_own {p : Nat} {m : RsvMsg} {s : State} (hown : lb s 0x400D0014 31 = true)
    (haddr : lf s 0x400D0014 0 14 = m.dstA) :
    let h : RsvHop := {
      tag := m.tag, flow := m.flow, arr := some p, lat := m.lat, bytes := m.bytes, per := max 1 m.per, phase := m.phase,
      path := m.path, move := m.move, l := m.l, srcA := m.srcA, dstA := m.dstA, held := false, sink := true,
      fwdC := some s.grat.nextCycle, since := s.grat.cycle, idx := m.idx, route := m.route.map (fun r => r.val) }
    reserveSink p m s =
      if (m.l - 1) * 64 < m.lat + windowsFor s (prtMode s p) m.bytes then raise 0x0D24 1 255 0 (refuseOut p 2 m s)
      else if entryFor s m.flow p = none ∧ freeEntry s = none then refuseOut p 3 m s
      else polCommit (entryWrite h (rsvPut h s)) := by
  refine (if_neg (by rw [hown, haddr, beq_self_eq_true]; decide)).trans ?_
  simp only [Bool.not_eq_true', decide_eq_false_iff_not, Nat.not_le, Bool.and_eq_true, Option.isNone_iff_eq_none]

/-! ### The other messages -/

theorem confirmFx_found {p : Nat} {m : RsvMsg} {h : RsvHop} {s : State} (hpol : policyOn s = true)
    (hup : (prtGet s p).up = true) (hfind : rsvFind s m.tag = some h) (hheld : h.held = true) :
    confirmFx p m s = if h.arr.isNone then srcConfirm h s
      else polCommit (entryWrite h (rsvPut { h with held := false, fwdC := some s.grat.nextCycle } s)) := by
  refine (if_neg (rsv_open hpol hup)).trans ?_
  rw [hfind]
  exact if_neg (by rw [hheld]; decide)

theorem refuseFx_found {p : Nat} {m : RsvMsg} {h : RsvHop} {s : State} (hpol : policyOn s = true)
    (hup : (prtGet s p).up = true) (hfind : rsvFind s m.tag = some h) :
    refuseFx p m s = match h.arr with
      | none => srcRefused h m.reason (failedLink s m) s
      | some a => rsvSend a opRefuse { m with idx := h.idx - 1 } (hopRemove h s) := by
  refine (if_neg (rsv_open hpol hup)).trans ?_
  rw [hfind] <;> rfl

theorem releaseFx_found {p : Nat} {m : RsvMsg} {h : RsvHop} {s : State} (hpol : policyOn s = true)
    (hup : (prtGet s p).up = true) (hfind : rsvFind s m.tag = some h) :
    releaseFx p m s = if m.idx < m.route.length then
        rsvSend (routeAt m m.idx) opRelease { m with idx := m.idx + 1 } (hopRemove h s)
      else hopRemove h s := by
  refine (if_neg (rsv_open hpol hup)).trans ?_
  rw [hfind]

theorem brokenFx_found {p : Nat} {m : RsvMsg} {h : RsvHop} {s : State} (hpol : policyOn s = true)
    (hup : (prtGet s p).up = true) (hfind : rsvFind s m.tag = some h) :
    brokenFx p m s = match h.arr with
      | none => srcBroken h (failedLink s m) s
      | some a => rsvSend a opBroken { m with idx := h.idx - 1 } s := by
  refine (if_neg (rsv_open hpol hup)).trans ?_
  rw [hfind] <;> rfl

/-! ### Timed commands -/

theorem flowIdleFx_idle {x c : Nat} {s : State} (hpol : policyOn s = true) (hen : nbit (flowW s x 0) 31 = true)
    (hsrc : flowSrc s x = false) (hlast : (flowGet s x).last = some c) (hidle : msCy s (polPar s 5) < s.grat.cycle - c) :
    flowIdleFx x s = polCommit (setShF x 0 (shF s x 0 % 2 ^ 31)
      { s with
        gaz.rsv := s.gaz.rsv.filter (fun h =>
          !(h.flow == flowId s x && !h.held && h.arr.elim false (fun p => nbit (flowIn s x) p))) }) := by
  unfold flowIdleFx
  rw [hlast]
  dsimp only
  rw [if_pos (by rw [hpol, hen, hsrc, decide_eq_true hidle]; rfl)]
  refine congrArg (fun l => polCommit (setShF x 0 (shF s x 0 % 2 ^ 31) { s with gaz.rsv := l }))
    (List.filter_congr fun h _ => ?_)
  cases h.arr <;> rfl

/-- Settles O44: each message's branch by the hop's record, the sink's by the address, the latency and the entries. -/
theorem reservationCommands : Obligations.ReservationCommands := by
  unfold Obligations.ReservationCommands
  refine ⟨?_, ?_, ?_, ?_, ?_, ?_⟩
  · intro p m s hpol hup
    have hexec : exec (.reserve p m) s = finish s (reserveFx p m s) := rfl
    refine ⟨fun hidx => ?_, fun hidx => ?_⟩
    · intro q
      rw [hexec, reserveFx_hop hpol hup hidx]
      refine ⟨fun e hadmit => ?_, fun h hadmit => ?_⟩
      · rw [show admitHop s (some p.val) (routeAt m m.idx) m = .error e from hadmit]
        rfl
      · rw [show admitHop s (some p.val) (routeAt m m.idx) m = .ok h from hadmit]
        rfl
    · intro own back late
      rw [hexec, reserveFx_sink hpol hup hidx]
      refine ⟨fun hnot => congrArg (finish s) (reserveSink_other hnot), fun ⟨hown, haddr⟩ hlate => ?_,
        fun ⟨hown, haddr⟩ hintime hentry hfree => ?_, fun ⟨hown, haddr⟩ hintime hroom => ?_⟩
      · exact congrArg (finish s) ((reserveSink_own hown haddr).trans (if_pos hlate))
      · exact congrArg (finish s) ((reserveSink_own hown haddr).trans ((if_neg hintime).trans (if_pos ⟨hentry, hfree⟩)))
      · have hnot : ¬ (entryFor s m.flow p = none ∧ freeEntry s = none) := fun ⟨he, hf⟩ =>
          hroom.elim (fun h => h he) (fun h => h hf)
        exact congrArg (finish s) ((reserveSink_own hown haddr).trans ((if_neg hintime).trans (if_neg hnot)))
  · intro p m h s hpol hup hfind
    have hconf : exec (.confirm p m) s = finish s (confirmFx p m s) := rfl
    have href : exec (.refuse p m) s = finish s (refuseFx p m s) := rfl
    have hrel : exec (.release p m) s = finish s (releaseFx p m s) := rfl
    have hbrk : exec (.broken p m) s = finish s (brokenFx p m s) := rfl
    rw [hconf, href, hrel, hbrk, refuseFx_found hpol hup hfind, releaseFx_found hpol hup hfind,
      brokenFx_found hpol hup hfind]
    refine ⟨fun hheld harr => ?_, fun hheld harr => ?_, fun harr => ?_, fun a harr => ?_, rfl, fun harr => ?_,
      fun a harr => ?_⟩
    · rw [confirmFx_found hpol hup hfind hheld, harr]
      rfl
    · rw [confirmFx_found hpol hup hfind hheld, if_neg (by rw [Option.isNone_iff_eq_none]; exact harr)]
      rfl
    · rw [harr]
      rfl
    · rw [harr]
      rfl
    · rw [harr]
      rfl
    · rw [harr]
      rfl
  · intro tag h s hfind hpol hheld hold
    have hexec : exec (.rsvHoldExpiry tag) s = finish s (rsvHoldFx tag.toNat s) := rfl
    rw [hexec, rsvHoldFx, hfind]
    dsimp only
    rw [if_pos (by rw [hpol, hheld, decide_eq_true hold]; rfl)]
    simp only [Option.isNone_iff_eq_none]
    rfl
  · intro x c s hpol hen hsrc hlast hidle
    exact congrArg (finish s) (flowIdleFx_idle hpol hen hsrc hlast hidle)
  · intro flow f o h s hpol hone hold hfind htime
    have hexec : exec (.moveOverlapExpiry flow) s = finish s (moveOverlapFx flow.toNat s) := rfl
    rw [hexec, moveOverlapFx, hone, foldS, List.foldl_cons, List.foldl_nil, hold]
    dsimp only
    rw [if_pos (by rw [hpol, decide_eq_true htime]; rfl), hfind]
    rfl
  · intro flow f m s hpol hone hmsg hdeg hpend htime
    have hexec : exec (.retryExpiry flow) s = finish s (retryFlowFx flow.toNat s) := rfl
    rw [hexec, retryFlowFx, hone, foldS, List.foldl_cons, List.foldl_nil, hmsg]
    dsimp only
    rw [if_pos (by rw [hpol, hdeg, hpend, decide_eq_true htime]; rfl)]
    rfl

end Sys2Proof.Machine
end

section
/-! Proofs. The lease of a redundant pair (R345, R353 to R359, R364). -/

namespace Sys2Proof.Machine

/-! ### Who sent a lease message -/

theorem leaseFrom_foreign {m : LeaseMsg} {s : State} (hen : pairEn s = true) (h : m.uid.toNat ≠ peerUid s)
    (f : State → State) : leaseFrom m f s = ctrUp (pairB + 0x50) 0 8 s :=
  (if_neg (by rw [hen]; decide)).trans (if_pos (bne_iff_ne.mpr h))

theorem leaseFrom_peer {m : LeaseMsg} {s : State} (hen : pairEn s = true) (h : m.uid.toNat = peerUid s)
    (f : State → State) : leaseFrom m f s = f { s with pair.svbPath := m.svb } :=
  (if_neg (by rw [hen]; decide)).trans (if_neg (by rw [h, bne_self_eq_false]; decide))

/-- The state after a message of the partner that says its role. -/
def leaseTold (m : LeaseMsg) (r : Nat) (u s : State) : State :=
  let bad := s.pair.peer && r == 2
  { u with
    pair.svbPath := m.svb, pair.peerRole := r,
    pair.stuckAt := if bad then (if s.pair.stuckAt.isSome then s.pair.stuckAt else some s.grat.cycle) else none,
    pair.stuckErr := bad && s.pair.stuckErr }

/-! ### The messages of the partner -/

theorem leaseRenewFx_peer {m : LeaseMsg} {s : State} (hen : pairEn s = true) (h : m.uid.toNat = peerUid s) :
    let t := { leaseTold m 1 s s with pair.bar := false }
    let k := m.cyc.toNat
    leaseRenewFx m s = if s.pair.role != 2 then formResolve t
      else if m.svb then { t with svb.ackCyc := some k }
      else srvUp 15 3 1 (leaseSend 2 k { t with pair.dl := some (lcOfCycle s (k + leaseCy s)), pair.relinq := false }) :=
  leaseFrom_peer hen h _

theorem leaseAckFx_peer {m : LeaseMsg} {s : State} (hen : pairEn s = true) (h : m.uid.toNat = peerUid s) :
    let t := leaseTold m 2 s s
    let k := m.cyc.toNat
    leaseAckFx m s = if s.pair.role != 1 then t
      else if m.svb then { t with pair.acked := true, pair.dwSvb := some (lcOfCycle s (k + svbLeaseCy s)) }
      else { t with pair.acked := true, pair.dw := some (lcOfCycle s (k + leaseCy s)) } :=
  leaseFrom_peer hen h _

/-! ### The windward's expiry and the claim -/

theorem leaseExpiryFx_end {e : Nat} {s : State} (hend : leaseEnd s = some e) (hrole : s.pair.role = 1)
    (hack : s.pair.acked = true) :
    let t := dropOwn (atLc e s)
    let ft := ftOf t.time.offset t.time.rate e 0 + ceilDiv ((leaseCy t + 2 * guardCy t) * secU) (famF t)
    leaseExpiryFx s = raise 0x0F23 1 255 0 (toRole 2 { t with pair.bar := true, pair.barAt := lcForFt t ft }) := by
  unfold leaseExpiryFx
  rw [hend]
  exact if_pos (by rw [hrole, hack]; rfl)

theorem claimFx_from {lc : Nat} {s : State} (hen : pairEn s = true) (hrole : s.pair.role = 2)
    (hsafe : s.flt.safe = false) (hpeer : s.pair.peer = false) (hfrom : claimFrom s = some lc) :
    let t := max s.time.lc (max lc (s.pair.peerAt + selGap s))
    claimFx s = claimNow (atFt (windowAfter s (ftOf s.time.offset s.time.rate t 0)) s) := by
  refine (if_pos (by rw [hen, hrole, hsafe, hpeer]; rfl)).trans ?_
  rw [hfrom]

/-- The claim: the role, the level, the messages, and the fault that says why. -/
theorem claimNow_eq (s : State) :
    let hand := s.pair.handW.elim false (fun w => decide (w ≤ s.grat.cycle))
    let s1 := toRole 1 s
    let s2 := evOr (pairB + 0x44) 0x20 { s1 with
      pair.own := true, pair.bar := false, pair.relinq := false, pair.handW := none, pair.acked := false, pair.dl := none,
      pair.claimDue := false, pair.bothAt := if s1.pair.peer then some s1.time.lc else none }
    let s3 := leaseSend 1 s2.grat.cycle (leaseSend 6 s2.grat.cycle s2)
    let s4 := if s.pair.bar then raise 0x0F31 2 255 0 s3 else if hand then raise 0x0F13 0 255 0 s3 else raise 0x0F22 1 255 0 s3
    claimNow s = if s4.pair.step ≠ 2 ∧ hand = false then raise 0x0F27 1 255 0 s4 else s4 := by
  unfold claimNow whenS
  cases s.pair.handW <;>
    simp only [Bool.and_eq_true, bne_iff_ne, Bool.not_eq_true', Option.elim_none, Option.elim_some] <;> rfl

theorem overlapFx_both {t : Nat} {s : State} (hboth : s.pair.bothAt = some t) (hown : s.pair.own = true)
    (hpeer : s.pair.peer = true) (hfirst : s.pair.overlapped = false) (hen : pairEn s = true) :
    let u := evOr (pairB + 0x44) 0x400 { atLc (t + selGap s + 1) s with pair.overlapped := true }
    overlapFx s = if s.pair.acked then raise 0x0F32 2 255 0 u else raise 0x0F40 3 255 0 u := by
  unfold overlapFx
  rw [hboth]
  exact if_pos (by rw [hown, hpeer, hfirst, hen]; rfl)

/-- Settles O45: each message by its sender and the role, each timed step by its guard. -/
theorem leaseCommands : Obligations.LeaseCommands := by
  unfold Obligations.LeaseCommands
  refine ⟨?_, ?_, ?_, ?_, ?_, ?_, ?_, ?_, ?_⟩
  · intro m s hen hforeign u
    exact ⟨congrArg (finish s) (leaseFrom_foreign hen hforeign _), congrArg (finish s) (leaseFrom_foreign hen hforeign _),
      congrArg (finish s) (leaseFrom_foreign hen hforeign _), congrArg (finish s) (leaseFrom_foreign hen hforeign _),
      congrArg (finish s) (leaseFrom_foreign hen hforeign _), congrArg (finish s) (leaseFrom_foreign hen hforeign _)⟩
  · intro m s hen hpeer told k
    have hrenew := leaseRenewFx_peer hen hpeer
    have hack := leaseAckFx_peer hen hpeer
    refine ⟨fun hrole hpath => ?_, fun hrole hpath => ?_, fun hrole => ?_, fun hrole => ?_, fun hrole => ?_, ?_, ?_, ?_, ?_⟩
    · exact congrArg (finish s) (hrenew.trans ((if_neg (by rw [hrole]; decide)).trans (if_neg (by rw [hpath]; decide))))
    · exact congrArg (finish s) (hrenew.trans ((if_neg (by rw [hrole]; decide)).trans (if_pos hpath)))
    · exact congrArg (finish s) (hrenew.trans (if_pos (bne_iff_ne.mpr hrole)))
    · exact congrArg (finish s) (hack.trans (if_neg (by rw [hrole]; decide)))
    · exact congrArg (finish s) (hack.trans (if_pos (bne_iff_ne.mpr hrole)))
    · exact congrArg (finish s) (leaseFrom_peer hen hpeer _)
    · refine congrArg (finish s) ((leaseFrom_peer hen hpeer _).trans ?_)
      simp only [Bool.and_eq_true, decide_eq_true_eq]
      rfl
    · refine congrArg (finish s) ((leaseFrom_peer hen hpeer _).trans ?_)
      simp only [Bool.and_eq_true, decide_eq_true_eq]
      rfl
    · exact congrArg (finish s) (leaseFrom_peer hen hpeer _)
  · intro e s hend hrole hack t ft
    exact congrArg (finish s) (leaseExpiryFx_end hend hrole hack)
  · intro lc s hen hrole hsafe hpeer hfrom t
    exact congrArg (finish s) (claimFx_from hen hrole hsafe hpeer hfrom)
  · exact claimNow_eq
  · intro s hen hrole hlink hrose hpeer hsafe htime
    exact congrArg (finish s) (if_pos (by rw [hen, hrole, hlink, hrose, hpeer, hsafe, decide_eq_true htime]; rfl))
  · intro t s hboth hown hpeer hfirst hen u
    exact congrArg (finish s) (overlapFx_both hboth hown hpeer hfirst hen)
  · intro s
    refine ⟨congrArg (finish s) (if_pos BEq.rfl), fun hpeer => ?_, fun hpeer => ?_⟩
    · exact congrArg (finish s) (if_neg (by rw [hpeer]; decide))
    · exact congrArg (finish s) (if_neg (by rw [hpeer]; decide))
  · intro c s hstuck hen hpeer hfirst htime
    have hexec : exec .peerOwnStuck s = finish s (stuckFx s) := rfl
    rw [hexec, stuckFx, hstuck]
    exact congrArg (finish s) (if_pos (by rw [hen, hpeer, hfirst, decide_eq_true htime]; rfl))

end Sys2Proof.Machine
end

section
/-! Proofs. The stream of a redundant pair and its resync (R344, R348 to R350, R360 to R363). -/

namespace Sys2Proof.Machine

/-! ### The partner's stream -/

/-- A mirror entry without a slip only delivers its samples. -/
theorem mirrorIn_noSlip (c : Nat) (e : MirrorEntry) (s : State) (hslip : e.slip = 0) :
    let slots := (slotsOn s).filter (fun i => slotKind s i == 5 && lf s (slotBase i + 4) 0 12 == e.slot.val && lb s (slotBase i) 31)
    let row := fun j : Nat => (List.range e.nch).map (fun ch => (getAt 0 e.samples (j * e.nch + ch)).toInt)
    mirrorIn c e s = foldS slots (fun i t => if e.conceal then t else
      arriveCycle i (c + slotL t i) (slotS t i) e.nch ((List.range (slotS t i)).map row) 0 0 t) s := by
  unfold mirrorIn
  simp only [hslip, if_true]

/-- A concealed entry has no samples. -/
theorem mirrorIn_concealed {c : Nat} {e : MirrorEntry} {s : State} (hslip : e.slip = 0) (hcon : e.conceal = true) :
    mirrorIn c e s = s := by
  rw [mirrorIn_noSlip c e s hslip, hcon]
  simp only [if_true, foldS]
  exact List.foldl_fixed _

/-- A FORM message of the partner, from an adjacency that is UP. -/
theorem formFx_partner {tag role : Nat} {own side : Bool} {s : State} (hen : pairEn s = true)
    (hup : (adjGet s 3).st = 2) (huid : (adjGet s 3).nuid = peerUid s) :
    formFx tag role own side s = if tag = lf s pairB 8 16 ∧ side ≠ pairSide s then
        pairSync (peerSays (if own then 1 else role) { s with pair.formOk := true })
      else pairSync { (if s.pair.mism then s else raise 0x0F33 2 255 0 s) with pair.mism := true, pair.formOk := false } := by
  have hguard : (pairEn s && decide ((adjGet s 3).st = 2) && decide ((adjGet s 3).nuid = peerUid s)) = true := by
    rw [hen, Bool.true_and]
    exact both_decide hup huid
  refine (if_pos hguard).trans ?_
  simp only [Bool.and_eq_true, decide_eq_true_eq, bne_iff_ne]
  cases s.pair.mism <;> rfl

/-! ### The commands of a resync -/

theorem resyncDoneFx_leeward {n crc : Nat} {b : BlockSnap} {s : State} (hen : pairEn s = true) (hrole : s.pair.role = 2)
    (hphase : s.pair.rphase = 2) :
    resyncDoneFx n crc b s = if n = psTotal s ∧ crc64 (mBytes s (poolArea s (pairB + 0xC)).1 n) = crc then
        { s with pair.ready := some b }
      else resyncFail s := by
  refine (if_pos (by rw [hen, hrole, hphase]; rfl)).trans ?_
  simp only [Bool.and_eq_true, decide_eq_true_eq]

/-- No snapshot is in progress on any cluster. -/
theorem psnap_none {s : State} (h : ∀ c < 4, (clGet s c).psnap = none) :
    (List.range 4).any (fun c => (clGet s c).psnap.isSome) = false := by
  rw [List.any_eq_false]
  intro c hc
  rw [h c (List.mem_range.mp hc)]
  decide

theorem xferSentFx_ready {s : State} (hen : pairEn s = true) (hrole : s.pair.role = 1) (hphase : s.pair.rphase = 2)
    (hsnap : s.pair.snapS ≤ s.grat.cycle) (hidle : ∀ c < 4, (clGet s c).psnap = none) :
    let base := (poolArea s (pairB + 0xC)).1
    let n := s.pair.xferLen
    let segs := ceilDiv n 2048
    let s1 := srvUp 15 4 n (foldS (List.range segs) (fun i t =>
      txOwn 3 2 {
        bytes := eorelFrame t (linkDa t 3) { kind := 6, last := i + 1 == segs }
          (beBytes 4 t.pair.snapS ++ beBytes 4 (i * 2048) ++ List.replicate 16 0)
          (mBytes t (base + i * 2048) (min 2048 (n - i * 2048))), due := ftNow t } t) s)
    let s2 := stateSend 6 s1.pair.snapS (crc64 (mBytes s1 base n)) n [] (ftNow s1) { s1 with pair.rphase := 0 }
    xferSentFx s = { s2 with pair.step := 1, pair.matchN := 0, pair.mis := 0 } := by
  refine (if_pos ?_).trans ?_
  · rw [hen, hrole, hphase, psnap_none hidle, decide_eq_true hsnap]
    rfl
  · simp only [List.length_range]
    rfl

/-- Settles O46: the link and the role open each command's branch. -/
theorem pairStreamCommands : Obligations.PairStreamCommands := by
  unfold Obligations.PairStreamCommands
  refine ⟨?_, ?_, ?_, ?_, ?_, ?_, ?_, ?_, ?_, ?_, ?_, ?_⟩
  · intro c d n s hen hlink
    refine ⟨fun hin => congrArg (finish s) (if_pos ?_), fun hlate => congrArg (finish s) (if_neg ?_)⟩
    · rw [hen, hlink, decide_eq_true hin]
      rfl
    · rw [decide_eq_false (Nat.not_le.mpr hlate), Bool.and_false]
      decide
  · intro c l s hen hlink
    exact congrArg (finish s) (if_pos (by rw [hen, hlink]; rfl))
  · intro c e s hslip slots row
    refine ⟨mirrorIn_concealed hslip, fun hcon => ?_⟩
    rw [mirrorIn_noSlip c e s hslip, hcon]
    rfl
  · intro c rows s hremote
    exact congrArg (finish s) (if_pos hremote)
  · intro c mask s hremote
    exact congrArg (finish s) (if_pos hremote)
  · intro tag role own side s hen hup huid
    have hform := formFx_partner (tag := tag.toNat) (role := role) (own := own) (side := side) hen hup huid
    refine ⟨fun hgood => congrArg (finish s) (hform.trans (if_pos hgood)),
      fun hbad => congrArg (finish s) (hform.trans (if_neg ?_))⟩
    exact fun ⟨htag, hside⟩ => hbad.elim (fun h => h htag) hside
  · intro s hen hlink hrole k
    exact congrArg (finish s) (if_pos (by rw [hen, hlink, hrole]; rfl))
  · intro c s hen hlink hrole hphase
    exact congrArg (finish s) (if_pos (by rw [hen, hlink, hrole, hphase]; rfl))
  · intro n crc b s hen hrole hphase good
    have hdone := resyncDoneFx_leeward (n := n.toNat) (crc := crc.toNat) (b := b) hen hrole hphase
    exact ⟨fun h => congrArg (finish s) (hdone.trans (if_pos h)), fun h => congrArg (finish s) (hdone.trans (if_neg h))⟩
  · intro s hen hrole hphase hsnap hidle base n segs s1 s2
    exact congrArg (finish s) (xferSentFx_ready hen hrole hphase hsnap hidle)
  · intro s hrole hphase
    exact congrArg (finish s) (if_pos (by rw [hrole, hphase]; rfl))
  · intro c s hretry hen hrole hstep hauto htime
    have hexec : exec .resyncRetry s = finish s (resyncRetryFx s) := rfl
    rw [hexec, resyncRetryFx, hretry]
    exact congrArg (finish s) (if_pos (by rw [hen, hrole, hstep, hauto, decide_eq_true htime]; rfl))

end Sys2Proof.Machine
end

section
/-! Proofs. The service bus: windows, transmission, collisions, PLCA, reception and its ring (R368 to R376). -/

namespace Sys2Proof.Machine

/-! ### The bus -/

/-- With nothing on the bus no frame has to leave it. -/
theorem svbDone_free {s : State} (h : s.svb.cur = none) : svbDone s = s := by
  unfold svbDone
  rw [h]

/-! ### Alarm windows -/

/-- The window opens at its millisecond. -/
def winOpened (s : State) : State :=
  { atFt (svbNextMs s * 65536000000) s with
    svb.win := true, svb.winNext := svbNextMs s + 1, svb.winFt := svbNextMs s * 65536000000, svb.guard := lf s (svbB + 8) 0 7 }

/-- What a window that opens brings on a backup. -/
theorem alarmOpenFx_opened {s : State} (hcur : s.svb.cur = none) (hen : svbEn s = true) (halarm : svbAlarm s = true)
    (hwin : s.svb.win = false) :
    let s2 := winOpened s
    let k := cycleOfFt s2 (svbNextMs s * 65536000000)
    alarmOpenFx s = if svbBackup s && svbPriv s then
        (if s.svb.relinq then { s2 with svb.lease := some (svbLease s2 3 k), svb.relinq := false }
         else if s.pair.role = 1 then { s2 with svb.lease := some (svbLease s2 1 k) }
         else match s.svb.ackCyc with
          | some c => { s2 with svb.lease := some (svbLease s2 2 c), svb.ackCyc := none }
          | none => s2)
      else s2 := by
  unfold alarmOpenFx
  rw [svbDone_free hcur]
  exact if_pos (by rw [hen, halarm, hwin]; rfl)

theorem alarmCloseFx_closed {s : State} (hwin : s.svb.win = true) (hcur : s.svb.cur = none) :
    let t := atFt (s.svb.winFt + 32 * 65536000) s
    alarmCloseFx s =
      { (if (svbHeadPriv t).isSome ∧ s.svb.backoff = none then evOr (svbB + 0x14) 16 (ctrUp (svbB + 0x118) 0 32 t) else t) with
        svb.win := false, svb.lease := none } := by
  intro t
  have ht : t.svb.cur = none := hcur
  unfold alarmCloseFx
  rw [if_pos hwin, svbDone_free ht]
  dsimp only
  rw [ht]
  simp only [whenS, Bool.not_false, Bool.and_true, Bool.and_eq_true, Option.isNone_iff_eq_none, Bool.false_eq_true, if_false]
  rfl

/-! ### Transmission -/

theorem svbTxFx_pick {f : SvbFrame} {s : State} (hcur : s.svb.cur = none) (hen : svbEn s = true)
    (hoff : s.svb.backoff = none) (hpick : svbPick s = some f) :
    svbTxFx s = if svbPlca s then
        (if 0 < s.svb.burst then svbStart f { s with svb.burst := s.svb.burst - 1 } else s)
      else svbStart f s := by
  unfold svbTxFx
  rw [svbDone_free hcur]
  dsimp only
  rw [if_neg (by rw [hen, hcur, hoff]; decide), hpick]

theorem plcaFx_turn {s : State} (hcur : s.svb.cur = none) (hen : svbEn s = true) (hplca : svbPlca s = true) :
    plcaFx s = match s.svb.frame with
      | some f => svbStart f { s with svb.burst := lf s (svbB + 0xC) 8 8 }
      | none => { s with svb.burst := 0 } := by
  unfold plcaFx
  rw [svbDone_free hcur]
  exact if_pos (by rw [hen, hplca, hcur]; rfl)

/-- A collision: the frame's attempt is counted; the sixteenth drops it, an earlier one draws a back-off. -/
theorem svbCollFx_cur {f : SvbFrame} {e : Nat} {s : State} (hcur : s.svb.cur = some (f, e)) (hbusy : s.time.lc < e) :
    let n := s.svb.tries + 1
    let u := srvUp 14 2 1 (ctrUp (svbB + 0x10C) 0 32 { s with svb.cur := none, svb.tries := n })
    let v := evOr (svbB + 0x14) 8 (ctrUp (svbB + 0x110) 0 32 { u with svb.tries := 0, svb.backoff := none })
    let w := if f.desc then { v with svb.desc := some 4, svb.frame := none } else { v with svb.lease := none }
    let d := draw .backoff n s
    let wait := if f.priv then 6400 + d % 4 * 1600 else d % 2 ^ min n 10 * 25600
    svbCollFx s = if 16 ≤ n then (if f.priv then raise 0x0E11 1 255 0 w else w)
      else { u with svb.backoff := some (s.time.lc + wait), svb.lfsr := draw .backoff (n + 64) s % 2 ^ 32 } := by
  unfold svbCollFx
  rw [hcur]
  exact if_neg (Nat.not_le.mpr hbusy)

/-! ### Reception -/

/-- The counts and the polarity of a received frame. -/
def svbSeen (rev : Bool) (s : State) : State :=
  let s1 := srvUp 14 1 1 (ctrUp (svbB + 0x100) 0 32 { s with svb.polSeen := true })
  if s.svb.polSeen = false ∧ rev = true then raise 0x0E10 0 255 0 (evOr (svbB + 0x14) 1 { s1 with svb.polRev := true }) else s1

theorem svbRxCount_eq (ok rev : Bool) (s : State) :
    svbRxCount ok rev s = if ok then svbSeen rev s else ctrUp (svbB + 0x104) 0 32 (svbSeen rev s) := by
  unfold svbRxCount svbSeen
  simp only [Bool.and_eq_true, Bool.not_eq_true']
  cases ok <;> rfl

theorem svbRxFx_good {l : List Byte} {rev : Bool} {s : State} (hcur : s.svb.cur = none) (hen : svbEn s = true) :
    svbRxFx l true rev s =
      if fType l = swxType (svbSeen rev s) && eKind l (fOff l) = 3 && eVer l (fOff l) = 1 then
        (if paired (svbSeen rev s) then pairSync (pairLeaseIn (fOff l) l true (svbSeen rev s)) else svbSeen rev s)
      else svbDeliver l (svbSeen rev s) := by
  unfold svbRxFx
  rw [svbDone_free hcur]
  dsimp only
  rw [if_neg (by rw [hen]; decide), svbRxCount_eq, if_pos rfl, if_neg (by decide)]

theorem svbRxFx_bad {l : List Byte} {rev : Bool} {s : State} (hcur : s.svb.cur = none) (hen : svbEn s = true) :
    svbRxFx l false rev s = ctrUp (svbB + 0x104) 0 32 (svbSeen rev s) := by
  unfold svbRxFx
  rw [svbDone_free hcur]
  dsimp only
  rw [if_neg (by rw [hen]; decide), if_pos (by decide), svbRxCount_eq]
  rfl

/-! ### The transmit ring -/

theorem svbDescFx_frame {s : State} :
    let r := ringRegs 4
    let a := ringAddr s r s.svb.txHead
    let w1 := mWord s (a + 4)
    let len := nfld w1 0 17
    let priv := nbit w1 27 && svbPriv s
    svbEn s = true → ringSize s r ≠ 0 → s.svb.txHead ≠ lf s (r + 8) 0 10 → s.svb.desc = none → s.svb.frame = none →
    dmaOk s a 32 true = true → nbit w1 31 = true → nfld w1 28 3 = 0 → len ≠ 0 → len ≤ 1514 →
    ((lb s svbB 9 && !priv) = false ∨ (max 64 (len + 4) + 20) * 8 ≤ (968 - lf s (svbB + 8) 0 7) * 10) →
    dmaOk s (mWord s a) len false = true →
    svbDescFx s = { s with
      svb.frame := some { bytes := fPad (mBytes s (mWord s a) len), priv := priv, desc := true }, svb.tries := 0 } := by
  intro r a w1 len priv hen hsize hhead hdesc hframe hdma hown htyp hlen hmax hfit hbuf
  have hsound : (nfld w1 28 3 != 0 || decide (len = 0) || decide (1514 < len) ||
      lb s svbB 9 && !priv && decide ((968 - lf s (svbB + 8) 0 7) * 10 < (max 64 (len + 4) + 20) * 8)) = false := by
    rw [htyp, decide_eq_false hlen, decide_eq_false (Nat.not_lt.mpr hmax)]
    rcases hfit with h | h
    · rw [h]
      rfl
    · rw [decide_eq_false (Nat.not_lt.mpr h), Bool.and_false]
      rfl
  refine (if_neg ?_).trans ((if_neg ?_).trans ((if_neg ?_).trans ((if_neg ?_).trans (if_neg ?_))))
  · simp only [Bool.or_eq_true, Bool.not_eq_true', decide_eq_true_eq, hen, hdesc, hframe, Option.isSome_none]
    simp only [Bool.true_eq_false, Bool.false_eq_true, or_false, false_or]
    exact not_or.mpr ⟨hsize, hhead⟩
  · rw [show dmaOk s (ringAddr s (ringRegs 4) s.svb.txHead) 32 true = true from hdma]
    decide
  · rw [show nbit (mWord s (ringAddr s (ringRegs 4) s.svb.txHead + 4)) 31 = true from hown]
    decide
  · exact Bool.eq_false_iff.mp hsound
  · rw [show dmaOk s (mWord s (ringAddr s (ringRegs 4) s.svb.txHead)) _ false = true from hbuf]
    decide

/-- Settles O47: with the bus free each command's guard picks its branch. -/
theorem serviceBusCommands : Obligations.ServiceBusCommands := by
  unfold Obligations.ServiceBusCommands
  refine ⟨?_, ?_, ?_, ?_, ?_, ?_, ?_, ?_, ?_, ?_⟩
  · intro s hcur hen halarm hwin ms s1 s2 k
    have hopen := alarmOpenFx_opened hcur hen halarm hwin
    refine ⟨fun hoff => ?_, fun hback hpriv => ?_⟩
    · refine congrArg (finish s) (hopen.trans (if_neg ?_))
      rcases hoff with h | h <;> simp [h]
    · have hlease := hopen.trans (if_pos (by rw [hback, hpriv]; rfl))
      refine ⟨fun hrel => ?_, fun hrel hrole => ?_, fun c hrel hrole hack => ?_⟩
      · exact congrArg (finish s) (hlease.trans (if_pos hrel))
      · exact congrArg (finish s) (hlease.trans ((if_neg (by rw [hrel]; decide)).trans (if_pos hrole)))
      · refine congrArg (finish s) (hlease.trans ((if_neg (by rw [hrel]; decide)).trans ((if_neg hrole).trans ?_)))
        rw [hack]
        rfl
  · intro s hwin hcur t
    exact congrArg (finish s) (alarmCloseFx_closed hwin hcur)
  · intro f s hcur hen hoff hpick
    have hstart := svbTxFx_pick hcur hen hoff hpick
    exact ⟨fun h => congrArg (finish s) (hstart.trans (if_neg (by rw [h]; decide))),
      fun h hburst => congrArg (finish s) (hstart.trans ((if_pos h).trans (if_pos hburst)))⟩
  · intro s hcur hen hplca
    have hturn := plcaFx_turn hcur hen hplca
    refine ⟨fun f hframe => congrArg (finish s) (hturn.trans ?_), fun hframe => congrArg (finish s) (hturn.trans ?_)⟩
    · rw [hframe]
      rfl
    · rw [hframe]
  · intro f e s hcur hbusy n u
    have hcoll := svbCollFx_cur hcur hbusy
    refine ⟨fun hlast => ?_, fun hmore => ?_⟩
    · intro v w
      exact congrArg (finish s) (hcoll.trans (if_pos hlast))
    · exact ⟨draw .backoff n s, draw .backoff (n + 64) s % 2 ^ 32,
        congrArg (finish s) (hcoll.trans (if_neg (Nat.not_le.mpr hmore)))⟩
  · intro t s hoff
    have hexec : exec .svbBackoffExpiry s = finish s (svbBackoffFx s) := rfl
    rw [hexec, svbBackoffFx, hoff]
    rfl
  · intro l ok rev s hcur hen s1 s2
    refine ⟨fun hok => ?_, fun hok hty => ?_, fun hok hty hkind hver hpair => ?_⟩
    · rw [hok]
      exact congrArg (finish s) (svbRxFx_bad hcur hen)
    · rw [hok]
      refine congrArg (finish s) ((svbRxFx_good hcur hen).trans (if_neg ?_))
      rw [show decide (fType l = swxType (svbSeen rev s)) = false from decide_eq_false hty]
      exact Bool.false_ne_true
    · rw [hok]
      refine congrArg (finish s) ((svbRxFx_good hcur hen).trans ((if_pos ?_).trans (if_pos hpair)))
      rw [show decide (fType l = swxType (svbSeen rev s)) = true from decide_eq_true hty, hkind, hver]
      rfl
  · intro s hen hmode
    refine ⟨fun hcyc hplca => congrArg (finish s) (if_pos ?_), congrArg (finish s) (if_pos ?_)⟩
    · rw [hen, hmode, hplca, bne_iff_ne.mpr hcyc]
      rfl
    · rw [hen, hmode]
      rfl
  · intro s r a w1 len priv hen hsize hhead hdesc hframe hdma hown htyp hlen hmax hfit hbuf
    exact congrArg (finish s)
      ((if_pos rfl).trans (svbDescFx_frame hen hsize hhead hdesc hframe hdma hown htyp hlen hmax hfit hbuf))
  · intro res s hcur hdesc a u
    have hexec : exec (.txDescriptorComplete 4) s = finish s (svbDescDoneFx s) := congrArg (finish s) (if_pos rfl)
    rw [hexec, svbDescDoneFx, hcur]
    dsimp only
    rw [hdesc]
    rfl

end Sys2Proof.Machine
end

section
/-! Proofs. Requests of the host link (R380 to R391). -/

namespace Sys2Proof.Machine

/-! ### A Survey count leaves what the host link reads -/

theorem hostValid_srvUp (b i n : Nat) (s : State) : hostValid (srvUp b i n s) = hostValid s :=
  lb_of (congrArg (·.live) (srvUp_hub b i n s)) ..

theorem hostAddr_srvUp (b i n : Nat) (s : State) : hostAddr (srvUp b i n s) = hostAddr s :=
  lf_of (congrArg (·.live) (srvUp_hub b i n s)) ..

theorem hostDev_srvUp (b i n d : Nat) (s : State) : hostDev (srvUp b i n s) d = hostDev s d := by
  unfold hostDev
  rw [hostValid_srvUp, hostAddr_srvUp]

theorem bootWindow_srvUp (b i n : Nat) (s : State) : bootWindow (srvUp b i n s) = decide (s.boot.phase < 2) := by
  unfold bootWindow
  rw [srvUp_boot]

/-! ### A request frame (R380, R382) -/

/-- The data length of a request's form. -/
def hostLen (cmd : Nat) (f : HostFrame) : Nat := if cmd = 2 || cmd = 6 then 4 * f.len.toNat else 0

section
variable {cmd : Nat} {f : HostFrame} {s : State} (crcForm : State → Nat) (act : Bool → State → State)

theorem hostFrame_ignored (h : hostTakes s = false ∨ f.data.length ≠ hostLen cmd f) :
    hostFrame cmd f crcForm act s = s := by
  refine if_pos ?_
  rw [Bool.or_eq_true, Bool.not_eq_true', bne_iff_ne]
  exact h

theorem hostFrame_taken (htakes : hostTakes s = true) (hlen : f.data.length = hostLen cmd f) :
    hostFrame cmd f crcForm act s = match hostDev s f.dev.toNat with
      | none => hostQuiet (srvUp 4 0 1 s)
      | some bc =>
        if crc16 (frameBytes cmd f) = f.crc.toNat then act bc (srvUp 4 0 1 s)
        else hostCrcErr (if bc then crcForm (srvUp 4 0 1 s) else 1) (srvUp 4 0 1 s) := by
  refine (if_neg ?_).trans ?_
  · unfold hostLen at hlen
    rw [htakes, bne_eq_false_iff_eq.mpr hlen]
    decide
  · rw [hostDev_srvUp] <;> rfl

theorem hostFrame_other (htakes : hostTakes s = true) (hlen : f.data.length = hostLen cmd f)
    (hdev : hostDev s f.dev.toNat = none) : hostFrame cmd f crcForm act s = hostQuiet (srvUp 4 0 1 s) := by
  rw [hostFrame_taken crcForm act htakes hlen, hdev]

theorem hostFrame_good (htakes : hostTakes s = true) (hlen : f.data.length = hostLen cmd f) {bc : Bool}
    (hdev : hostDev s f.dev.toNat = some bc) (hcrc : crc16 (frameBytes cmd f) = f.crc.toNat) :
    hostFrame cmd f crcForm act s = act bc (srvUp 4 0 1 s) := by
  rw [hostFrame_taken crcForm act htakes hlen, hdev]
  exact if_pos hcrc

theorem hostFrame_badCrc (htakes : hostTakes s = true) (hlen : f.data.length = hostLen cmd f) {bc : Bool}
    (hdev : hostDev s f.dev.toNat = some bc) (hcrc : crc16 (frameBytes cmd f) ≠ f.crc.toNat) :
    hostFrame cmd f crcForm act s = hostCrcErr (if bc then crcForm (srvUp 4 0 1 s) else 1) (srvUp 4 0 1 s) := by
  rw [hostFrame_taken crcForm act htakes hlen, hdev]
  exact if_neg hcrc

end

/-- What every request does before its own action, by its command, its data length and its answer to a broadcast whose
CRC failed. -/
theorem hostFrame_common {cmd : Nat} {f : HostFrame} {i : Instr} {crcForm : State → Nat} {act : Bool → State → State}
    (hrun : ∀ s, exec i s = finish s (hostFrame cmd f crcForm act s))
    (hform : ∀ s, crcForm (srvUp 4 0 1 s) = if cmd = 5 ∧ hostValid s = true then 5 else 0) (s : State) :
    let t := srvUp 4 0 1 s
    let u := srvUp 4 3 1 (evOr 0x40040020 2 (ctrUp 0x40040028 24 8 t))
    (hostTakes s = false ∨ f.data.length ≠ hostLen cmd f → exec i s = .next (placed s s)) ∧
    (hostTakes s = true → f.data.length = hostLen cmd f →
      (hostDev s f.dev.toNat = none → exec i s = .next (placed s (hostQuiet t))) ∧
      (crc16 (frameBytes cmd f) ≠ f.crc.toNat →
        (hostDev s f.dev.toNat = some false → exec i s = .next (placed s (hostBusy 1 0x20 u))) ∧
        (hostDev s f.dev.toNat = some true → exec i s = .next (placed s
          (if cmd = 5 ∧ hostValid s = true then { hostBusy 5 0 u with host.who := some (hostAddr u, false) }
           else hostQuiet u))))) := by
  intro t u
  rw [hrun]
  refine ⟨fun h => congrArg (finish s) (hostFrame_ignored crcForm act h), fun htakes hlen =>
    ⟨fun hdev => congrArg (finish s) (hostFrame_other crcForm act htakes hlen hdev), fun hcrc =>
      ⟨fun hdev => ?_, fun hdev => ?_⟩⟩⟩
  · exact congrArg (finish s) (hostFrame_badCrc crcForm act htakes hlen hdev hcrc)
  · refine congrArg (finish s) ((hostFrame_badCrc crcForm act htakes hlen hdev hcrc).trans ?_)
    rw [if_pos rfl, hform]
    split <;> rfl

/-- Settles O48: the frame's checks, then each request's own conditions. -/
theorem hostRequestCommands : Obligations.HostRequestCommands := by
  unfold Obligations.HostRequestCommands
  refine ⟨?_, ?_, ?_, ?_⟩
  · intro f s e he
    simp only [List.mem_cons, List.not_mem_nil, or_false] at he
    rcases he with rfl | rfl | rfl | rfl | rfl | rfl
    · exact hostFrame_common (cmd := 1) (fun _ => rfl) (fun _ => by simp) s
    · exact hostFrame_common (cmd := 2) (fun _ => rfl) (fun _ => by simp) s
    · exact hostFrame_common (cmd := 3) (fun _ => rfl) (fun _ => by simp) s
    · exact hostFrame_common (cmd := 4) (fun _ => rfl) (fun _ => by simp) s
    · exact hostFrame_common (cmd := 5) (fun _ => rfl) (fun u => by simp [hostValid_srvUp]) s
    · exact hostFrame_common (cmd := 6) (fun _ => rfl) (fun _ => by simp) s
  · intro f bc s htakes hdev t bad good
    refine ⟨fun hcrc hdata => ?_, fun hcrc hdata => ?_, fun hcrc hdata => ?_, fun hcrc hdata => ?_,
      fun hcrc hdata => ?_, fun hcrc hdata => ?_⟩
    · refine congrArg (finish s) ((hostFrame_good _ _ htakes (by rw [hdata]; rfl) hdev hcrc).trans ?_)
      simp only [bootWindow_srvUp, Bool.or_eq_true, Bool.not_eq_true', decide_eq_true_eq, or_assoc]
      rfl
    · refine congrArg (finish s) ((hostFrame_good _ _ htakes hdata hdev hcrc).trans ?_)
      simp only [bootWindow_srvUp, hostValid_srvUp, Bool.or_eq_true, Bool.and_eq_true, Bool.not_eq_true', decide_eq_true_eq]
      cases bc <;> rfl
    · refine congrArg (finish s) ((hostFrame_good _ _ htakes (by rw [hdata]; rfl) hdev hcrc).trans ?_)
      simp only [Bool.or_eq_true, bne_iff_ne, or_assoc]
      rfl
    · refine congrArg (finish s) ((hostFrame_good _ _ htakes (by rw [hdata]; rfl) hdev hcrc).trans ?_)
      simp only [enumMay, hostValid_srvUp, srvUp_host, Bool.or_eq_true, Bool.not_eq_true', bne_iff_ne, decide_eq_true_eq]
      by_cases hmay : hostValid s = false ∧ s.host.enumIn = true
      · have hmay' : (!hostValid s && s.host.enumIn) = true := by rw [hmay.1, hmay.2]; rfl
        rw [hmay', if_neg (show ¬ true = false by decide), if_pos hmay, if_pos hmay]
        rfl
      · have hmay' : (!hostValid s && s.host.enumIn) = false := by
          rw [← Bool.not_eq_true, Bool.and_eq_true, Bool.not_eq_true']
          exact hmay
        rw [hmay', if_pos (show false = false from rfl), if_neg hmay, if_neg hmay]
        rfl
    · refine congrArg (finish s) ?_
      unfold whoCallsFx
      refine (hostFrame_good _ _ htakes (by rw [hdata]; rfl) hdev hcrc).trans ?_
      simp only [hostValid_srvUp, hostAddr_srvUp, Bool.or_eq_true, Bool.not_eq_true', bne_iff_ne, or_assoc]
      rfl
    · intro off u
      refine congrArg (finish s) ((hostFrame_good _ _ htakes hdata hdev hcrc).trans ?_)
      simp only [srvUp_boot, Bool.or_eq_true, Bool.not_eq_true', bne_iff_ne, decide_eq_true_eq, or_assoc]
      rfl
  · intro x l s
    exact ⟨rfl, fun h => if_pos h, fun h => if_neg (by rw [h]; decide)⟩
  · intro a v s
    refine ⟨rfl, fun h => ?_⟩
    unfold hostAccess
    dsimp only
    rw [h, if_neg Bool.false_ne_true, srvUp_host]

end Sys2Proof.Machine
end

section
/-! Proofs. Transactions of the host link, enumeration, attention and messages (R384 to R394, R407, R408). -/

namespace Sys2Proof.Machine

/-! ### HOST_EXEC_DONE -/

theorem hostRun_done {t : State} (h : t.host.todo = []) : hostRun t.host.todo t = t := by
  rw [h]
  show { t with host.todo := [] } = t
  rw [← h]

theorem hostHeld_srvUp (b i n : Nat) (s : State) : hostHeld (srvUp b i n s) = hostHeld s := by
  unfold hostHeld
  rw [srvUp_frst, srvUp_srv_held]

/-- With nothing left to execute and no access waiting the response begins. -/
theorem hostDoneFx_last {us : Nat} {s : State} (hphase : s.host.phase = 1) (htodo : s.host.todo = [])
    (hheld : hostHeld s = false) :
    let t := srvUp 4 4 us (atLc (s.time.lc + us * 500) s)
    hostDoneFx us s = if s.host.form = 0 then { t with host.phase := 3 }
      else { t with host.phase := 2, host.resp := hostReply t } := by
  intro t
  have hhost : t.host = s.host := srvUp_host ..
  have hfree : hostHeld t = false := (hostHeld_srvUp ..).trans hheld
  have hend : hostRun t.host.todo t = t := hostRun_done ((congrArg (·.todo) hhost).trans htodo)
  unfold hostDoneFx
  rw [if_neg (by rw [hphase, htodo]; decide)]
  change (let u := if hostHeld t then t else hostRun t.host.todo t
    if hostHeld u || !u.host.todo.isEmpty || u.host.phase != 1 then u
    else if u.host.form = 0 then { u with host.phase := 3 } else { u with host.phase := 2, host.resp := hostReply u }) = _
  rw [hend, ite_self]
  dsimp only
  rw [if_neg (by rw [hfree, hhost, htodo, hphase]; decide), hhost]

/-! ### The words of the host link -/

theorem host_strobeAt : strobeAt 0x40040008 ∧ strobeAt 0x40040014 := by
  unfold strobeAt
  decide +kernel

theorem strobe_forget (m : Master) (v : Nat) (s : State) : strobe m 0x40040008 v s = whenS (nbit v 0) forgetFx s := rfl
theorem strobe_atnSet (m : Master) (v : Nat) (s : State) :
    strobe m 0x40040014 v s = whenS (nbit v 3) (evOr 0x4004000C 8) s := rfl

/-- A write of every bit replaces the word. -/
theorem mergeW_all (a b : Word) : mergeW a b (wd 0xFFFFFFFF) = b := by
  have hones : wd 0xFFFFFFFF = BitVec.allOnes 32 := rfl
  rw [mergeW, hones, BitVec.not_allOnes, BitVec.and_zero, BitVec.and_allOnes, BitVec.zero_or]

/-- A write of a plain RI word that goes through. -/
theorem writeCmd_ri {m : Master} {a wmask : Nat} {v : Word} {s : State} (h : writes s m a = true)
    (hplain : plainReg a = true) (hrow : (rowOf a).map (fun r => (r.acc, r.wmask)) = some (.ri, wmask)) :
    writeCmd m a v.toNat s = riWrite m a v wmask (counted s) := by
  obtain ⟨r, hr, hacc⟩ := Option.map_eq_some_iff.mp hrow
  obtain ⟨hri, hmask⟩ := Prod.mk.inj hacc
  refine (busWrite_goes v.toNat h).trans ?_
  rw [wd_toNat, regWrite_row m _ v (counted s) r hplain hr, hri, hmask]

/-- The message words are RI words of one word, of no ring, all of whose bits can be written. -/
theorem msg_word : ∀ a ∈ [0x40040018, 0x4004001C], plainReg a = true ∧
    (rowOf a).map (fun r => (r.acc, r.wmask)) = some (.ri, 0xFFFFFFFF) ∧ riMulti a = none ∧ ringWord a = none := by
  decide +kernel

theorem riWrite_msgOut (m : Master) (v : Word) (wmask : Nat) (s : State) :
    riWrite m 0x40040018 v wmask s = evOr 0x4004000C 2 (liveWrite 0x40040018 v wmask s) := by
  obtain ⟨_, _, hmulti, hring⟩ := msg_word 0x40040018 (by decide)
  unfold riWrite
  dsimp only
  rw [hmulti]
  dsimp only
  rw [hring]
  rfl

theorem riWrite_msgIn (m : Master) (v : Word) (wmask : Nat) (s : State) :
    riWrite m 0x4004001C v wmask s = evOr 0x40040020 1 (liveWrite 0x4004001C v wmask s) := by
  obtain ⟨_, _, hmulti, hring⟩ := msg_word 0x4004001C (by decide)
  unfold riWrite
  dsimp only
  rw [hmulti]
  dsimp only
  rw [hring]
  rfl

/-- A word all of whose bits are written, the access counted. -/
theorem liveWrite_all (a : Nat) (v : Word) (s : State) :
    liveWrite a v 0xFFFFFFFF (counted s) =
      { setLv a v (counted s) with hub.liveBad := dropFrom a s.hub.liveBad } := by
  obtain ⟨srv, hs⟩ := counted_withSrv s
  unfold liveWrite
  rw [mergeW_all, hs]
  rfl

/-- A sleeping chip outside a transaction hears a falling edge. -/
theorem wake_guard {s : State} (hsleep : s.pwr.sleep ≠ 0) (hlow : s.host.low = false) :
    ¬ (decide (s.pwr.sleep = 0) || s.host.low) = true := by
  rw [decide_eq_false hsleep, hlow]
  decide

/-- Settles O49: HCS_N's edges by the phase, the writes by the words they reach. -/
theorem hostTransactionCommands : Obligations.HostTransactionCommands := by
  unfold Obligations.HostTransactionCommands
  refine ⟨?_, ?_, ?_, ?_, ?_, ?_, ?_, ?_⟩
  · intro s x
    refine ⟨fun h => congrArg (finish s) (if_pos h), fun h => congrArg (finish s) (if_neg (by rw [show s.host.low = false from h]; decide)),
      fun hlow hend => congrArg (finish s) (if_pos ?_), fun hlow hdeaf hphase => ?_⟩
    · simp only [Bool.and_eq_true, Bool.or_eq_true, beq_iff_eq]
      exact ⟨hlow, or_assoc.mpr hend⟩
    · refine congrArg (finish s) ((if_pos ?_).trans ?_)
      · simp only [Bool.and_eq_true, Bool.not_eq_true', bne_iff_ne]
        exact ⟨⟨hlow, hdeaf⟩, hphase⟩
      · simp only [whenS, beq_iff_eq]
        rfl
  · intro us s hphase htodo hheld t
    exact congrArg (finish s) (hostDoneFx_last hphase htodo hheld)
  · intro s st
    unfold hostReply
    refine ⟨fun h => ?_, fun h => ?_, fun h => ?_, fun h => ?_⟩ <;> rw [h] <;> rfl
  · intro level s
    have hexec : exec (.enumInChange level) s = finish s (enumInFx level s) := rfl
    rw [hexec, enumInFx]
    cases lb s 0x40040000 30 <;> rfl
  · intro s fall
    refine ⟨fun h => ?_, fun hsleep hlow hcfg => ?_, fun hsleep hlow hcfg => ?_, fun hsleep hlow hcfg => ?_⟩
    · exact congrArg (finish s) (if_pos (by rw [Bool.or_eq_true, decide_eq_true_eq]; exact h))
    · refine congrArg (finish s) ((if_neg (wake_guard hsleep hlow)).trans (if_pos ?_))
      rw [show wakeOn s 0 = false from hcfg]
      rfl
    · refine congrArg (finish s) ((if_neg (wake_guard (by omega) hlow)).trans ((if_neg ?_).trans (if_pos hsleep)))
      rw [show wakeOn s 0 = true from hcfg]
      decide
    · refine congrArg (finish s) ((if_neg (wake_guard (by omega) hlow)).trans ((if_neg ?_).trans (if_neg (by omega))))
      rw [show wakeOn s 0 = true from hcfg]
      decide
  · intro m s h
    refine congrArg (finish s) ?_
    rw [writeCmd_strobe h host_strobeAt.1, strobe_forget, whenS, if_pos (by decide), forgetFx, lb_counted, lb_counted]
    simp only [Bool.and_eq_true, Bool.not_eq_true']
  · intro m s h
    refine congrArg (finish s) ?_
    rw [writeCmd_strobe h host_strobeAt.2, strobe_atnSet, whenS, if_pos (by decide)]
  · intro m v s put
    refine ⟨fun h => congrArg (finish s) ?_, fun h => congrArg (finish s) ?_⟩
    · obtain ⟨hplain, hrow, _⟩ := msg_word 0x40040018 (by decide)
      rw [writeCmd_ri h hplain hrow, riWrite_msgOut, liveWrite_all]
    · obtain ⟨hplain, hrow, _⟩ := msg_word 0x4004001C (by decide)
      rw [writeCmd_ri h hplain hrow, riWrite_msgIn, liveWrite_all]

end Sys2Proof.Machine
end

section
/-! Proofs. Power domains, the Gust limiter and droop (R398 to R406). -/

namespace Sys2Proof.Machine

/-! ### Admission -/

/-- The state in which the head of the queue is admitted. -/
def gustAdmitted (s : State) (d : Nat) (rest : List Nat) : State :=
  let x := domGet s d
  let w := min 65535 ((s.time.lc - x.reqLc) / 500)
  let s1 := domPut d { x with st := 5, ramp := domRamp s d, endLc := s.time.lc + upTicks d x.held }
    { s with pwr.queue := rest }
  srvUp 29 1 w (srvUp 29 0 1 (setLv (domReg d + 0xC) (wd (w * 65536 + max (lf s (domReg d + 0xC) 0 16) w)) s1))

/-- The head is admitted when it fits, or alone with a warning; no domain passes it. -/
theorem gustRun_head {d : Nat} {rest : List Nat} {s : State} (n : Nat) (hq : s.pwr.queue = d :: rest) :
    let fits := decide (rampUsed s + domRamp s d ≤ rampBudget s)
    let big := decide (rampBudget s < domRamp s d) && rampUsed s == 0
    gustRun (n + 1) s = if fits || big then
        gustRun n (whenS (big && !fits) (raise 0x1D11 1 255 0) (gustAdmitted s d rest))
      else s := by
  rw [gustRun, hq]
  unfold gustAdmitted
  dsimp only

theorem gustRun_fits {d : Nat} {rest : List Nat} {s : State} (n : Nat) (hq : s.pwr.queue = d :: rest)
    (hfit : rampUsed s + domRamp s d ≤ rampBudget s) : gustRun (n + 1) s = gustRun n (gustAdmitted s d rest) := by
  refine (gustRun_head n hq).trans ?_
  rw [decide_eq_true hfit, if_pos (Bool.true_or _), Bool.not_true, Bool.and_false]
  rfl

theorem gustRun_waits {d : Nat} {rest : List Nat} {s : State} (n : Nat) (hq : s.pwr.queue = d :: rest)
    (hover : rampBudget s < rampUsed s + domRamp s d) (hshared : rampUsed s ≠ 0 ∨ domRamp s d ≤ rampBudget s) :
    gustRun (n + 1) s = s := by
  refine (gustRun_head n hq).trans (if_neg ?_)
  simp only [Bool.or_eq_true, Bool.and_eq_true, decide_eq_true_eq, beq_iff_eq]
  omega

theorem gustRun_alone {d : Nat} {rest : List Nat} {s : State} (n : Nat) (hq : s.pwr.queue = d :: rest)
    (hover : rampBudget s < domRamp s d) (hidle : rampUsed s = 0) :
    gustRun (n + 1) s = gustRun n (raise 0x1D11 1 255 0 (gustAdmitted s d rest)) := by
  have hmore : ¬ rampUsed s + domRamp s d ≤ rampBudget s := by omega
  refine (gustRun_head n hq).trans ?_
  rw [decide_eq_false hmore, decide_eq_true hover, hidle]
  rfl

/-! ### Transitions -/

/-- A TARGET kept for the end of a transition. -/
theorem domFollow_eq (d : Nat) (next : Option Nat) (s : State) :
    domFollow d next s = next.elim s (fun t => domTarget d t 0 s) := by
  cases next <;> rfl

/-- Settles O50: the head's ramp against the budget, a domain's transition, the reading against the level. -/
theorem powerDomainCommands : Obligations.PowerDomainCommands := by
  unfold Obligations.PowerDomainCommands
  refine ⟨?_, ?_, ?_, ?_, ?_⟩
  · intro s s1 u
    refine congrArg (finish s) ?_
    change whenS (!u.pwr.queue.isEmpty) (pwrEvent 1) u = _
    cases hq : u.pwr.queue with
    | nil => rw [if_pos rfl]; rfl
    | cons d rest => rw [if_neg (List.cons_ne_nil d rest)]; rfl
  · intro n d rest s
    refine ⟨fun hq => ?_, fun hq => ?_⟩
    · unfold gustRun
      rw [hq]
    · exact ⟨gustRun_fits n hq, gustRun_waits n hq, gustRun_alone n hq⟩
  · intro d s hst x u
    refine congrArg (finish s) ((if_pos hst).trans ?_)
    rw [domFollow_eq]
  · intro d s hst x s1 u
    refine congrArg (finish s) ((if_pos hst).trans ?_)
    rw [domFollow_eq]
  · intro v s u
    refine ⟨fun hlow => ?_, fun hok => ?_, fun hpaused hok => ?_⟩
    · exact congrArg (finish s) (if_pos (decide_eq_true hlow))
    · exact congrArg (finish s) (if_neg (fun h => Nat.not_lt.mpr hok (of_decide_eq_true h)))
    · have hlevel : droopLow (vsysRead v.toNat s) v.toNat = false := decide_eq_false (Nat.not_lt.mpr hok)
      exact congrArg (finish s) (if_pos (by rw [hlevel]; exact congrArg (· && true) hpaused))

end Sys2Proof.Machine
end

section
/-! Proofs. Sleep, waking and throttling (R407 to R412). -/

namespace Sys2Proof.Machine

/-! ### A write of SLEEP -/

theorem sleep_strobeAt : strobeAt 0x401D0030 := by
  unfold strobeAt
  decide +kernel

theorem strobe_sleep (m : Master) (v : Nat) (s : State) : strobe m 0x401D0030 v s = sleepStrobe v s := rfl

theorem outInUse_counted (s : State) : outInUse (counted s) = outInUse s := by
  obtain ⟨srv, hs⟩ := counted_withSrv s
  rw [hs]
  rfl

theorem lineRuns_counted (s : State) : lineRuns (counted s) = lineRuns s := by
  obtain ⟨srv, hs⟩ := counted_withSrv s
  rw [hs]
  rfl

/-- Why a sleep is refused, the access counted. -/
theorem sleepRefused_counted (s : State) {v : Nat} (hv : v ≠ 3) :
    sleepRefused (counted s) v = true ↔
      (outInUse s = true ∨ lb s 0x400F0020 31 = true) ∨ v = 1 ∧ lf s 0x401D0180 4 2 = 1 ∧ lineRuns s = true := by
  unfold sleepRefused
  rw [outInUse_counted, lineRuns_counted, lb_counted, lf_counted]
  simp only [Bool.or_eq_true, Bool.and_eq_true, beq_iff_eq, hv, false_or, and_assoc]
  rfl

/-- A write of a sleep level that goes through. -/
theorem writeCmd_sleep {m : Master} {s : State} (h : writes s m 0x401D0030 = true) (v : Nat) :
    writeCmd m 0x401D0030 v s = sleepStrobe (wd v).toNat (counted s) := by
  rw [writeCmd_strobe h sleep_strobeAt, strobe_sleep]

theorem sleepStrobe_level (v : Nat) (hv : v = 1 ∨ v = 2) (s : State) :
    sleepStrobe v s = if sleepRefused s v then evOr 0x401D0004 16 s else { s with pwr.sleepReq := v } := by
  rcases hv with rfl | rfl <;> rfl

/-! ### Waking -/

theorem wakeFrameFx_not {p : Nat} {l : List Byte} {ok : Bool} {s : State}
    (h : s.pwr.sleep ≠ 1 ∨ p ≠ lf s 0x401D0034 4 2 ∨ ok = false ∨ nbit s.pwr.wakeCfg 3 = false) :
    wakeFrameFx p l ok s = s := by
  refine if_neg ?_
  simp only [Bool.and_eq_true, decide_eq_true_eq, beq_iff_eq]
  rintro ⟨⟨⟨⟨⟨⟨hsleep, hport⟩, _⟩, hok⟩, hcfg⟩, _⟩, _⟩
  rcases h with h | h | h | h
  · exact h hsleep
  · exact h hport
  · exact absurd (hok.symm.trans h) (by decide)
  · exact absurd (hcfg.symm.trans h) (by decide)

/-- A wake event of a sleeping node whose source is enabled. -/
theorem wakeFx_on {cause i : Nat} {s : State} (hsleep : s.pwr.sleep ≠ 0) (hcfg : nbit s.pwr.wakeCfg i = true) :
    wakeFx cause i s = if s.pwr.sleep = 1 then srvUp 32 0 1 (domTarget 0 3 0 { s with pwr.sleep := 0, pwr.wakeSrc := cause })
      else coldReset 64 { s with pwr.wakeSrc := cause } := by
  refine if_neg ?_
  rw [decide_eq_false hsleep, show wakeOn s i = true from hcfg]
  decide

theorem wakeFx_off {cause i : Nat} {s : State} (h : s.pwr.sleep = 0 ∨ nbit s.pwr.wakeCfg i = false) :
    wakeFx cause i s = s := by
  refine if_pos ?_
  rw [Bool.or_eq_true, decide_eq_true_eq, Bool.not_eq_true']
  exact h

/-! ### The temperature -/

theorem thermalSampleFx_eq (temp : Int) (s0 : State) :
    let s := atLc ((s0.time.lc / 500000 + 1) * 500000) s0
    let hot : State → State := fun u => { u with
      pwr.temp := temp, pwr.hot150 := decide (1500 ≤ temp),
      pwr.hotSince := if 1550 ≤ temp then (s.pwr.hotSince.orElse (fun _ => some s.time.lc)) else none,
      pwr.throttled := s.pwr.throttled && decide (thBase s < s.pwr.nextStep) }
    let t := srvUp 29 3 (b2n (decide (thBase (hot s) < s.pwr.step))) (hot s)
    thermalSampleFx temp s0 = if 1500 ≤ temp then stepTo 3 (if s.pwr.hot150 then t else raise 0x1D13 2 255 0 t) else t := by
  intro s hot t
  have hwarn : whenS (!s.pwr.hot150) (raise 0x1D13 2 255 0) t = if s.pwr.hot150 then t else raise 0x1D13 2 255 0 t := by
    cases s.pwr.hot150 <;> rfl
  rw [← hwarn]
  rfl

/-- Settles O51: a sleep's refusals, a wake event's source, a reading against the levels. -/
theorem sleepAndThermalCommands : Obligations.SleepAndThermalCommands := by
  unfold Obligations.SleepAndThermalCommands
  refine ⟨?_, ?_, ?_, ?_, ?_, fun n s => rfl, ?_⟩
  · intro m s h out
    refine ⟨congrArg (finish s) ?_, congrArg (finish s) ?_⟩
    · rw [writeCmd_sleep h, show (wd 1).toNat = 1 from rfl, sleepStrobe_level 1 (Or.inl rfl)]
      simp only [sleepRefused_counted s (show 1 ≠ 3 by decide), true_and]
      rfl
    · rw [writeCmd_sleep h, show (wd 2).toNat = 2 from rfl, sleepStrobe_level 2 (Or.inr rfl)]
      simp only [sleepRefused_counted s (show 2 ≠ 3 by decide), show (2 = 1) = False by decide, false_and, or_false]
      rfl
  · intro p l ok s
    refine ⟨fun hsleep hport hup hcfg hok hty hda => congrArg (finish s) (if_pos ?_),
      fun h => congrArg (finish s) (wakeFrameFx_not h)⟩
    simp only [Bool.and_eq_true, decide_eq_true_eq, beq_iff_eq]
    exact ⟨⟨⟨⟨⟨⟨hsleep, hport⟩, hup⟩, hok⟩, hcfg⟩, hty⟩, hda⟩
  · intro s woken
    refine ⟨fun h => congrArg (finish s) (wakeFx_off h), fun hsleep hcfg => congrArg (finish s) (wakeFx_on hsleep hcfg),
      fun hsleep halarm hcfg => ?_, fun h => ?_⟩
    · refine congrArg (finish s) ((if_neg ?_).trans (wakeFx_on (s := atLc _ s) hsleep hcfg))
      rw [decide_eq_false halarm, decide_eq_false hsleep]
      decide
    · refine congrArg (finish s) (if_pos ?_)
      rw [Bool.or_eq_true, decide_eq_true_eq, decide_eq_true_eq]
      exact h.symm
  · intro temp s0 s hot t
    have hfx := thermalSampleFx_eq temp.toInt s0
    exact ⟨fun hcool => congrArg (finish s0) (hfx.trans (if_neg (Int.not_le.mpr hcool))),
      fun hwarm => congrArg (finish s0) (hfx.trans (if_pos hwarm))⟩
  · intro s n
    refine ⟨fun hwarm hstep => ?_, fun hcool hbase => ?_, fun habove hbelow => ?_⟩
    · intro t
      refine congrArg (finish s) ((if_pos (both_decide hwarm hstep)).trans ?_)
      have hwarn : whenS (!t.pwr.throttled) (raise 0x1D12 1 255 0) t =
          if s.pwr.throttled then t else raise 0x1D12 1 255 0 t := by
        change whenS (!s.pwr.throttled) _ t = _
        cases s.pwr.throttled <;> rfl
      rw [← hwarn]
    · refine congrArg (finish s) ((if_neg ?_).trans (if_pos (both_decide hcool hbase)))
      have hnot : ¬ 1400 ≤ s.pwr.temp := by omega
      rw [decide_eq_false hnot]
      exact Bool.false_ne_true
    · refine congrArg (finish s) ((if_neg ?_).trans (if_neg ?_))
      · rw [decide_eq_false (Int.not_le.mpr hbelow)]
        exact Bool.false_ne_true
      · rw [decide_eq_false (Int.not_le.mpr habove)]
        exact Bool.false_ne_true
  · intro t s hhot
    have hexec : exec .thermalFatal s = finish s (thermalFatalFx s) := rfl
    rw [hexec, thermalFatalFx, hhot]
    rfl

end Sys2Proof.Machine
end

section
/-! Proofs. The cold and the warm resets (R110, R392, R395, R396, R408, R414, R435, R450, R451). -/

namespace Sys2Proof.Machine

/-- What a cold reset leaves, with its cause and the wake cause `w`: the reset state but for what lies outside the chip. -/
def coldState (s : State) (cause w : Nat) : State :=
  s.boot.otp.foldl (fun t e => if 0x40200100 ≤ e.1 ∧ e.1 < 0x40200158 then setLv e.1 e.2 t else t)
    (setLv 0x4003001C (wd cause) { State.reset with
      pair.peer := s.pair.peer, host.enumIn := s.host.enumIn, host.low := s.host.low, host.deaf := s.host.low,
      host.phase := 3, mem := s.mem.filter (fun c => 0x50000000 ≤ c.1), free := s.free, pending := s.pending,
      flt.zlog := s.flt.zlog, flt.zNext := s.flt.zNext, flt.zCount := s.flt.zCount, flt.zValid := s.flt.zValid,
      pwr.wakeSrc := w, boot.otp := s.boot.otp })

theorem coldReset_eq (cause : Nat) (s : State) : coldReset cause s = coldState s cause s.pwr.wakeSrc := by
  unfold coldReset foldS
  simp only [isOtp, Bool.and_eq_true, decide_eq_true_eq]
  rfl

theorem resetNFx_eq (s : State) : resetNFx s = coldState s 2 (if s.pwr.sleep = 0 then s.pwr.wakeSrc else 16) := by
  unfold resetNFx wakeNote
  split
  · exact coldReset_eq 2 s
  · exact coldReset_eq 2 { s with pwr.wakeSrc := 16 }

theorem warm_strobeAt : strobeAt 0x40000008 := by
  unfold strobeAt
  decide +kernel

theorem strobe_warm (m : Master) (v : Nat) (s : State) :
    strobe m 0x40000008 v s = if nbit v 0 then warmReset 16 s else s := rfl

/-- Settles O52: a cold reset by its cause, a warm one by its write or by debug. -/
theorem resetCommands : Obligations.ResetCommands := by
  unfold Obligations.ResetCommands
  refine ⟨?_, ?_, fun c s => rfl, ?_⟩
  · intro lost s cold
    refine ⟨congrArg (finish s) ?_, congrArg (finish s) (resetNFx_eq s), congrArg (finish s) (coldReset_eq 4 s),
      congrArg (finish s) (coldReset_eq 8 s)⟩
    rw [powerOnFx, coldReset_eq]
    rfl
  · intro m s
    refine ⟨fun h => congrArg (finish s) ?_, fun h => congrArg (finish s) (if_pos h),
      fun h => congrArg (finish s) (if_neg (by rw [h]; decide))⟩
    rw [writeCmd_strobe h warm_strobeAt, strobe_warm, if_pos (by decide)]
  · intro a
    unfold warmKeeps
    simp only [Bool.or_eq_true, Bool.and_eq_true, beq_iff_eq, decide_eq_true_eq, List.contains_cons, List.contains_nil,
      Bool.or_false, or_assoc]

end Sys2Proof.Machine
end

section
/-! Proofs. Boot, OTP and the flash commands (R414 to R440). -/

namespace Sys2Proof.Machine

/-! ### Sources -/

theorem trySource_eq (x : Source) (s : State) :
    let l := x.bytes.take (imgLen x.bytes)
    let t := srvUp 3 0 l.length (memLoad l s)
    trySource x s = if headCode s x = 0 then (if x.readErr then (1, s) else (tailCode t l, t)) else (headCode s x, s) := by
  unfold trySource
  by_cases h : headCode s x = 0
  · exact (if_neg (by rw [h]; decide)).trans (if_pos h).symm
  · exact (if_pos (bne_iff_ne.mpr h)).trans (if_neg h).symm

theorem commitReq_boot (g k : Nat) (s : State) : (commitReq g k s).boot = s.boot := by
  unfold commitReq whenS
  split <;> rfl

/-- The image applied is the source's, and no stream is awaited. -/
theorem bootApply_boot (n : Nat) (l : List Byte) (s : State) :
    (bootApply n l s).boot.phase = 2 ∧ (bootApply n l s).boot.source = n ∧ (bootApply n l s).boot.wait = false := by
  unfold bootApply
  dsimp only
  rw [commitReq_boot]
  exact ⟨rfl, rfl, rfl⟩

theorem resetReleaseFx_first {vsys us : Nat} {f : FlashIn} {s : State} (h : s.boot.phase = 0) :
    resetReleaseFx vsys us f s =
      let t := flashTake f.cells { s with pwr.vsysBoot := vsys, boot.relLc := s.time.lc }
      bootRun f (atLc (t.time.lc + us * 500) (vsysRead vsys t)) := if_pos h

/-! ### BOOT_DOMAINS_ON -/

/-- Every domain that the plan raises is up. -/
theorem domains_up (s : State) :
    (List.range 15).all (fun d => lf s (domReg d) 0 2 != 3 || domOn s d) = true ↔
      ∀ d < 15, lf s (domReg d) 0 2 = 3 → domOn s d = true := by
  simp only [List.all_eq_true, List.mem_range, Bool.or_eq_true, bne_iff_ne, ← imp_iff_not_or]

/-! ### OTP and flash -/

theorem boot_strobeAt : strobeAt 0x40030014 ∧ strobeAt 0x40200208 ∧ strobeAt 0x40030030 := by
  unfold strobeAt
  decide +kernel

theorem strobe_rbBurn (m : Master) (v : Nat) (s : State) : strobe m 0x40030014 v s = whenS (nbit v 0) (rbBurnFx m) s := rfl
theorem strobe_otpGo (m : Master) (v : Nat) (s : State) : strobe m 0x40200208 v s = whenS (nbit v 0) (otpGo m) s := rfl
theorem strobe_fgo (m : Master) (v : Nat) (s : State) : strobe m 0x40030030 v s = fgoStrobe v s := rfl

/-- OTP bits are programmed when unlocked, by the supervisor or debug, at 3 V or more. -/
theorem otpGo_counted (m : Master) (s : State) :
    let o := lvn s 0x40200200
    otpGo m (counted s) =
      if (lb s 0x40200108 0 = false ∧ (m = .sup ∨ m = .debug)) ∧ 3000 ≤ s.pwr.vsys then
        (if 0x108 ≤ o ∧ o < 0x150 ∧ o % 4 = 0 then { counted s with
          boot.otp := tset 0 s.boot.otp (0x40200000 + o) (tget 0 s.boot.otp (0x40200000 + o) ||| wd (lvn s 0x40200204)) }
        else counted s)
      else srvUp 2 0 1 (violation (masterId m) 0x40200208 (counted s)) := by
  obtain ⟨srv, hs⟩ := counted_withSrv s
  rw [hs]
  unfold otpGo
  simp only [Bool.and_eq_true, Bool.or_eq_true, Bool.not_eq_true', decide_eq_true_eq, and_assoc]
  rfl

/-- A flash command starts unless one runs. -/
theorem fgoOne_counted (rd : Bool) (s : State) :
    fgoOne rd (counted s) = if s.boot.flash = none then
      srvUp 3 1 1 { counted s with boot.flash := some {
        opcode := lf s 0x40030024 0 8, addr := lvn s 0x40030028, len := lf s 0x40030024 16 12,
        buf := lvn s 0x4003002C, read := rd } } else counted s := by
  obtain ⟨srv, hs⟩ := counted_withSrv s
  have hflash : (withSrv srv s).boot.flash = s.boot.flash := rfl
  rw [hs]
  unfold fgoOne
  rw [hflash]
  cases s.boot.flash <;> rfl

theorem inSram_iff (a : Nat) : inSram a = true ↔ 0x100000 ≤ a ∧ a < 0x500000 := by
  unfold inSram
  rw [Bool.and_eq_true, decide_eq_true_eq, decide_eq_true_eq]

/-- Settles O53: the phase opens the boot's steps, the lock, the master and the supply OTP's, BUSY the flash's. -/
theorem bootCommands : Obligations.BootCommands := by
  unfold Obligations.BootCommands
  refine ⟨?_, ?_, ?_, ?_, ?_, ?_, ?_⟩
  · intro v us f s
    exact ⟨fun h => congrArg (finish s) (if_neg h), fun h => congrArg (finish s) (resetReleaseFx_first h)⟩
  · intro x n s l t
    exact ⟨trySource_eq x s, bootApply_boot n l s⟩
  · intro s up pend
    refine ⟨fun hphase hpend hup => ?_, fun h => congrArg (finish s) (if_neg ?_)⟩
    · refine congrArg (finish s) (if_pos ?_)
      rw [hphase, show (tget none s.hub.commits (grpOf s 29)).isNone = true from hpend, (domains_up s).mpr hup]
      rfl
    · rw [Bool.and_eq_true, Bool.and_eq_true, decide_eq_true_eq]
      rintro ⟨⟨hphase, hpend⟩, hup⟩
      rcases h with h | h | h
      · exact h hphase
      · exact absurd (hpend.symm.trans h) (by decide)
      · exact h ((domains_up s).mp hup)
  · intro m s h t
    refine congrArg (finish s) ?_
    rw [writeCmd_strobe h boot_strobeAt.1, strobe_rbBurn, whenS, if_pos (by decide), rbBurnFx, lf_counted]
  · intro m s h o ok
    have hgo : writeCmd m 0x40200208 1 s = otpGo m (counted s) := by
      rw [writeCmd_strobe h boot_strobeAt.2.1, strobe_otpGo, whenS, if_pos (by decide)]
    have hfx := hgo.trans (otpGo_counted m s)
    exact ⟨fun ⟨hlock, hmaster, hsupply⟩ => congrArg (finish s) (hfx.trans (if_pos ⟨⟨hlock, hmaster⟩, hsupply⟩)),
      fun hnot => congrArg (finish s) (hfx.trans (if_neg (fun ⟨⟨hlock, hmaster⟩, hsupply⟩ => hnot ⟨hlock, hmaster, hsupply⟩)))⟩
  · intro m s h cmd go
    refine ⟨congrArg (finish s) ?_, congrArg (finish s) ?_⟩
    · rw [writeCmd_strobe h boot_strobeAt.2.2, strobe_fgo, fgoStrobe, show (wd 1).toNat = 1 from rfl,
        show nbit 1 1 = false by decide, show nbit 1 0 = true by decide]
      exact fgoOne_counted false s
    · rw [writeCmd_strobe h boot_strobeAt.2.2, strobe_fgo, fgoStrobe, show (wd 2).toNat = 2 from rfl,
        show nbit 2 1 = true by decide, show nbit 2 0 = false by decide]
      exact fgoOne_counted true s
  · intro data cells s
    have hexec : exec (.flashCommandDone data cells) s = finish s (flashDoneFx data cells s) := rfl
    rw [hexec, flashDoneFx]
    refine ⟨fun h => ?_, fun c h => ?_⟩
    · rw [h]
      rfl
    · intro s1 d
      rw [h]
      dsimp only
      refine ⟨fun hread => ?_, fun hread => ?_⟩
      · rw [if_neg (by rw [hread]; decide)]
        rfl
      · rw [if_pos hread]
        simp only [inSram_iff]
        rfl

end Sys2Proof.Machine
end

section
/-! Proofs. The fault manager's commands, and where a detected fault goes (R442 to R455). -/

namespace Sys2Proof.Machine

theorem srvUp_withSrv (b i n : Nat) (s : State) : ∃ srv, srvUp b i n s = withSrv srv s := by
  unfold srvUp
  split
  · exact ⟨s.srv, rfl⟩
  · exact ⟨_, rfl⟩

/-! ### RAISE, FLT_ACK, the watchdog and FLOG_CLR -/

theorem raise_word : plainReg 0x40010030 = true ∧
    (rowOf 0x40010030).map (fun r => (r.acc, r.wmask)) = some (.ri, 0xFFFF03FF) ∧ riMulti 0x40010030 = none ∧
    ringWord 0x40010030 = none := by
  decide +kernel

theorem riWrite_raise (m : Master) (v : Word) (wmask : Nat) (s : State) :
    riWrite m 0x40010030 v wmask s = if m = .sup then raiseWr v.toNat s else decodeErr (masterId m) 0x40010030 true s := by
  obtain ⟨_, _, hmulti, hring⟩ := raise_word
  unfold riWrite
  dsimp only
  rw [hmulti]
  dsimp only
  rw [hring]
  rfl

theorem flt_strobeAt : strobeAt 0x4001000C ∧ strobeAt 0x40010044 ∧ strobeAt 0x40200018 := by
  unfold strobeAt
  decide +kernel

theorem strobe_fltAck (m : Master) (v : Nat) (s : State) : strobe m 0x4001000C v s = whenS (nbit v 0) faultAck s := rfl
theorem strobe_wdogKick (m : Master) (v : Nat) (s : State) : strobe m 0x40010044 v s = whenS (nbit v 0) wdogStart s := rfl
theorem strobe_flogClr (m : Master) (v : Nat) (s : State) : strobe m 0x40200018 v s = whenS (nbit v 0) flogClear s := rfl

theorem wdogStart_counted (s : State) : wdogStart (counted s) =
    { counted s with flt.wdogOn := lf s 0x40010040 0 16 != 0, flt.wdogAt := s.time.lc } := by
  obtain ⟨srv, hs⟩ := counted_withSrv s
  rw [hs]
  rfl

theorem faultAck_none {s : State} (h : curClass s = none) : faultAck s = s := by
  unfold faultAck
  rw [h]

/-- The current slot is freed; the head of the queue takes its class's slot unless a record of a slot outranks it. -/
theorem faultAck_some {c : Nat} {s : State} (h : curClass s = some c) :
    let u := setSlot c none s
    faultAck s = match curClass u, s.flt.queue with
      | none, [] => u
      | none, q :: rest => takeSlot q { u with flt.queue := rest }
      | some _, [] => evOr 0x40010004 1 u
      | some k, q :: rest => if q.cls ≤ k then evOr 0x40010004 1 u else takeSlot q { u with flt.queue := rest } := by
  have hq : (setSlot c none s).flt.queue = s.flt.queue := rfl
  unfold faultAck
  rw [h]
  dsimp only
  rw [hq]
  cases curClass (setSlot c none s) <;> cases s.flt.queue <;> rfl

/-! ### Placement -/

theorem takeFault_eq (r : FaultRec) (s : State) :
    let logged := srvUp 32 1 1 { srvUp 1 r.cls 1 s with
      flt.zlog := tset none s.flt.zlog s.flt.zNext (some r), flt.zNext := (s.flt.zNext + 1) % 32,
      flt.zCount := min 32 (s.flt.zCount + 1), flt.zValid := true }
    let s1 := if lf s 0x40200014 0 2 ≤ r.cls then logged else srvUp 1 r.cls 1 s
    let s2 := if lf s1 0x40040010 8 2 ≤ r.cls then evOr 0x4004000C 1 s1 else s1
    takeFault r s = if r.cls = 3 then enterSafe (placeFault r s2) else placeFault r s2 := by
  obtain ⟨srv, hs⟩ := srvUp_withSrv 1 r.cls 1 s
  unfold takeFault hostFault zephyrLog whenS
  rw [hs]
  simp only [decide_eq_true_eq]
  rfl

theorem placeFault_again {r : FaultRec} {s : State} {e : Nat × Option FaultRec}
    (h : s.flt.slots.find? (fun e => (e.2.map (sameFault r)).getD false) = some e) :
    placeFault r s = srvUp 1 4 1 (setSlot e.1 (e.2.map merged) s) := by
  unfold placeFault
  rw [h]

theorem placeFault_new {r : FaultRec} {s : State}
    (h : s.flt.slots.find? (fun e => (e.2.map (sameFault r)).getD false) = none) :
    placeFault r s = if s.flt.queue.any (sameFault r) then
        srvUp 1 4 1 { s with flt.queue := s.flt.queue.map (fun x => if sameFault r x then merged x else x) }
      else match curClass s with
        | none => takeSlot r s
        | some c => if c < r.cls then takeSlot r s else queueJoin r s := by
  unfold placeFault
  rw [h] <;> rfl

/-- A fault that outranks every record in handling takes its slot. -/
theorem placeFault_outranks {r : FaultRec} {s : State}
    (h : s.flt.slots.find? (fun e => (e.2.map (sameFault r)).getD false) = none)
    (hq : s.flt.queue.any (sameFault r) = false) (hout : ∀ c, curClass s = some c → c < r.cls) :
    placeFault r s = takeSlot r s := by
  rw [placeFault_new h, hq, if_neg Bool.false_ne_true]
  cases hc : curClass s with
  | none => rfl
  | some c => exact if_pos (hout c hc)

/-- Any other fault joins the queue. -/
theorem placeFault_queues {r : FaultRec} {s : State} {c : Nat}
    (h : s.flt.slots.find? (fun e => (e.2.map (sameFault r)).getD false) = none)
    (hq : s.flt.queue.any (sameFault r) = false) (hc : curClass s = some c) (hle : r.cls ≤ c) :
    placeFault r s = queueJoin r s := by
  rw [placeFault_new h, hq, if_neg Bool.false_ne_true, hc]
  exact if_neg (Nat.not_lt.mpr hle)

/-- Settles O54: an acknowledgement by the slots and the queue, a fault by the records it meets. -/
theorem faultCommands : Obligations.FaultCommands := by
  unfold Obligations.FaultCommands
  refine ⟨?_, ?_, ?_, takeFault_eq, ?_, fun s => rfl⟩
  · intro m v s h
    obtain ⟨hplain, hrow, _⟩ := raise_word
    have hwrite : writeCmd m 0x40010030 v.toNat s = _ := writeCmd_ri h hplain hrow
    refine congrArg (finish s) ?_
    rw [hwrite, riWrite_raise, raiseWr, lvn_counted]
    rfl
  · intro m s h
    have hack : writeCmd m 0x4001000C 1 s = faultAck (counted s) := by
      rw [writeCmd_strobe h flt_strobeAt.1, strobe_fltAck, whenS, if_pos (by decide)]
    refine ⟨fun hc => congrArg (finish s) (hack.trans (faultAck_none ((curClass_counted s).trans hc))), fun c hc => ?_⟩
    intro u take
    have hflt : (counted s).flt = s.flt := counted_flt s
    have hu : setSlot c none (counted s) = u := by
      change { counted s with flt.slots := tset none (counted s).flt.slots c none } =
        { counted s with flt.slots := tset none s.flt.slots c none }
      rw [hflt]
    refine congrArg (finish s) (hack.trans ((faultAck_some ((curClass_counted s).trans hc)).trans ?_))
    rw [hu, hflt]
    cases curClass u <;> cases s.flt.queue <;> rfl
  · intro s per
    refine ⟨fun hon => congrArg (finish s) (if_pos hon), fun m h => congrArg (finish s) ?_, fun m h => congrArg (finish s) ?_⟩
    · rw [writeCmd_strobe h flt_strobeAt.2.1, strobe_wdogKick, whenS, if_pos (by decide)]
      exact wdogStart_counted s
    · rw [writeCmd_strobe h flt_strobeAt.2.2, strobe_flogClr, whenS, if_pos (by decide)]
      rfl
  · intro r s again
    refine ⟨fun e he => placeFault_again he, fun hnone => ⟨fun hany => ?_, fun hnot => ⟨fun hout => ?_, fun c hc hle => ?_⟩⟩⟩
    · exact (placeFault_new hnone).trans (if_pos hany)
    · exact placeFault_outranks hnone hnot hout
    · intro n t lost
      rw [placeFault_queues hnone hnot hc hle, queueJoin]
      dsimp only
      cases newestLow s.flt.queue <;> rfl

end Sys2Proof.Machine
end

section
/-! Proofs. Per-function reset and the commands of the Survey (R456 to R460, R474 to R479). -/

namespace Sys2Proof.Machine

/-! ### Function resets -/

theorem frst_strobeAt : ∀ r : Fin 3, strobeAt (0x40000100 + 4 * r) := by
  unfold strobeAt
  decide +kernel

theorem strobe_frst (m : Master) (v : Nat) (s : State) (r : Fin 3) :
    strobe m (0x40000100 + 4 * r) v s = frstStrobe r v s := by
  fin_cases r <;> rfl

theorem frstStart_ignored {fn : Nat} {s : State}
    (h : fnOk fn = false ∨ lb s (0x40000110 + fn / 32 * 4) (fn % 32) = true ∨ domOn s (fnDom fn) = false) :
    frstStart fn s = s := by
  refine if_pos ?_
  rw [Bool.or_eq_true, Bool.or_eq_true, Bool.not_eq_true', Bool.not_eq_true', or_assoc]
  exact h

theorem frstStart_begins {fn : Nat} {s : State} (hok : fnOk fn = true)
    (hidle : lb s (0x40000110 + fn / 32 * 4) (fn % 32) = false) (hdom : domOn s (fnDom fn) = true) :
    frstStart fn s = frstBegin fn (evOr (0x40000110 + fn / 32 * 4) (2 ^ (fn % 32)) { s with
      frst.jobs := s.frst.jobs ++ [{ fn := fn, defaults := lb s 0x4000011C 0, start := s.grat.cycle }] }) := by
  refine if_neg ?_
  rw [hok, show fnBusy s fn = false from hidle, hdom]
  decide

theorem drainEndCmd_job {fn : Nat} {j : FrstJob} {s : State} (h : s.frst.jobs.find? (fun j => j.fn == fn) = some j) :
    let s1 := latchClear (fnLatch fn) s
    let s2 := frstLogic fn (if j.defaults then frstDefaults fn s1 else s1)
    drainEndCmd fn s = heldRelease (lvClr (0x40000110 + fn / 32 * 4) (2 ^ (fn % 32)) { s2 with
      frst.jobs := s2.frst.jobs.filter (fun x => x.fn != fn), frst.done := addTo fn s2.frst.done,
      hub.safeUnits := s2.hub.safeUnits.filter (fun u => !(fnUnits fn).contains u) }) := by
  intro s1 s2
  have hany : s.frst.jobs.any (fun j => j.fn == fn) = true := by
    rw [List.any_eq_true]
    exact ⟨j, List.mem_of_find?_eq_some h, List.find?_some (p := fun j : FrstJob => j.fn == fn) h⟩
  refine (if_pos hany).trans ?_
  rw [frstDrainEnd, h]
  rfl

/-! ### Survey actions -/

theorem srvAct_strobeAt : strobeAt 0x401E0018 ∧ strobeAt 0x401E0070 := by
  unfold strobeAt
  decide +kernel

theorem strobe_srvAct (m : Master) (v : Nat) (s : State) : strobe m 0x401E0018 v s = srvActStrobe v s := by
  have hwin : winOf 0x401E0018 = 30 := by decide +kernel
  have hoff : offOf 0x401E0018 = 0x18 := by decide +kernel
  unfold strobe
  dsimp only
  rw [hwin, hoff]
  generalize srvActStrobe v s = t
  rfl
theorem strobe_smpClr (m : Master) (v : Nat) (s : State) : strobe m 0x401E0070 v s = smpClrFx v s := rfl

/-- The requests of ACT in bit order; FREEZE with THAW asks for neither. -/
theorem srvActStrobe_eq (v : Nat) (s : State) : srvActStrobe v s =
    foldS (if (bitsOf 4 v).contains 0 && (bitsOf 4 v).contains 1 then (bitsOf 4 v).filter (fun i => 2 ≤ i)
      else bitsOf 4 v) srvRequest s := rfl

/-- One request alone is never filtered. -/
theorem foldS_requests_single (f : Nat → State → State) {l : List Nat} {i : Nat} (s : State) (hl : l = [i])
    (hone : ([i].contains 0 && [i].contains 1) = false) :
    foldS (if l.contains 0 && l.contains 1 then l.filter (fun i => 2 ≤ i) else l) f s = f i s := by
  rw [hl, hone, if_neg Bool.false_ne_true]
  rfl

theorem bitsOf_wd_two_pow (i : Fin 4) : bitsOf 4 (wd (2 ^ i.val)).toNat = [i.val] := by
  revert i
  decide +kernel

theorem freeze_and_thaw_single (i : Fin 4) : ([i.val].contains 0 && [i.val].contains 1) = false := by
  revert i
  decide +kernel

/-- One bit of ACT requests one action. -/
theorem srvActStrobe_bit (i : Fin 4) (s : State) : srvActStrobe (wd (2 ^ i.val)).toNat s = srvRequest i s :=
  (srvActStrobe_eq _ s).trans (foldS_requests_single srvRequest s (bitsOf_wd_two_pow i) (freeze_and_thaw_single i))

/-- An action is requested for its cycle, or late for the next boundary. -/
theorem srvRequest_counted (i : Nat) (s : State) :
    let at_ := lvn s 0x401E0010 + lvn s 0x401E0014 * 2 ^ 32
    (at_ = 0 ∨ s.grat.nextCycle ≤ at_ →
      srvRequest i (counted s) = { counted s with srv.acts := tset none s.srv.acts i (some at_) }) ∧
    (at_ ≠ 0 → at_ < s.grat.nextCycle →
      srvRequest i (counted s) = { evOr 0x401E0000 2 (counted s) with srv.acts := tset none s.srv.acts i (some 0) }) := by
  intro at_
  obtain ⟨srv, hs⟩ := counted_withSrv s
  have hacts : srv.acts = s.srv.acts := by
    have h : (counted s).srv.acts = s.srv.acts := srvUp_srv_acts 31 0 1 s
    rwa [hs] at h
  rw [hs, ← hacts]
  change (_ → whenS (at_ != 0 && decide (at_ < s.grat.nextCycle)) (evOr srvB 2) { withSrv srv s with
      srv.acts := tset none srv.acts i (some (if at_ != 0 && decide (at_ < s.grat.nextCycle) then 0 else at_)) } = _) ∧
    (_ → _ → whenS (at_ != 0 && decide (at_ < s.grat.nextCycle)) (evOr srvB 2) { withSrv srv s with
      srv.acts := tset none srv.acts i (some (if at_ != 0 && decide (at_ < s.grat.nextCycle) then 0 else at_)) } = _)
  refine ⟨fun hin => ?_, fun hset hlate => ?_⟩
  · have hnot : (at_ != 0 && decide (at_ < s.grat.nextCycle)) = false := by
      rw [Bool.and_eq_false_iff, bne_eq_false_iff_eq, decide_eq_false_iff_not, Nat.not_lt]
      exact hin
    rw [hnot]
    rfl
  · have hyes : (at_ != 0 && decide (at_ < s.grat.nextCycle)) = true := by
      rw [bne_iff_ne.mpr hset, decide_eq_true hlate]
      rfl
    rw [hyes]
    rfl

theorem exec_srvAct {m : Master} {s : State} (h : writes s m 0x401E0018 = true) (i : Fin 4) :
    writeCmd m 0x401E0018 (2 ^ i.val) s = srvRequest i (counted s) := by
  rw [writeCmd_strobe h srvAct_strobeAt.1, strobe_srvAct, srvActStrobe_bit]

/-! ### The copy of a snapshot -/

/-- The two words of a counter. -/
def snapTwo (a v : Nat) : List (Nat × Nat) := [(a, v % 2 ^ 32), (a + 4, v / 2 ^ 32)]

theorem snapWords_eq (s : State) : snapWords s =
    (List.range 264).flatMap (fun i => snapTwo (lvn s 0x401E0028 / 64 * 64 + 8 * i) (tget 0 s.srv.snapCtr i)) ++
      (List.range 264).flatMap (fun i => snapTwo (lvn s 0x401E0028 / 64 * 64 + 0x840 + 8 * i) (tget 0 s.srv.snapCore i)) := rfl

theorem snapWords_mem {i : Nat} (hi : i < 264) (s : State) :
    let at_ := lvn s 0x401E0028 / 64 * 64 + 8 * i
    let c := tget 0 s.srv.snapCtr i
    let k := tget 0 s.srv.snapCore i
    (at_, c % 2 ^ 32) ∈ snapWords s ∧ (at_ + 4, c / 2 ^ 32) ∈ snapWords s ∧
      (at_ + 0x840, k % 2 ^ 32) ∈ snapWords s ∧ (at_ + 0x844, k / 2 ^ 32) ∈ snapWords s := by
  intro at_ c k
  have hlow : ∀ x ∈ snapTwo at_ c, x ∈ snapWords s := fun x hx => by
    rw [snapWords_eq, List.mem_append, List.mem_flatMap]
    exact Or.inl ⟨i, List.mem_range.mpr hi, hx⟩
  have hcore : ∀ x ∈ snapTwo (at_ + 0x840) k, x ∈ snapWords s := fun x hx => by
    rw [snapWords_eq, List.mem_append, List.mem_flatMap, List.mem_flatMap]
    refine Or.inr ⟨i, List.mem_range.mpr hi, ?_⟩
    rwa [Nat.add_right_comm]
  exact ⟨hlow _ List.mem_cons_self, hlow _ (List.mem_cons_of_mem _ List.mem_cons_self), hcore _ List.mem_cons_self,
    hcore _ (List.mem_cons_of_mem _ List.mem_cons_self)⟩

theorem snapTwo_length (l : List Nat) (a b : Nat → Nat) : (l.flatMap (fun i => snapTwo (a i) (b i))).length = 2 * l.length := by
  induction l with
  | nil => rfl
  | cons i l ih =>
    rw [List.flatMap_cons, List.length_append, ih, List.length_cons]
    change 2 + 2 * l.length = _
    omega

theorem snapWords_length (s : State) : (snapWords s).length = 1056 := by
  rw [snapWords_eq, List.length_append, snapTwo_length, snapTwo_length, List.length_range]

theorem snapCopyFx_copy {s : State} (h : s.srv.copy = true) :
    snapCopyFx s = evOr 0x401E0004 1
      { (snapWords s).foldl (fun t e => busWrite .srv e.1 .word e.2 t) s with srv.copy := false } := by
  unfold snapCopyFx
  rw [if_pos h]
  generalize snapWords s = l
  rfl

/-! ### The sampling seed -/

theorem smpSeed_word : plainReg 0x401E0048 = true ∧
    (rowOf 0x401E0048).map (fun r => (r.acc, r.wmask)) = some (.ri, 0xFFFFFFFF) ∧ riMulti 0x401E0048 = none ∧
    ringWord 0x401E0048 = none := by
  decide +kernel

theorem riWrite_smpSeed (m : Master) (v : Word) (wmask : Nat) (s : State) :
    riWrite m 0x401E0048 v wmask s = smpSeedFx v.toNat s := by
  obtain ⟨_, _, hmulti, hring⟩ := smpSeed_word
  unfold riWrite
  dsimp only
  rw [hmulti]
  dsimp only
  rw [hring]
  rfl

/-- Settles O55: a function's start by its bits, its domain and its status; the Survey by its flags. -/
theorem functionResetAndSurveyCommands : Obligations.FunctionResetAndSurveyCommands := by
  unfold Obligations.FunctionResetAndSurveyCommands
  refine ⟨?_, ?_, ?_, ?_, ?_, ?_⟩
  · intro m r v s h
    refine congrArg (finish s) ?_
    rw [writeCmd_strobe h (frst_strobeAt r), strobe_frst, wd_toNat]
    rfl
  · exact fun fn s => ⟨frstStart_ignored, frstStart_begins⟩
  · intro fn j s h s1 s2
    exact congrArg (finish s) (drainEndCmd_job h)
  · intro m s h e he at_
    simp only [List.mem_cons, List.not_mem_nil, or_false] at he
    have hreq := srvRequest_counted e.2 s
    have hexec : exec e.1 s = finish s (srvRequest e.2 (counted s)) := by
      rcases he with rfl | rfl | rfl | rfl
      · exact congrArg (finish s) (exec_srvAct h 0)
      · exact congrArg (finish s) (exec_srvAct h 1)
      · exact congrArg (finish s) (exec_srvAct h 2)
      · exact congrArg (finish s) (exec_srvAct h 3)
    rw [hexec]
    exact ⟨fun hin => congrArg (finish s) (hreq.1 hin), fun hset hlate => congrArg (finish s) (hreq.2 hset hlate)⟩
  · intro s
    exact ⟨fun h => congrArg (finish s) (if_pos h), fun h => congrArg (finish s) (snapCopyFx_copy h),
      fun i hi => snapWords_mem hi s, snapWords_length s⟩
  · intro m v s
    refine ⟨fun h => congrArg (finish s) ?_, fun h => congrArg (finish s) ?_⟩
    · rw [writeCmd_strobe h srvAct_strobeAt.2, strobe_smpClr, wd_toNat]
      rfl
    · obtain ⟨hplain, hrow, _⟩ := smpSeed_word
      rw [writeCmd_ri h hplain hrow, riWrite_smpSeed, smpSeedFx, wd_toNat]
      rfl

end Sys2Proof.Machine
end

section

/-! Proofs. What the work of a cycle boundary leaves of the Graticule: every part of it that follows the strobe keeps
the cycle and the next cycle. One rule per function, in the order of the model; each mirrors the body it speaks of. -/

namespace Sys2Proof.Machine

/-- The cycle and the next cycle of t are those of s. -/
def SameCycle (s t : State) : Prop := t.grat.cycle = s.grat.cycle ∧ t.grat.nextCycle = s.grat.nextCycle

variable {s t : State}

/-! ### Rules of composition -/

theorem SameCycle.of_ite {c : Prop} [Decidable c] {u v : State} (hu : SameCycle s u) (hv : SameCycle s v) :
    SameCycle s (if c then u else v) := by split <;> assumption

/-- A conditional effect on a state. -/
theorem maybe_cycle {c : Prop} [Decidable c] {u : State} (hu : SameCycle s t → SameCycle s u) (h : SameCycle s t) :
    SameCycle s (if c then u else t) := .of_ite (hu h) h

/-- A fold whose accumulator holds a state. -/
theorem foldlProj_cycle {α β : Type} (p : β → State) {f : β → α → β} {l : List α} {b : β}
    (hf : ∀ b a, SameCycle s (p b) → SameCycle s (p (f b a))) (h : SameCycle s (p b)) :
    SameCycle s (p (l.foldl f b)) := by
  induction l generalizing b with
  | nil => exact h
  | cons a l ih => exact ih (hf b a h)

theorem foldl_cycle {α : Type} {f : State → α → State} {l : List α}
    (hf : ∀ t a, SameCycle s t → SameCycle s (f t a)) (h : SameCycle s t) : SameCycle s (l.foldl f t) :=
  foldlProj_cycle id hf h

theorem foldS_cycle {α : Type} {f : α → State → State} {l : List α}
    (hf : ∀ a t, SameCycle s t → SameCycle s (f a t)) (h : SameCycle s t) : SameCycle s (foldS l f t) :=
  foldl_cycle (fun t a => hf a t) h

theorem whenS_cycle {c : Bool} {f : State → State} (hf : ∀ t, SameCycle s t → SameCycle s (f t)) (h : SameCycle s t) :
    SameCycle s (whenS c f t) := .of_ite (hf t h) h

/-- An update of any other fields. -/
theorem upd_cycle {hub : Hub} {flt : Flt} {time : TimeSt} {grat : GratSt} {cmp : CmpSt} {mem : List Host.Cell}
    {eccBad : List Nat} {rdata : List Word} {free : Nat} {mix : MixSt} {eqs : EqsSt} {str : StrSt} {sil : SilSt}
    {core : Tab NCore} {cl : Tab ClusterSt} {sup : SupSt} {pwr : PwrSt} {out : OutSt} {pair : PairSt} {ser : SerSt}
    {swx : SwxSt} {gaz : GazSt} {svb : SvbSt} {boot : BootSt} {host : HostSt} {frst : FrstSt} {srv : SrvSt}
    {pending : List Instr} (h : grat.cycle = s.grat.cycle ∧ grat.nextCycle = s.grat.nextCycle) :
    SameCycle s ⟨hub, flt, time, grat, cmp, mem, eccBad, rdata, free, mix, eqs, str, sil, core, cl, sup, pwr, out,
      pair, ser, swx, gaz, svb, boot, host, frst, srv, pending⟩ := h

/-! ### Registers, memory, faults and Survey -/

theorem setLv_cycle {a : Nat} {v : Word} (h : SameCycle s t) : SameCycle s (setLv a v t) := upd_cycle h
theorem evOr_cycle {a m : Nat} (h : SameCycle s t) : SameCycle s (evOr a m t) := setLv_cycle h
theorem ctrUp_cycle {a lo n : Nat} (h : SameCycle s t) : SameCycle s (ctrUp a lo n t) := .of_ite (setLv_cycle h) h
theorem raise_cycle {code cls inst arg : Nat} (h : SameCycle s t) : SameCycle s (raise code cls inst arg t) :=
  upd_cycle h
theorem busCapture_cycle {base code cls m a info : Nat} (h : SameCycle s t) :
    SameCycle s (busCapture base code cls m a info t) :=
  evOr_cycle (ctrUp_cycle (.of_ite h (raise_cycle (setLv_cycle (setLv_cycle h)))))

theorem srvUp_cycle {b i n : Nat} (h : SameCycle s t) : SameCycle s (srvUp b i n t) := .of_ite h (upd_cycle h)
theorem decodeErr_cycle {m a : Nat} {wr : Bool} (h : SameCycle s t) : SameCycle s (decodeErr m a wr t) :=
  srvUp_cycle (busCapture_cycle h)
theorem setArr_cycle {a : Nat} {v : Word} (h : SameCycle s t) : SameCycle s (setArr a v t) := upd_cycle h
theorem mStore_cycle {a : Nat} {v : Byte} (h : SameCycle s t) : SameCycle s (mStore a v t) := upd_cycle h
theorem mStores_cycle {a : Nat} {l : List Byte} (h : SameCycle s t) : SameCycle s (mStores a l t) := by
  induction l generalizing a t with
  | nil => exact h
  | cons b l ih => exact ih (mStore_cycle h)

theorem mStoreW_cycle {a v : Nat} (h : SameCycle s t) : SameCycle s (mStoreW a v t) := mStores_cycle h
theorem mStoreWs_cycle {a : Nat} {l : List Nat} (h : SameCycle s t) : SameCycle s (mStoreWs a l t) := by
  induction l generalizing a t with
  | nil => exact h
  | cons v l ih => exact ih (mStoreW_cycle h)

theorem corePut_cycle {k : Nat} {c : NCore} (h : SameCycle s t) : SameCycle s (corePut k c t) := upd_cycle h
theorem pendApplyMask_cycle {a : Nat} {m : Word} (h : SameCycle s t) : SameCycle s (pendApplyMask a m t) := by
  unfold pendApplyMask
  split
  · exact h
  · exact .of_ite (upd_cycle (setLv_cycle h)) (setLv_cycle h)

theorem pendApply_cycle {a : Nat} (h : SameCycle s t) : SameCycle s (pendApply a t) := pendApplyMask_cycle h
theorem commitReq_cycle {g at_ : Nat} (h : SameCycle s t) : SameCycle s (commitReq g at_ t) :=
  whenS_cycle (fun _ h => evOr_cycle h) (upd_cycle h)
theorem domPut_cycle {d : Nat} {x : Dom} (h : SameCycle s t) : SameCycle s (domPut d x t) := upd_cycle h
theorem fwErr_cycle {m a : Nat} {wr : Bool} {info : Nat} (h : SameCycle s t) : SameCycle s (fwErr m a wr info t) :=
  srvUp_cycle (busCapture_cycle h)
theorem dmaErr_cycle {a : Nat} {wr : Bool} (h : SameCycle s t) : SameCycle s (dmaErr a wr t) := by
  unfold dmaErr
  split
  · exact fwErr_cycle h
  · exact decodeErr_cycle h

/-! ### Timed events, the common start and Compass -/

theorem tevPut_cycle {n : Nat} {x : Tev} (h : SameCycle s t) : SameCycle s (tevPut n x t) := upd_cycle h
theorem tevBegin_cycle {n : Nat} {c : TevSched} {x : Tev} (h : SameCycle s t) : SameCycle s (tevBegin n c x t) :=
  .of_ite (tevPut_cycle h) (.of_ite (tevPut_cycle h) (evOr_cycle (tevPut_cycle h)))
theorem startLate_cycle {paired : Bool} (h : SameCycle s t) : SameCycle s (startLate paired t) :=
  raise_cycle (evOr_cycle h)
theorem candPut_cycle {n : Nat} {c : Cand} (h : SameCycle s t) : SameCycle s (candPut n c t) := upd_cycle h
theorem showSel_cycle (h : SameCycle s t) : SameCycle s (showSel t) := by
  unfold showSel
  refine maybe_cycle (fun h => ?_) h
  split <;> exact setLv_cycle h

theorem beginSwitch_cycle {n : Nat} (h : SameCycle s t) : SameCycle s (beginSwitch n t) :=
  srvUp_cycle (showSel_cycle (raise_cycle (evOr_cycle (upd_cycle h))))
theorem enterHoldover_cycle (h : SameCycle s t) : SameCycle s (enterHoldover t) :=
  showSel_cycle (raise_cycle (evOr_cycle (upd_cycle h)))
theorem pstepBegin_cycle {v : PstepVal} (h : SameCycle s t) : SameCycle s (pstepBegin v t) :=
  .of_ite (upd_cycle (upd_cycle h)) (upd_cycle (upd_cycle h))
theorem cmpNextWork_cycle (h : SameCycle s t) : SameCycle s (cmpNextWork t) := by
  unfold cmpNextWork
  refine .of_ite h ?_
  split
  · exact pstepBegin_cycle h
  · split
    · exact .of_ite (beginSwitch_cycle (upd_cycle h)) (upd_cycle h)
    · exact h

theorem selCommit_cycle {v : Nat} (h : SameCycle s t) : SameCycle s (selCommit v t) := by
  have hcands {l : List Nat} {c : Nat → State → Cand} :
      SameCycle s (foldS l (fun m t => candPut m (c m t) t) t) := foldS_cycle (fun _ _ h => candPut_cycle h) h
  exact .of_ite h (maybe_cycle (fun _ => .of_ite (upd_cycle hcands)
    (.of_ite hcands (beginSwitch_cycle (maybe_cycle upd_cycle hcands)))) h)

theorem stepAtBoundary_cycle {k : Nat} (h : SameCycle s t) : SameCycle s (stepAtBoundary k t) := by
  unfold stepAtBoundary
  split
  · split
    · exact upd_cycle h
    · refine maybe_cycle (fun h => ?_) h
      split
      · exact upd_cycle h
      · exact maybe_cycle (fun h => cmpNextWork_cycle (whenS_cycle (fun _ h => evOr_cycle h) (upd_cycle h))) h
  · exact h

theorem realignAtBoundary_cycle {k : Nat} {extra : List (Nat × Int)} (h : SameCycle s t) :
    SameCycle s (realignAtBoundary k extra t) := by
  unfold realignAtBoundary
  split
  · dsimp only
    split
    · exact maybe_cycle (fun h => .of_ite (upd_cycle (maybe_cycle upd_cycle h))
        (.of_ite (upd_cycle (maybe_cycle upd_cycle h)) (evOr_cycle (upd_cycle (maybe_cycle upd_cycle h))))) h
    · refine .of_ite h ?_
      split
      · exact maybe_cycle upd_cycle h
      · exact maybe_cycle (fun h => evOr_cycle (upd_cycle h)) h
  · exact h

/-! ### Ingress -/

theorem slotPut_cycle {i : Nat} {x : SlotSt} (h : SameCycle s t) : SameCycle s (slotPut i x t) := upd_cycle h
theorem slotErr_cycle {i lo ev : Nat} (h : SameCycle s t) : SameCycle s (slotErr i lo ev t) :=
  evOr_cycle (ctrUp_cycle (srvUp_cycle h))
theorem arriveLocal_cycle {kind port n : Nat} {row : List Int} (h : SameCycle s t) :
    SameCycle s (arriveLocal kind port n row t) :=
  foldS_cycle (fun _ _ h => .of_ite h (slotPut_cycle h)) h

theorem forgetLocal_cycle {kind port n : Nat} (h : SameCycle s t) : SameCycle s (forgetLocal kind port n t) :=
  foldS_cycle (fun _ _ h => slotPut_cycle h) h
theorem slipSlot_cycle {i k : Nat} {dir : Int} (h : SameCycle s t) : SameCycle s (slipSlot i k dir t) :=
  slotErr_cycle (slotPut_cycle h)
theorem applySlips_cycle {k : Nat} (h : SameCycle s t) : SameCycle s (applySlips k t).1 :=
  foldS_cycle (fun _ _ h => slipSlot_cycle h) h
theorem putInput_cycle {i c : Nat} {x : List Int} {mute conc : Bool} (h : SameCycle s t) :
    SameCycle s (putInput i c x mute conc t) :=
  upd_cycle h

theorem presentSlot_cycle {k : Nat} {conceal : Bool} {i : Nat} (h : SameCycle s t) :
    SameCycle s (presentSlot k conceal i t) := by
  unfold presentSlot
  extract_lets x sN nch cmode keep keepF vs put
  have hput {rows : List (List Int)} {mutes concs : Nat} {t : State} (h : SameCycle s t) :
      SameCycle s (put rows mutes concs t) := foldl_cycle (fun _ _ h => putInput_cycle h) h
  refine .of_ite h (.of_ite (foldl_cycle (fun _ _ h => upd_cycle h) (slotPut_cycle h)) (.of_ite ?_ ?_))
  · exact hput (srvUp_cycle (evOr_cycle (setLv_cycle (slotPut_cycle h))))
  · split
    · exact slotPut_cycle h
    · exact hput (srvUp_cycle (slotPut_cycle h))

theorem slotStart_cycle {i : Nat} (h : SameCycle s t) : SameCycle s (slotStart i t) := maybe_cycle slotPut_cycle h
theorem ingressRelease_cycle {k : Nat} (h : SameCycle s t) : SameCycle s (ingressRelease k t) :=
  foldS_cycle (fun _ _ h => presentSlot_cycle h) (foldS_cycle (fun _ _ h => slotStart_cycle h) (upd_cycle h))
theorem ingressDiscard_cycle {k : Nat} (h : SameCycle s t) : SameCycle s (ingressDiscard k t) :=
  foldS_cycle (fun _ _ h => slotPut_cycle h) h

/-! ### The matrix and egress -/

theorem xpTake_cycle {k idx : Nat} (h : SameCycle s t) : SameCycle s (xpTake k idx t) := .of_ite h (upd_cycle h)
theorem matrixRun_cycle {k : Nat} (h : SameCycle s t) : SameCycle s (matrixRun k t) :=
  foldS_cycle (fun _ _ h => .of_ite (upd_cycle h) (srvUp_cycle (evOr_cycle (setLv_cycle (upd_cycle h))))) (upd_cycle
    h)

theorem outcfgCommit_cycle {k o old new : Nat} (h : SameCycle s t) : SameCycle s (outcfgCommit k o old new t) :=
  .of_ite h (upd_cycle h)
theorem fadeBegin_cycle {k d w : Nat} (h : SameCycle s t) : SameCycle s (fadeBegin k d w t) := upd_cycle h
theorem egrCommit_cycle {k d w : Nat} (h : SameCycle s t) : SameCycle s (egrCommit k d w t) := by
  unfold egrCommit
  extract_lets e
  have hfade : SameCycle s (if w = e.cur then t else fadeBegin k d w t) := .of_ite h (fadeBegin_cycle h)
  split
  · exact .of_ite (whenS_cycle (fun _ h => evOr_cycle h) (upd_cycle h)) hfade
  · exact hfade

theorem egrAdvance_cycle {k : Nat} (h : SameCycle s t) : SameCycle s (egrAdvance k t) := by
  refine foldS_cycle (fun _ _ h => ?_) h
  split
  · exact maybe_cycle (fun h => .of_ite (fadeBegin_cycle (upd_cycle h)) (upd_cycle h)) h
  · exact h

/-! ### The EQ engine, the steering unit and the silence detector -/

theorem chainPut_cycle {c : Nat} {x : ChainSt} (h : SameCycle s t) : SameCycle s (chainPut c x t) := upd_cycle h
theorem sosLoad_cycle {n : Nat} {ws : List Word} (h : SameCycle s t) : SameCycle s (sosLoad n ws t) :=
  foldS_cycle (fun _ _ h => setArr_cycle h) h
theorem chainSample_cycle {sN j first n : Nat} {x : Int} {sat : Nat} (h : SameCycle s t) :
    SameCycle s (chainSample sN j first n x t sat).2.1 := by
  induction n generalizing first x t sat with
  | zero => exact h
  | succ n ih => exact ih (upd_cycle h)

theorem chainRow_cycle {c : Nat} (h : SameCycle s t) : SameCycle s (chainRow c t).2.1 := by
  unfold chainRow
  extract_lets row
  split
  · exact h
  · exact foldlProj_cycle (fun r : List Int × State × Nat => r.2.1) (fun _ _ h => chainSample_cycle h) h

theorem chainRun_cycle {c : Nat} (h : SameCycle s t) : SameCycle s (chainRun c t) := by
  unfold chainRun
  extract_lets x sN run r row a _ _ s1 s2
  refine .of_ite h (.of_ite (.of_ite (chainPut_cycle h) (chainPut_cycle h)) ?_)
  have h1 : SameCycle s s1 := upd_cycle (chainRow_cycle h)
  have h2 : SameCycle s s2 := .of_ite h1 (srvUp_cycle (evOr_cycle (setLv_cycle h1)))
  exact .of_ite (chainPut_cycle h2) (chainPut_cycle h2)

theorem chainStart_cycle {c : Nat} (h : SameCycle s t) : SameCycle s (chainStart c t) :=
  chainPut_cycle (.of_ite (chainPut_cycle h) (foldS_cycle (fun _ _ h => upd_cycle h) (chainPut_cycle h)))
theorem sosCommit_cycle {secs : List Nat} (h : SameCycle s t) : SameCycle s (sosCommit secs t) :=
  foldS_cycle (fun _ _ h => .of_ite (upd_cycle h) (sosLoad_cycle (upd_cycle h))) h
theorem chainCross_cycle {c : Nat} (h : SameCycle s t) : SameCycle s (chainCross c t) := by
  refine chainPut_cycle (foldS_cycle (fun _ _ h => ?_) h)
  split
  · exact sosLoad_cycle (upd_cycle h)
  · exact h

theorem crossovers_cycle (h : SameCycle s t) : SameCycle s (crossovers t) := by
  refine foldlProj_cycle (fun r : State × Nat => r.1) (fun _ _ h => ?_) (upd_cycle h)
  dsimp only
  split
  · exact chainCross_cycle h
  · exact evOr_cycle (chainPut_cycle h)

theorem dueAtOnce_cycle (h : SameCycle s t) : SameCycle s (dueAtOnce t) := by
  refine foldS_cycle (fun _ _ h => ?_) (upd_cycle h)
  split
  · exact sosLoad_cycle h
  · exact h

theorem eqRun_cycle (h : SameCycle s t) : SameCycle s (eqRun t) :=
  foldS_cycle (fun _ _ h => chainRun_cycle h) (crossovers_cycle (upd_cycle h))
theorem eqsReset_cycle (h : SameCycle s t) : SameCycle s (eqsReset t) :=
  foldS_cycle (fun _ _ h => maybe_cycle (fun h => chainStart_cycle (chainPut_cycle h)) h) (dueAtOnce_cycle (upd_cycle
    h))

theorem linePut_cycle {l : Nat} {x : LineSt} (h : SameCycle s t) : SameCycle s (linePut l x t) := upd_cycle h
theorem ringWrite_cycle {l m : Nat} {v : Int} (h : SameCycle s t) : SameCycle s (ringWrite l m v t) :=
  .of_ite h (mStoreW_cycle h)
theorem ringClear_cycle {l : Nat} (h : SameCycle s t) : SameCycle s (ringClear l t) := upd_cycle h
theorem lineRun_cycle {k l : Nat} (h : SameCycle s t) : SameCycle s (lineRun k l t) := by
  refine .of_ite h (.of_ite (linePut_cycle h) ?_)
  exact whenS_cycle (fun _ h => evOr_cycle h) (linePut_cycle (upd_cycle (foldl_cycle (fun _ _ h => .of_ite h
    (ringWrite_cycle h)) h)))

theorem lineStart_cycle {k l : Nat} (h : SameCycle s t) : SameCycle s (lineStart k l t) :=
  ringClear_cycle (linePut_cycle h)
theorem lineCommit_cycle {k l oldCfg : Nat} (h : SameCycle s t) : SameCycle s (lineCommit k l oldCfg t) :=
  .of_ite (lineStart_cycle h) (.of_ite (linePut_cycle h) (.of_ite (linePut_cycle h) (linePut_cycle h)))
theorem strRun_cycle {k : Nat} (h : SameCycle s t) : SameCycle s (strRun k t) :=
  foldS_cycle (fun _ _ h => lineRun_cycle h) (upd_cycle h)
theorem strReset_cycle {k : Nat} (h : SameCycle s t) : SameCycle s (strReset k t) :=
  foldS_cycle (fun _ _ h => .of_ite (lineStart_cycle h) (linePut_cycle h)) (upd_cycle h)
theorem grpPut_cycle {g : Nat} {x : SilGrp} (h : SameCycle s t) : SameCycle s (grpPut g x t) := upd_cycle h
theorem grpCommit_cycle {g : Nat} (h : SameCycle s t) : SameCycle s (grpCommit g t) :=
  .of_ite (grpPut_cycle h) (.of_ite (evOr_cycle (ctrUp_cycle (grpPut_cycle h))) (grpPut_cycle h))
theorem grpStep_cycle {k g : Nat} (h : SameCycle s t) : SameCycle s (grpStep k g t) := by
  unfold grpStep
  extract_lets x silent
  split
  · exact maybe_cycle grpPut_cycle h
  · exact .of_ite (grpPut_cycle h) (grpPut_cycle h)
  · exact maybe_cycle (fun h => srvUp_cycle (evOr_cycle (ctrUp_cycle (grpPut_cycle h)))) h
  · exact h

theorem silBuses_cycle {k : Nat} (h : SameCycle s t) : SameCycle s (silBuses k t) :=
  foldS_cycle (fun _ _ h => .of_ite h (upd_cycle h)) h
theorem silMute_cycle (h : SameCycle s t) : SameCycle s (silMute t) := .of_ite h (upd_cycle h)
theorem silRun_cycle {k : Nat} (h : SameCycle s t) : SameCycle s (silRun k t) :=
  silMute_cycle (foldS_cycle (fun _ _ h => grpStep_cycle h) (silBuses_cycle h))

/-! ### Clusters -/

theorem clPut_cycle {c : Nat} {x : ClusterSt} (h : SameCycle s t) : SameCycle s (clPut c x t) := upd_cycle h
theorem clEvent_cycle {c bitNo : Nat} (h : SameCycle s t) : SameCycle s (clEvent c bitNo t) := evOr_cycle h
theorem semLoseCore_cycle {c j : Nat} (h : SameCycle s t) : SameCycle s (semLoseCore c j t) :=
  foldl_cycle (fun _ _ h => ctrUp_cycle h) (clPut_cycle h)
theorem excRecord_cycle {k code : Nat} (h : SameCycle s t) : SameCycle s (excRecord k code t) :=
  evOr_cycle (maybe_cycle corePut_cycle h)
theorem coreOverrun_cycle {k : Nat} (h : SameCycle s t) : SameCycle s (coreOverrun k t) :=
  raise_cycle (upd_cycle (semLoseCore_cycle (whenS_cycle (fun _ h => clEvent_cycle h) (whenS_cycle (fun _ h =>
    clEvent_cycle h)
    (clEvent_cycle (ctrUp_cycle (corePut_cycle (excRecord_cycle (srvUp_cycle h)))))))))

theorem coreStart_cycle {k0 k : Nat} (h : SameCycle s t) : SameCycle s (coreStart k0 k t) := corePut_cycle h
theorem clusterStart_cycle {k c : Nat} (h : SameCycle s t) : SameCycle s (clusterStart k c t) :=
  foldS_cycle (fun _ _ h => coreStart_cycle h) (clPut_cycle h)
theorem clusterStop_cycle {c : Nat} (h : SameCycle s t) : SameCycle s (clusterStop c t) :=
  foldS_cycle (fun _ _ h => semLoseCore_cycle (corePut_cycle h)) (clPut_cycle h)
theorem gateStep_cycle {c : Nat} (h : SameCycle s t) : SameCycle s (gateStep c t) :=
  .of_ite (foldS_cycle (fun _ _ h => corePut_cycle h) (clEvent_cycle (evOr_cycle (upd_cycle h))))
    (maybe_cycle (fun h => foldS_cycle (fun _ _ h => maybe_cycle corePut_cycle h) (upd_cycle h)) h)

theorem streamOut_cycle {k c : Nat} {muted : Bool} {x : StreamE} (h : SameCycle s t) :
    SameCycle s (streamOut k c muted x t) :=
  .of_ite h (.of_ite (raise_cycle (upd_cycle h)) (foldS_cycle (fun _ _ h => upd_cycle h) h))

theorem streamIn_cycle {c : Nat} {x : StreamE} (h : SameCycle s t) : SameCycle s (streamIn c x t) :=
  foldS_cycle (fun _ _ h => foldS_cycle (fun _ _ h => .of_ite (raise_cycle (mStoreW_cycle (upd_cycle h)))
    (mStoreW_cycle h)) h) h

theorem clusterReserve_cycle {k c : Nat} (h : SameCycle s t) : SameCycle s (clusterReserve k c t) :=
  .of_ite h (.of_ite (clPut_cycle h) (clPut_cycle (foldS_cycle (fun _ _ h => streamIn_cycle h) (foldS_cycle (fun _ _
    h => streamOut_cycle h)
    (whenS_cycle (fun _ h => upd_cycle h) h)))))

theorem clusterOverruns_cycle {c : Nat} (h : SameCycle s t) : SameCycle s (clusterOverruns c t) :=
  .of_ite h (foldS_cycle (fun _ _ h => .of_ite (coreOverrun_cycle h) (corePut_cycle h)) h)
theorem clusterCommit_cycle {k c : Nat} {oldRun startWritten : Bool} (h : SameCycle s t) :
    SameCycle s (clusterCommit k c oldRun startWritten t) :=
  .of_ite h (.of_ite (clusterStart_cycle h) (.of_ite (clusterStop_cycle (upd_cycle h))
    (maybe_cycle (fun h => foldS_cycle (fun _ _ h => coreStart_cycle h) h) h)))

/-! ### Output channels -/

theorem outPut_cycle {n : Nat} {x : OutCh} (h : SameCycle s t) : SameCycle s (outPut n x t) := upd_cycle h
theorem outEvent_cycle {n i : Nat} (h : SameCycle s t) : SameCycle s (outEvent n i t) := evOr_cycle h
theorem outEnter_cycle {k n st : Nat} (h : SameCycle s t) : SameCycle s (outEnter k n st t) :=
  outEvent_cycle (outPut_cycle h)
theorem outToOff_cycle {k n : Nat} (h : SameCycle s t) : SameCycle s (outToOff k n t) :=
  pendApplyMask_cycle (pendApply_cycle (pendApply_cycle (pendApply_cycle (outPut_cycle (outEnter_cycle h)))))
theorem outLeaveOff_cycle {k n : Nat} (h : SameCycle s t) : SameCycle s (outLeaveOff k n t) := outPut_cycle h
theorem outSoftStart_cycle {k n : Nat} (h : SameCycle s t) : SameCycle s (outSoftStart k n t) :=
  outEnter_cycle (outPut_cycle h)
theorem outSleep_cycle {k n : Nat} (h : SameCycle s t) : SameCycle s (outSleep k n t) :=
  outEnter_cycle (outPut_cycle h)
theorem outStopping_cycle {k n : Nat} (h : SameCycle s t) : SameCycle s (outStopping k n t) :=
  outPut_cycle (outEnter_cycle (outPut_cycle h))
theorem outLatchOff_cycle {k n res : Nat} (h : SameCycle s t) : SameCycle s (outLatchOff k n res t) :=
  outEvent_cycle (outPut_cycle (outEnter_cycle h))
theorem outShortHold_cycle {k n : Nat} (h : SameCycle s t) : SameCycle s (outShortHold k n t) := outEnter_cycle h
theorem outTripped_cycle {k n : Nat} (h : SameCycle s t) : SameCycle s (outTripped k n t) :=
  .of_ite (outShortHold_cycle h) (.of_ite (outPut_cycle (outToOff_cycle h)) (maybe_cycle (fun h => raise_cycle
    (outLatchOff_cycle h)) h))

theorem localTripRelease_cycle {k : Nat} (h : SameCycle s t) : SameCycle s (localTripRelease k t) :=
  upd_cycle (foldS_cycle (fun _ _ h => .of_ite h (outEvent_cycle (outPut_cycle h))) h)
theorem outRest_cycle {k n : Nat} (h : SameCycle s t) : SameCycle s (outRest k n t) :=
  .of_ite (.of_ite (outEnter_cycle (outLeaveOff_cycle h)) (outSoftStart_cycle (outLeaveOff_cycle h)))
    (.of_ite (outSleep_cycle h) (maybe_cycle outSoftStart_cycle h))

theorem outStep1_cycle {k n : Nat} (h : SameCycle s t) : SameCycle s (outStep1 k n t) :=
  .of_ite h (.of_ite (outPut_cycle (outEnter_cycle h)) (.of_ite (outLatchOff_cycle h) (.of_ite (outEvent_cycle
    (outPut_cycle (outEnter_cycle h)))
    (.of_ite (outTripped_cycle h) (.of_ite (outStopping_cycle h) (outRest_cycle h))))))

theorem diagBatch_cycle {k : Nat} (h : SameCycle s t) : SameCycle s (diagBatch k t) :=
  foldS_cycle (fun _ _ h => outEnter_cycle h) h
theorem outStep_cycle {k : Nat} (h : SameCycle s t) : SameCycle s (outStep k t) :=
  diagBatch_cycle (maybe_cycle (fun h => evOr_cycle (upd_cycle h)) (foldS_cycle (fun _ _ h => outStep1_cycle h)
    (localTripRelease_cycle h)))

theorem outPass_cycle {k n : Nat} (h : SameCycle s t) : SameCycle s (outPass k n t) :=
  foldS_cycle (fun _ _ h => ctrUp_cycle h) (srvUp_cycle (outPut_cycle h))
theorem outCommands_cycle {k : Nat} {written : List Nat} (h : SameCycle s t) :
    SameCycle s (outCommands k written t) :=
  foldS_cycle (fun _ _ h => maybe_cycle (fun h => maybe_cycle outPut_cycle (maybe_cycle (fun h => outToOff_cycle
    (outPut_cycle h)) h)) h) (maybe_cycle upd_cycle h)

theorem outBaseCommit_cycle {written : List Nat} (h : SameCycle s t) : SameCycle s (outBaseCommit written t) :=
  foldS_cycle (fun _ _ h => maybe_cycle outPut_cycle h) h
theorem senseFor_cycle {k : Nat} (h : SameCycle s t) : SameCycle s (senseFor k t).2 := by
  unfold senseFor
  split
  · exact h
  · split
    · exact h
    · split
      · exact upd_cycle h
      · exact whenS_cycle (fun _ h => raise_cycle h) (upd_cycle (ctrUp_cycle h))

theorem adapt1_cycle {n j : Nat} (h : SameCycle s t) : SameCycle s (adapt1 n j t) :=
  .of_ite (raise_cycle (outEvent_cycle (evOr_cycle (outPut_cycle (setLv_cycle h))))) (.of_ite (evOr_cycle
    (setLv_cycle h)) (outPut_cycle (setLv_cycle h)))

theorem thermalRun_cycle {n : Nat} {r : SenseRow} (h : SameCycle s t) : SameCycle s (thermalRun n r t) :=
  .of_ite (outPut_cycle h) (.of_ite h (outPut_cycle h))
theorem excursionRun_cycle {n : Nat} (h : SameCycle s t) : SameCycle s (excursionRun n t) :=
  .of_ite (maybe_cycle (fun h => adapt1_cycle (adapt1_cycle h)) (outPut_cycle h)) (.of_ite h (outPut_cycle h))
theorem outRun_cycle {k : Nat} {sense : List SenseIn} (h : SameCycle s t) : SameCycle s (outRun k sense t) :=
  foldS_cycle (fun _ _ h => .of_ite h (srvUp_cycle (srvUp_cycle (outPass_cycle (excursionRun_cycle (thermalRun_cycle
    h))))))
    (upd_cycle (senseFor_cycle (foldS_cycle (fun _ _ h => outPut_cycle h) (upd_cycle (srvUp_cycle (srvUp_cycle h))))))

/-! ### Serial ports -/

theorem tdmPut_cycle {n : Nat} {x : TdmPort} (h : SameCycle s t) : SameCycle s (tdmPut n x t) := upd_cycle h
theorem rxPut_cycle {r : Nat} {x : AesRx} (h : SameCycle s t) : SameCycle s (rxPut r x t) := upd_cycle h
theorem txPut_cycle {n : Nat} {x : AesTx} (h : SameCycle s t) : SameCycle s (txPut n x t) := upd_cycle h
theorem tdmStart_cycle {k n : Nat} (h : SameCycle s t) : SameCycle s (tdmStart k n t) :=
  tdmPut_cycle (pendApply_cycle (pendApply_cycle h))
theorem tdmHalt_cycle {n : Nat} (h : SameCycle s t) : SameCycle s (tdmHalt n t) := tdmPut_cycle h
theorem tdmBoundary_cycle {k : Nat} {common : Bool} {n : Nat} (h : SameCycle s t) :
    SameCycle s (tdmBoundary k common n t) :=
  .of_ite (maybe_cycle tdmHalt_cycle h) (.of_ite (.of_ite (tdmPut_cycle h) (tdmStart_cycle h)) (.of_ite (tdmPut_cycle
    h)
    (.of_ite (.of_ite (ctrUp_cycle (tdmPut_cycle h)) (tdmPut_cycle h)) (maybe_cycle tdmPut_cycle h))))

theorem tdmMaskCommit_cycle {k n : Nat} (h : SameCycle s t) : SameCycle s (tdmMaskCommit k n t) :=
  maybe_cycle tdmPut_cycle h
theorem rxBoundary_cycle {k r : Nat} (h : SameCycle s t) : SameCycle s (rxBoundary k r t) :=
  .of_ite (maybe_cycle rxPut_cycle h) (whenS_cycle (fun _ h => ctrUp_cycle h) (rxPut_cycle h))
theorem slipsEvaluate_cycle (h : SameCycle s t) : SameCycle s (slipsEvaluate t) := upd_cycle h
theorem portSlip_cycle {q : Nat} {dir : Int} (h : SameCycle s t) : SameCycle s (portSlip q dir t) := by
  unfold portSlip
  refine .of_ite ?_ ?_
  · extract_lets x s1
    have h1 : SameCycle s s1 := srvUp_cycle (evOr_cycle (tdmPut_cycle h))
    refine .of_ite ?_ (forgetLocal_cycle (tdmPut_cycle h1))
    split
    · exact arriveLocal_cycle (tdmPut_cycle h1)
    · exact h1
  · extract_lets r x s1
    have h1 : SameCycle s s1 := evOr_cycle h
    refine .of_ite ?_ (forgetLocal_cycle (rxPut_cycle h1))
    split
    · exact arriveLocal_cycle (rxPut_cycle h1)
    · exact h1

theorem slipsRun_cycle {k : Nat} (h : SameCycle s t) : SameCycle s (slipsRun k t) :=
  foldS_cycle (fun _ _ h => portSlip_cycle h) (applySlips_cycle (slipsEvaluate_cycle h))
theorem txBoundary_cycle {k : Nat} {common : Bool} {x : Nat} (h : SameCycle s t) :
    SameCycle s (txBoundary k common x t) :=
  .of_ite (maybe_cycle txPut_cycle h) (.of_ite (.of_ite (txPut_cycle h) (txPut_cycle h)) (.of_ite (txPut_cycle h)
    (.of_ite (txPut_cycle h)
    (maybe_cycle txPut_cycle h))))

theorem fracIn_cycle {l : List (Fin 12 × BitVec 8)} (h : SameCycle s t) : SameCycle s (fracIn l t) :=
  foldS_cycle (fun _ _ h => .of_ite (tdmPut_cycle h) (rxPut_cycle h)) h
theorem serialBoundary_cycle {k common : Nat} (h : SameCycle s t) : SameCycle s (serialBoundary k common t) :=
  foldS_cycle (fun _ _ h => rxBoundary_cycle h) (foldS_cycle (fun _ _ h => txBoundary_cycle h) (foldS_cycle (fun _ _
    h => tdmBoundary_cycle h) h))

/-! ### Fabric ports and flows -/

theorem prtPut_cycle {p : Nat} {x : PortSt} (h : SameCycle s t) : SameCycle s (prtPut p x t) := upd_cycle h
theorem prtCnt_cycle {p i : Nat} (h : SameCycle s t) : SameCycle s (prtCnt p i t) := ctrUp_cycle h
theorem prtEvent_cycle {p i : Nat} (h : SameCycle s t) : SameCycle s (prtEvent p i t) := evOr_cycle h
theorem prtRaise_cycle {p ev cls : Nat} (h : SameCycle s t) : SameCycle s (prtRaise p ev cls t) := raise_cycle h
theorem txOwn_cycle {p c : Nat} {f : TxFrame} (h : SameCycle s t) : SameCycle s (txOwn p c f t) :=
  .of_ite h (.of_ite (prtPut_cycle h) (prtPut_cycle h))
theorem txAdmit_cycle {p : Nat} (h : SameCycle s t) : SameCycle s (txAdmit p t) := prtPut_cycle h
theorem dropStale_cycle {k p : Nat} (h : SameCycle s t) : SameCycle s (dropStale k p t) :=
  .of_ite h (foldS_cycle (fun _ _ h => prtCnt_cycle h) (txAdmit_cycle (prtPut_cycle h)))
theorem linkBoundary_cycle {p : Nat} (h : SameCycle s t) : SameCycle s (linkBoundary p t) :=
  maybe_cycle (fun h => prtRaise_cycle (prtEvent_cycle (prtPut_cycle h))) h
theorem linkDrop_cycle {p : Nat} (h : SameCycle s t) : SameCycle s (linkDrop p t) :=
  maybe_cycle (fun h => .of_ite (prtRaise_cycle (prtEvent_cycle (prtPut_cycle h))) (prtPut_cycle h)) h
theorem flowPut_cycle {x : Nat} {f : FlowSt} (h : SameCycle s t) : SameCycle s (flowPut x f t) := upd_cycle h
theorem flowSend_cycle {k : Nat} {m : SendMode} {x : Nat} (h : SameCycle s t) : SameCycle s (flowSend k m x t) := by
  unfold flowSend
  extract_lets e base chans rows due count
  have hcount {n : Nat} {t : State} (h : SameCycle s t) : SameCycle s (count n t) :=
    whenS_cycle (fun _ h => evOr_cycle h) (flowPut_cycle h)
  exact .of_ite (.of_ite (flowPut_cycle h) (foldS_cycle (fun _ _ h => txOwn_cycle h) (hcount (flowPut_cycle h))))
    (.of_ite h (foldS_cycle (fun _ _ h => txOwn_cycle h) (hcount h)))

theorem flowsSend_cycle {k : Nat} {m : SendMode} (h : SameCycle s t) : SameCycle s (flowsSend k m t) :=
  foldS_cycle (fun _ _ h => flowSend_cycle h) h
theorem flowCommit_cycle {x oldW0 : Nat} (h : SameCycle s t) : SameCycle s (flowCommit x oldW0 t) :=
  maybe_cycle (fun h => upd_cycle (flowPut_cycle h)) h

/-! ### The database and policy of the Gazetteer -/

theorem adjPut_cycle {p : Nat} {x : AdjSt} (h : SameCycle s t) : SameCycle s (adjPut p x t) := upd_cycle h
theorem dbImage_cycle {r : DbRec} (h : SameCycle s t) : SameCycle s (dbImage r t) :=
  whenS_cycle (fun _ h => mStores_cycle h) (mStores_cycle h)
theorem dbUnmap_cycle {r : DbRec} (h : SameCycle s t) : SameCycle s (dbUnmap r t) :=
  whenS_cycle (fun _ h => mStores_cycle h) h
theorem dbCount_cycle (h : SameCycle s t) : SameCycle s (dbCount t) := setLv_cycle h
theorem dbFlood_cycle {ports : List Nat} {first : Bool} {r : DbRec} (h : SameCycle s t) :
    SameCycle s (dbFlood ports first r t) :=
  foldS_cycle (fun _ _ h => upd_cycle h) h

theorem dbStore_cycle {r : DbRec} {except : Option Nat} (h : SameCycle s t) : SameCycle s (dbStore r except t) := by
  unfold dbStore
  dsimp only
  split
  · exact raise_cycle h
  · refine dbFlood_cycle (dbCount_cycle (dbImage_cycle (upd_cycle ?_)))
    split
    · exact dbUnmap_cycle h
    · exact h

theorem originate_cycle {r : DbRec} (h : SameCycle s t) : SameCycle s (originate r t) := by
  unfold originate
  split
  · exact .of_ite h (dbStore_cycle h)
  · exact dbStore_cycle h

theorem zoneGive_cycle {key : Nat} (h : SameCycle s t) : SameCycle s (zoneGive key t) := by
  unfold zoneGive
  dsimp only
  split
  · split
    · exact originate_cycle h
    · refine .of_ite ?_ (.of_ite (originate_cycle (originate_cycle h)) (originate_cycle h))
      split
      · exact originate_cycle (originate_cycle (originate_cycle h))
      · exact originate_cycle (originate_cycle h)
  · split
    · exact h
    · split
      · exact originate_cycle h
      · exact h

theorem bindGive_cycle {z : Nat} {n : DbRec} (h : SameCycle s t) : SameCycle s (bindGive z n t) := by
  unfold bindGive
  dsimp only
  split
  · exact .of_ite (originate_cycle h) (.of_ite h (originate_cycle h))
  · split
    · exact .of_ite h (originate_cycle h)
    · exact h

theorem policyErr_cycle {code : Nat} {on : Bool} (h : SameCycle s t) : SameCycle s (policyErr code on t) :=
  .of_ite (.of_ite h (raise_cycle (upd_cycle h))) (upd_cycle h)
theorem takeAddr_cycle (h : SameCycle s t) : SameCycle s (takeAddr t) := by
  refine policyErr_cycle (policyErr_cycle (policyErr_cycle ?_))
  split <;> exact setLv_cycle h

theorem policyUpdate_cycle (h : SameCycle s t) : SameCycle s (policyUpdate t) := by
  refine maybe_cycle (fun h => ?_) h
  extract_lets s1 s2 s3 s4
  have h1 : SameCycle s s1 := originate_cycle h
  have h2 : SameCycle s s2 := maybe_cycle (fun h => foldS_cycle (fun _ _ h => zoneGive_cycle h) h) h1
  have h3 : SameCycle s s3 := by
    refine maybe_cycle (fun h => ?_) h2
    split
    · exact maybe_cycle (fun h => foldS_cycle (fun _ _ h => bindGive_cycle h) h) h
    · exact h
  exact originate_cycle (takeAddr_cycle h3)

theorem helloSend_cycle {p : Nat} (h : SameCycle s t) : SameCycle s (helloSend p t) := by
  unfold helloSend
  extract_lets b armed q buf
  split
  · exact h
  · extract_lets ok recs s1 f _ s2
    have h1 : SameCycle s s1 := maybe_cycle dmaErr_cycle h
    have h2 : SameCycle s s2 := .of_ite (whenS_cycle (fun _ h => evOr_cycle h) (setLv_cycle (setLv_cycle h1)))
      (maybe_cycle (fun h => whenS_cycle (fun _ h => evOr_cycle h) (upd_cycle h)) h1)
    exact srvUp_cycle (srvUp_cycle (txOwn_cycle (ctrUp_cycle h2)))

theorem helloRun_cycle {k : Nat} (h : SameCycle s t) : SameCycle s (helloRun k t) :=
  maybe_cycle (fun h => foldS_cycle (fun _ _ h => maybe_cycle helloSend_cycle h) h) h

/-! ### Reservations and adjacencies -/

theorem adjChg_cycle (h : SameCycle s t) : SameCycle s (adjChg t) := evOr_cycle h
theorem adjDrop_cycle {p : Nat} (h : SameCycle s t) : SameCycle s (adjDrop p t) :=
  .of_ite h (upd_cycle (ctrUp_cycle (whenS_cycle (fun _ h => raise_cycle h) (adjChg_cycle (adjPut_cycle h)))))
theorem setShF_cycle {x i v : Nat} (h : SameCycle s t) : SameCycle s (setShF x i v t) := upd_cycle (mStoreW_cycle h)
theorem polCommit_cycle (h : SameCycle s t) : SameCycle s (polCommit t) := commitReq_cycle h
theorem rsvSend_cycle {q op : Nat} {m : RsvMsg} (h : SameCycle s t) : SameCycle s (rsvSend q op m t) := txOwn_cycle h
theorem rsvDrop_cycle {tag : Nat} (h : SameCycle s t) : SameCycle s (rsvDrop tag t) := upd_cycle h
theorem rsvPut_cycle {hop : RsvHop} (h : SameCycle s t) : SameCycle s (rsvPut hop t) := upd_cycle h
theorem entryUnfwd_cycle {x q : Nat} (h : SameCycle s t) : SameCycle s (entryUnfwd x q t) :=
  .of_ite (setShF_cycle (setShF_cycle (setShF_cycle h))) (setShF_cycle (setShF_cycle h))
theorem entryUnsink_cycle {x : Nat} (h : SameCycle s t) : SameCycle s (entryUnsink x t) := setShF_cycle h
theorem hopRemove_cycle {hop : RsvHop} (h : SameCycle s t) : SameCycle s (hopRemove hop t) := by
  unfold hopRemove
  extract_lets s1
  have h1 : SameCycle s s1 := rsvDrop_cycle h
  refine .of_ite h1 (.of_ite h1 ?_)
  split
  · exact polCommit_cycle (.of_ite (entryUnsink_cycle h1) (entryUnfwd_cycle h1))
  · exact h1

theorem srcPut_cycle {f : SrcFlow} (h : SameCycle s t) : SameCycle s (srcPut f t) := upd_cycle h
theorem srcReserve_cycle {m0 : RsvMsg} {excl : List (Nat × Nat)} (h : SameCycle s t) :
    SameCycle s (srcReserve m0 excl t) := by
  have hfail {c : Bool} {f : SrcFlow} : SameCycle s (whenS c (raise 0x0D25 1 255 0) (srcPut f t)) :=
    whenS_cycle (fun _ h => raise_cycle h) (srcPut_cycle h)
  unfold srcReserve
  dsimp only
  split
  · exact hfail
  · exact h
  · split
    · exact hfail
    · exact rsvSend_cycle (srcPut_cycle (rsvPut_cycle (upd_cycle h)))

theorem srcRelease_cycle {hop : RsvHop} (h : SameCycle s t) : SameCycle s (srcRelease hop t) :=
  rsvSend_cycle (hopRemove_cycle h)
theorem srcRefused_cycle {hop : RsvHop} {reason : Nat} {excl : List (Nat × Nat)} (h : SameCycle s t) :
    SameCycle s (srcRefused hop reason excl t) := by
  unfold srcRefused
  extract_lets s1 f s2 dual
  have h2 : SameCycle s s2 := srcPut_cycle (srcRelease_cycle h)
  exact .of_ite h2 (.of_ite (srcReserve_cycle h2) (whenS_cycle (fun _ h => raise_cycle h) (srcPut_cycle h2)))

theorem srcBroken_cycle {hop : RsvHop} {excl : List (Nat × Nat)} (h : SameCycle s t) :
    SameCycle s (srcBroken hop excl t) :=
  srcReserve_cycle (whenS_cycle (fun _ h => raise_cycle h) (srcPut_cycle (hopRemove_cycle h)))

theorem rsvBoundary_cycle {k : Nat} (h : SameCycle s t) : SameCycle s (rsvBoundary k t) := by
  refine foldS_cycle (fun _ _ h => ?_) h
  split
  · exact rsvSend_cycle (rsvPut_cycle h)
  · exact rsvPut_cycle h

theorem hopLeft_cycle {p : Nat} {hop : RsvHop} (h : SameCycle s t) : SameCycle s (hopLeft p hop t) := by
  unfold hopLeft
  extract_lets m
  split
  · exact rsvSend_cycle (hopRemove_cycle h)
  · exact rsvSend_cycle (hopRemove_cycle h)
  · exact srcRefused_cycle h
  · exact srcBroken_cycle h

theorem flowLeft_cycle {p x : Nat} (h : SameCycle s t) : SameCycle s (flowLeft p x t) :=
  foldS_cycle (fun _ _ h => rsvSend_cycle h) (entryUnfwd_cycle h)
theorem adjLeft_cycle {p : Nat} (h : SameCycle s t) : SameCycle s (adjLeft p t) := by
  refine maybe_cycle (fun h => ?_) h
  extract_lets s1 left s2
  have h2 : SameCycle s s2 := foldS_cycle (fun _ _ h => flowLeft_cycle h) (foldS_cycle (fun _ _ h => hopLeft_cycle h)
    h)
  exact policyUpdate_cycle (.of_ite h2 (polCommit_cycle h2))

theorem adjDown_cycle {p : Nat} (h : SameCycle s t) : SameCycle s (adjDown p t) :=
  whenS_cycle (fun _ h => adjLeft_cycle h) (adjDrop_cycle h)

/-! ### The service bus and the pair controller -/

theorem svbCommit_cycle (h : SameCycle s t) : SameCycle s (svbCommit t) :=
  .of_ite (upd_cycle (pendApply_cycle (pendApply_cycle h))) (upd_cycle (pendApply_cycle (pendApply_cycle h)))
theorem pairEvent_cycle {i : Nat} (h : SameCycle s t) : SameCycle s (pairEvent i t) := evOr_cycle h
theorem pairRaise_cycle {code cls : Nat} (h : SameCycle s t) : SameCycle s (pairRaise code cls t) := raise_cycle h
theorem pairCnt_cycle {lo : Nat} (h : SameCycle s t) : SameCycle s (pairCnt lo t) := ctrUp_cycle h
theorem pairSend_cycle {kind : Nat} {rest payload : List Byte} {due : Nat} (h : SameCycle s t) :
    SameCycle s (pairSend kind rest payload due t) :=
  txOwn_cycle h

theorem leaseSend_cycle {op cyc : Nat} (h : SameCycle s t) : SameCycle s (leaseSend op cyc t) := pairSend_cycle h
theorem stateSend_cycle {sub cyc arg arg2 : Nat} {payload : List Byte} {due : Nat} (h : SameCycle s t) :
    SameCycle s (stateSend sub cyc arg arg2 payload due t) :=
  pairSend_cycle h

theorem formSend_cycle (h : SameCycle s t) : SameCycle s (formSend t) := stateSend_cycle h
theorem setRole_cycle {r : Nat} (h : SameCycle s t) : SameCycle s (setRole r t) :=
  .of_ite h (pairEvent_cycle (upd_cycle h))
theorem resyncStart_cycle (h : SameCycle s t) : SameCycle s (resyncStart t) := stateSend_cycle (upd_cycle h)
theorem outOfStep_cycle {err : Bool} (h : SameCycle s t) : SameCycle s (outOfStep err t) :=
  maybe_cycle resyncStart_cycle (whenS_cycle (fun _ h => pairRaise_cycle h) (pairEvent_cycle (upd_cycle h)))
theorem resyncFail_cycle (h : SameCycle s t) : SameCycle s (resyncFail t) :=
  .of_ite h (maybe_cycle upd_cycle (pairRaise_cycle (pairEvent_cycle (outOfStep_cycle (upd_cycle h)))))
theorem toRole_cycle {r : Nat} (h : SameCycle s t) : SameCycle s (toRole r t) :=
  setRole_cycle (maybe_cycle resyncFail_cycle h)
theorem stepSyncing_cycle (h : SameCycle s t) : SameCycle s (stepSyncing t) := upd_cycle h
theorem formResolve_cycle (h : SameCycle s t) : SameCycle s (formResolve t) := by
  have hlee : SameCycle s (pairRaise 0x0F10 0 (stepSyncing (toRole 2 t))) := pairRaise_cycle (stepSyncing_cycle
    (toRole_cycle h))
  exact maybe_cycle (fun h => .of_ite hlee (maybe_cycle (fun h => .of_ite hlee (pairRaise_cycle (stepSyncing_cycle
    (upd_cycle h)))) h)) h

theorem pairSync_cycle (h : SameCycle s t) : SameCycle s (pairSync t) := by
  refine .of_ite h ?_
  extract_lets up good _ _ s1 l
  have h1 : SameCycle s s1 := .of_ite (.of_ite (formSend_cycle (upd_cycle h)) (pairRaise_cycle (upd_cycle h)))
    (.of_ite (upd_cycle h) (maybe_cycle (fun h => pairRaise_cycle (upd_cycle h)) h))
  refine .of_ite (formResolve_cycle h1) (.of_ite ?_ ?_)
  · exact formResolve_cycle (maybe_cycle stepSyncing_cycle (pairEvent_cycle (upd_cycle h1)))
  · exact maybe_cycle upd_cycle (resyncFail_cycle (pairRaise_cycle (pairEvent_cycle (upd_cycle h1))))

theorem pairEnCommit_cycle (h : SameCycle s t) : SameCycle s (pairEnCommit t) :=
  .of_ite (pairSync_cycle (formSend_cycle (pairEvent_cycle (upd_cycle h)))) (upd_cycle h)
theorem dropOwn_cycle (h : SameCycle s t) : SameCycle s (dropOwn t) :=
  maybe_cycle (fun h => pairEvent_cycle (upd_cycle h)) h
theorem claimNow_cycle (h : SameCycle s t) : SameCycle s (claimNow t) := by
  have hraise {c d : Bool} {u : State} (hu : SameCycle s u) : SameCycle s (if c then pairRaise 0x0F31 2 u
      else if d then pairRaise 0x0F13 0 u else pairRaise 0x0F22 1 u) :=
    .of_ite (pairRaise_cycle hu) (.of_ite (pairRaise_cycle hu) (pairRaise_cycle hu))
  exact whenS_cycle (fun _ h => pairRaise_cycle h) (hraise (leaseSend_cycle (leaseSend_cycle (pairEvent_cycle
    (upd_cycle (toRole_cycle h))))))

theorem decideMatch_cycle (h : SameCycle s t) : SameCycle s (decideMatch t) :=
  maybe_cycle (fun h => pairRaise_cycle (pairEvent_cycle (upd_cycle h))) (srvUp_cycle (upd_cycle h))
theorem decideMismatch_cycle {e mine theirs : Nat} (h : SameCycle s t) :
    SameCycle s (decideMismatch e mine theirs t) :=
  maybe_cycle outOfStep_cycle (whenS_cycle (fun _ h => pairRaise_cycle h) (upd_cycle (srvUp_cycle (pairEvent_cycle
    (pairCnt_cycle h)))))

theorem digestDecide_cycle {k : Nat} (h : SameCycle s t) : SameCycle s (digestDecide k t) :=
  .of_ite h (.of_ite (upd_cycle h) (.of_ite (srvUp_cycle (pairCnt_cycle (upd_cycle (upd_cycle h))))
    (.of_ite (decideMatch_cycle (upd_cycle h)) (decideMismatch_cycle (upd_cycle h)))))

theorem digestSend_cycle {k : Nat} (h : SameCycle s t) : SameCycle s (digestSend k t) := pairSend_cycle (upd_cycle h)
theorem mirrorSend_cycle {c : Nat} {parts : List (List Byte)} (h : SameCycle s t) :
    SameCycle s (mirrorSend c parts t) :=
  foldS_cycle (fun _ _ h => pairSend_cycle h) h

theorem senseSend_cycle {c : Nat} (h : SameCycle s t) : SameCycle s (senseSend c t) := stateSend_cycle h
theorem psCopy_cycle {out : Bool} (h : SameCycle s t) : SameCycle s (psCopy out t) :=
  foldlProj_cycle (fun r : State × Nat => r.1) (fun _ _ h => .of_ite (mStores_cycle h) (mStores_cycle h)) h
theorem psnapStart_cycle (h : SameCycle s t) : SameCycle s (psnapStart t) :=
  upd_cycle (foldS_cycle (fun _ _ h => .of_ite h (clPut_cycle h)) (psCopy_cycle h))
theorem resyncLog_cycle {k : Nat} (h : SameCycle s t) : SameCycle s (resyncLog k t) :=
  maybe_cycle (fun h => .of_ite (resyncFail_cycle h) (upd_cycle h)) h
theorem blockRestore_cycle {a : Nat} {b : BlockSnap} (h : SameCycle s t) : SameCycle s (blockRestore a b t) :=
  foldS_cycle (fun _ _ h => .of_ite h (grpPut_cycle h)) (foldS_cycle (fun _ _ h => maybe_cycle (fun h =>
    outStep_cycle (upd_cycle h)) h)
    (foldS_cycle (fun _ _ h => foldS_cycle (fun _ _ h => setLv_cycle h) (outPut_cycle h)) h))

theorem resyncRestore_cycle {a : Nat} (h : SameCycle s t) : SameCycle s (resyncRestore a t) := by
  unfold resyncRestore
  split
  · exact maybe_cycle (fun h => blockRestore_cycle (psCopy_cycle (upd_cycle h))) h
  · exact h

theorem catchEnd_cycle (h : SameCycle s t) : SameCycle s (catchEnd t) :=
  maybe_cycle (fun h => pairRaise_cycle (pairEvent_cycle (stepSyncing_cycle (upd_cycle h)))) h
theorem swbRefuse_cycle (h : SameCycle s t) : SameCycle s (swbRefuse t) :=
  pairRaise_cycle (pairEvent_cycle (upd_cycle h))
theorem pairCommand_cycle (h : SameCycle s t) : SameCycle s (pairCommand t) := by
  refine .of_ite h ?_
  extract_lets cmd s1
  have h1 : SameCycle s s1 := maybe_cycle resyncStart_cycle h
  exact maybe_cycle (fun h => .of_ite (swbRefuse_cycle h) (leaseSend_cycle (upd_cycle h))) h1

theorem switchback_cycle {k : Nat} (h : SameCycle s t) : SameCycle s (switchback k t) := by
  unfold switchback
  split
  · exact .of_ite (swbRefuse_cycle h)
      (maybe_cycle (fun h => .of_ite (pairRaise_cycle (toRole_cycle (upd_cycle (dropOwn_cycle h)))) (swbRefuse_cycle
        h)) h)
  · exact h

theorem pairBoundary_cycle {k : Nat} (h : SameCycle s t) : SameCycle s (pairBoundary k t) :=
  .of_ite h (digestDecide_cycle (maybe_cycle claimNow_cycle (switchback_cycle h)))
theorem pairFrames_cycle {k : Nat} {parts : List (List Byte)} (h : SameCycle s t) :
    SameCycle s (pairFrames k parts t) :=
  .of_ite h (maybe_cycle senseSend_cycle (mirrorSend_cycle (digestSend_cycle (maybe_cycle (fun h => srvUp_cycle
    (leaseSend_cycle h)) h))))

theorem linkDownFx_cycle {p : Nat} (h : SameCycle s t) : SameCycle s (linkDownFx p t) :=
  maybe_cycle (fun h => pairSync_cycle (adjDown_cycle (linkDrop_cycle h))) h

/-! ### Power -/

theorem pwrEvent_cycle {i : Nat} (h : SameCycle s t) : SameCycle s (pwrEvent i t) := evOr_cycle h
theorem domLower_cycle {d goal after : Nat} (h : SameCycle s t) : SameCycle s (domLower d goal after t) :=
  domPut_cycle h
theorem domTarget_cycle {d goal after : Nat} (h : SameCycle s t) : SameCycle s (domTarget d goal after t) := by
  refine .of_ite (domPut_cycle h) (.of_ite (.of_ite ?_ (domPut_cycle h)) (.of_ite (domPut_cycle (upd_cycle h))
    (maybe_cycle domLower_cycle h)))
  exact maybe_cycle domLower_cycle (domPut_cycle (upd_cycle h))

theorem domTargets_cycle {l : List (Nat × Nat)} (h : SameCycle s t) : SameCycle s (domTargets l t) :=
  foldlProj_cycle (fun r : Nat × State => r.2) (fun _ _ h => domTarget_cycle h) h
theorem coldClear_cycle {g : Nat} (h : SameCycle s t) : SameCycle s (coldClear g t) :=
  foldS_cycle (fun _ _ h => whenS_cycle (fun _ h => domPut_cycle h) h) h
theorem sleepEnter_cycle (h : SameCycle s t) : SameCycle s (sleepEnter t) := by
  refine .of_ite h ?_
  extract_lets v lp ports s1 s2 lows s3 last s4 last4 s5
  have h3 : SameCycle s s3 := domTargets_cycle (whenS_cycle (fun _ h => enterHoldover_cycle h)
    (foldS_cycle (fun _ _ h => maybe_cycle linkDownFx_cycle h) h))
  exact upd_cycle (domTarget_cycle (maybe_cycle domTarget_cycle h3))

theorem stepTo_cycle {n : Nat} (h : SameCycle s t) : SameCycle s (stepTo n t) :=
  .of_ite h (pwrEvent_cycle (upd_cycle h))
theorem baseCommit_cycle (h : SameCycle s t) : SameCycle s (baseCommit t) := maybe_cycle stepTo_cycle h
theorem stepBoundary_cycle (h : SameCycle s t) : SameCycle s (stepBoundary t) := upd_cycle h

/-! ### Commits -/

theorem frstResume_cycle {k : Nat} (h : SameCycle s t) : SameCycle s (frstResume k t) := by
  refine foldS_cycle (fun fn t h => ?_) (upd_cycle h)
  extract_lets t1
  have h1 : SameCycle s t1 := foldS_cycle (fun _ _ h => maybe_cycle pendApply_cycle h) h
  exact .of_ite (tdmBoundary_cycle h1) (.of_ite (txBoundary_cycle h1) (.of_ite (eqsReset_cycle h1) (maybe_cycle
    strReset_cycle h1)))

theorem chgApply_cycle {b : Batch} {c : Chg} (h : SameCycle s t) : SameCycle s (chgApply b c t) :=
  .of_ite (upd_cycle (setLv_cycle h)) (upd_cycle (maybe_cycle setArr_cycle h))
theorem refusedWarn_cycle {a : Nat} (h : SameCycle s t) : SameCycle s (refusedWarn a t) :=
  .of_ite (raise_cycle (evOr_cycle h)) (raise_cycle h)
theorem pendRelease_cycle {nv : Nat → Nat} {skip : List Nat} (h : SameCycle s t) :
    SameCycle s (pendRelease nv skip t) :=
  foldS_cycle (fun _ _ h => .of_ite h (pendApplyMask_cycle h)) h

theorem commitAudio_cycle {k : Nat} {l : List Nat} {old : State} (h : SameCycle s t) :
    SameCycle s (commitAudio k l old t) :=
  foldS_cycle (fun _ _ h => grpCommit_cycle h) (foldS_cycle (fun _ _ h => lineCommit_cycle h)
    (foldS_cycle (fun _ _ h => whenS_cycle (fun _ h => chainStart_cycle h) h) (sosCommit_cycle (foldS_cycle (fun _ _
      h => xpTake_cycle h)
      (foldS_cycle (fun _ _ h => outcfgCommit_cycle h) (foldS_cycle (fun _ _ h => egrCommit_cycle h) h))))))

theorem commitOthers_cycle {k : Nat} {l : List Nat} {refused : Tab Nat} {old : State} (h : SameCycle s t) : SameCycle
    s (commitOthers k l refused old t) := by
  unfold commitOthers
  extract_lets took was s1 s1b s2 s3 s4 s5 s6 s7 s8 s9 s10 s11 doms
  have h1 : SameCycle s s1 := whenS_cycle (fun _ h => showSel_cycle (selCommit_cycle h)) h
  have h2 : SameCycle s s2 := whenS_cycle (fun _ h => srvUp_cycle (foldS_cycle (fun _ _ h => prtPut_cycle h) h))
    (whenS_cycle (fun _ h => upd_cycle h) h1)
  have h3 : SameCycle s s3 := foldS_cycle (fun _ _ h => whenS_cycle (fun _ h => linkDownFx_cycle h) h) h2
  have h4 : SameCycle s s4 := foldS_cycle (fun _ _ h => flowCommit_cycle h) h3
  have h6 : SameCycle s s6 := whenS_cycle (fun _ h => pairEnCommit_cycle h) (whenS_cycle (fun _ h => svbCommit_cycle
    h) h4)
  have h7 : SameCycle s s7 := whenS_cycle (fun _ h => pairCommand_cycle h) h6
  have h8 : SameCycle s s8 := foldS_cycle (fun _ _ h => whenS_cycle (fun _ h => clusterCommit_cycle h) h) h7
  have h9 : SameCycle s s9 := foldS_cycle (fun _ _ h => whenS_cycle (fun _ h => tdmMaskCommit_cycle h) h) h8
  have h11 : SameCycle s s11 := whenS_cycle (fun _ h => baseCommit_cycle h) (outBaseCommit_cycle (outCommands_cycle
    h9))
  exact .of_ite h11 (domTargets_cycle h11)

theorem commitRun_cycle {k : Nat} (h : SameCycle s t) : SameCycle s (commitRun k t) := by
  unfold commitRun
  split
  rename_i gs late _
  refine .of_ite (pendRelease_cycle h) ?_
  split
  rename_i wins bad _
  extract_lets regs arrs nv l starts conds fuel single joint b refusedWords overlap s1 s2 s3 s4 s5 s6 s7
  have h2 : SameCycle s s2 := commitOthers_cycle (commitAudio_cycle (pendRelease_cycle (foldS_cycle (fun _ _ h =>
    chgApply_cycle h) h)))
  have h4 : SameCycle s s4 := whenS_cycle (fun _ h => evOr_cycle h)
    (foldS_cycle (fun _ _ h => refusedWarn_cycle h) (whenS_cycle (fun _ h => evOr_cycle h) h2))
  have h5 : SameCycle s s5 := foldS_cycle (fun _ _ h => raise_cycle h) (whenS_cycle (fun _ h => evOr_cycle h) h4)
  have h6 : SameCycle s s6 := whenS_cycle (fun _ h => maybe_cycle raise_cycle (evOr_cycle (evOr_cycle h))) h5
  exact foldS_cycle (fun _ _ h => coldClear_cycle h) (upd_cycle (srvUp_cycle (srvUp_cycle (srvUp_cycle
    (evOr_cycle h6)))))

/-! ### The parts of a boundary -/

theorem policyTake_cycle (h : SameCycle s t) : SameCycle s (policyTake t) := foldS_cycle (fun _ _ h => upd_cycle h) h
theorem handOff_cycle (h : SameCycle s t) : SameCycle s (handOff t) :=
  maybe_cycle (fun h => corePut_cycle (upd_cycle (policyTake_cycle (mStoreWs_cycle (upd_cycle h))))) h
theorem supBoundary_cycle (h : SameCycle s t) : SameCycle s (supBoundary t) :=
  .of_ite (corePut_cycle (upd_cycle h)) (upd_cycle h)
theorem egressRun_cycle {k : Nat} (h : SameCycle s t) : SameCycle s (egressRun k t) :=
  srvUp_cycle (upd_cycle (egrAdvance_cycle h))
theorem ingRunAt_cycle {k : Nat} (h : SameCycle s t) : SameCycle s (ingRunAt k t) :=
  .of_ite (upd_cycle h) (.of_ite h (ingressRelease_cycle h))
theorem mtxRunAt_cycle {k : Nat} (h : SameCycle s t) : SameCycle s (mtxRunAt k t) :=
  .of_ite (upd_cycle (upd_cycle h)) (.of_ite (upd_cycle (upd_cycle h)) (srvUp_cycle (srvUp_cycle (matrixRun_cycle
    h))))

theorem silRunAt_cycle {k : Nat} (h : SameCycle s t) : SameCycle s (silRunAt k t) :=
  .of_ite h (.of_ite (silMute_cycle h) (srvUp_cycle (srvUp_cycle (silRun_cycle h))))
theorem eqRunAt_cycle (h : SameCycle s t) : SameCycle s (eqRunAt t) :=
  .of_ite (upd_cycle h) (.of_ite h (srvUp_cycle (srvUp_cycle (srvUp_cycle (eqRun_cycle h)))))
theorem strRunAt_cycle {k : Nat} (h : SameCycle s t) : SameCycle s (strRunAt k t) :=
  .of_ite (upd_cycle h) (.of_ite h (srvUp_cycle (srvUp_cycle (strRun_cycle h))))
theorem clustersEnd_cycle (h : SameCycle s t) : SameCycle s (clustersEnd t) :=
  .of_ite h (foldS_cycle (fun _ _ h => clusterOverruns_cycle h) h)
theorem clustersStream_cycle {k : Nat} (h : SameCycle s t) : SameCycle s (clustersStream k t) :=
  .of_ite (upd_cycle h) (foldS_cycle (fun _ _ h => clusterReserve_cycle h) (upd_cycle h))
theorem startPassed_cycle {k : Nat} (h : SameCycle s t) : SameCycle s (startPassed k t) := by
  unfold startPassed
  split
  · exact maybe_cycle (fun h => startLate_cycle (upd_cycle h)) h
  · exact h

theorem startRun_cycle {k : Nat} (h : SameCycle s t) : SameCycle s (startRun k t) :=
  maybe_cycle (fun h => srvUp_cycle (whenS_cycle (fun _ h => evOr_cycle (evOr_cycle h)) (evOr_cycle (upd_cycle h)))) h
theorem tevStarts_cycle {common : Nat} (h : SameCycle s t) : SameCycle s (tevStarts common t) :=
  foldS_cycle (fun _ _ h => maybe_cycle tevBegin_cycle h) h
theorem startsRun_cycle {k : Nat} (h : SameCycle s t) : SameCycle s (startsRun k t) :=
  serialBoundary_cycle (realignAtBoundary_cycle (stepAtBoundary_cycle (tevStarts_cycle (startRun_cycle
    (startPassed_cycle h)))))

theorem boundaryCommit_cycle {k : Nat} (h : SameCycle s t) : SameCycle s (boundaryCommit k t) :=
  handOff_cycle (foldS_cycle (fun _ _ h => gateStep_cycle h) (frstResume_cycle (whenS_cycle (fun _ h =>
    commitRun_cycle h)
    (clustersEnd_cycle (sleepEnter_cycle (stepBoundary_cycle (supBoundary_cycle h)))))))

theorem boundaryLinks_cycle {k : Nat} (h : SameCycle s t) : SameCycle s (boundaryLinks k t) :=
  resyncLog_cycle (catchEnd_cycle (resyncRestore_cycle (pairBoundary_cycle (foldS_cycle (fun _ _ h => dropStale_cycle
    (linkBoundary_cycle h)) h))))

theorem boundarySamples_cycle {k : Nat} {sense : List SenseIn} (h : SameCycle s t) :
    SameCycle s (boundarySamples k sense t) := by
  unfold boundarySamples
  extract_lets s1 s2 s3 s4
  have h1 : SameCycle s s1 := clustersStream_cycle (slipsRun_cycle (ingressDiscard_cycle h))
  have h2 : SameCycle s s2 := whenS_cycle (fun _ h => psnapStart_cycle h) h1
  have h3 : SameCycle s s3 := mtxRunAt_cycle (ingRunAt_cycle (egressRun_cycle h2))
  have h4 : SameCycle s s4 := strRunAt_cycle (eqRunAt_cycle (silRunAt_cycle h3))
  exact whenS_cycle (fun _ h => outRun_cycle (outStep_cycle h)) h4

theorem boundarySend_cycle {k : Nat} {parts : List (List Byte)} (h : SameCycle s t) :
    SameCycle s (boundarySend k parts t) :=
  whenS_cycle (fun _ h => pairFrames_cycle (rsvBoundary_cycle (helloRun_cycle (flowsSend_cycle h)))) h

end Sys2Proof.Machine
end

section
/-! Proofs. Commit requests and the boundary as commands (R16, R45, R46). -/

namespace Sys2Proof.Machine

/-! ### A commit request -/

theorem commit_strobeAt : strobeAt 0x40000010 := by
  unfold strobeAt
  decide +kernel

theorem strobe_commit (m : Master) (v : Nat) (s : State) : strobe m 0x40000010 v s =
    foldS (bitsOf 32 v) (fun g t => commitReq g (lvn s 0x40000018 + lvn s 0x4000001C * 2 ^ 32) t) s := rfl

/-! ### The boundary -/

/-- With no step of FT due and no write held, the strobe takes the next cycle as the present one. -/
theorem boundaryBegin_advances {s : State} (hheld : s.hub.held = []) (hstep : s.cmp.step = none) :
    (boundaryBegin s).grat.cycle = s.grat.nextCycle ∧ (boundaryBegin s).grat.nextCycle = s.grat.nextCycle + 1 := by
  have hland : heldLandFx s = s := by
    rw [heldLandFx, hheld]
    rfl
  have hft : ftStepFx s = s := by rw [ftStepFx, hstep]
  rw [boundaryBegin, hland, hft]
  exact srvUp_cycle (s := { srvBoundary s.grat.nextCycle (atFt (cycleFt s s.grat.nextCycle) s) with
    grat.cycle := s.grat.nextCycle, grat.nextCycle := s.grat.nextCycle + 1 }) ⟨rfl, rfl⟩

/-- What follows the strobe of a boundary keeps its cycle. -/
theorem cycleBoundaryFx_sameCycle {inp : BoundaryInput} {s : State} (hon : boundaryOn s = true) (hduring : inp.during = []) :
    SameCycle (boundaryBegin s) (cycleBoundaryFx inp s) := by
  unfold cycleBoundaryFx
  rw [if_pos hon, hduring]
  extract_lets s1 k gs s2 s3 parts s4
  have h2 : SameCycle s1 s2 := fracIn_cycle (startsRun_cycle (boundaryCommit_cycle ⟨rfl, rfl⟩))
  have h3 : SameCycle s1 s3 := boundaryLinks_cycle h2
  have h4 : SameCycle s1 s4 := boundarySend_cycle (boundarySamples_cycle h3)
  rw [foldS, List.foldl_nil]
  exact h4

/-- Settles O24: the strobe sets the cycle, and no part of a boundary after it touches it again. -/
theorem boundaryCommands : Obligations.BoundaryCommands := by
  unfold Obligations.BoundaryCommands
  refine ⟨?_, ?_, ?_⟩
  · intro m mask s h
    refine congrArg (finish s) ?_
    rw [writeCmd_strobe h commit_strobeAt, strobe_commit, wd_toNat, lvn_counted, lvn_counted]
    rfl
  · intro inp s hon hheld hstep hduring
    obtain ⟨-, hgrat, -⟩ := (placementFrame s (cycleBoundaryFx inp s)).2
    obtain ⟨hcycle, hnext⟩ := boundaryBegin_advances hheld hstep
    obtain ⟨kcycle, knext⟩ := cycleBoundaryFx_sameCycle hon hduring
    exact ⟨placed s (cycleBoundaryFx inp s), rfl, by rw [hgrat, kcycle, hcycle], by rw [hgrat, knext, hnext]⟩
  · intro inp s hoff
    refine congrArg (finish s) (if_neg ?_)
    rw [hoff]
    exact Bool.false_ne_true

end Sys2Proof.Machine
end
